-- ==== Sys2Proof/Word.lean ====
section
/-! DEFINITION. The word types of the B4 and their plainest arithmetic (R2, R3). -/

namespace Sys2Proof

/-- A byte (R3). -/
abbrev Byte := BitVec 8
/-- A word, 32 bits (R3). -/
abbrev Word := BitVec 32
/-- A dword, 64 bits (R3). -/
abbrev Dword := BitVec 64
/-- One bit per lane of a coach, bit L for lane L (R6). -/
abbrev LaneMask := BitVec 32
/-- One 32-bit value per lane of a coach: what a vector register holds (R4, R6). -/
abbrev LaneVec := Vector (BitVec 32) 32

end Sys2Proof
end

