-- ==== Sys2Proof/Syntax.lean ====
section
/-! DEFINITION. The instructions and steps of the B4: one constructor per row of the opcode table. The first group are
the 202 instruction words, each with the operand fields of its encoding (R91, R104) and its marker bit m (R90); the
second group are the 95 steps that have no word (engines, controllers, the host side, power and integrity), each with
the arguments that say on which unit it acts. Which step comes next is data of the state (State.schedule). -/

namespace Sys2Proof

/-- What an access that enters at a requester port 64-71 asks for (R357), or a host write through a BAR (R19, R46). -/
inductive Ingress where
  /-- Read n bytes. -/
  | read (n : Nat)
  /-- Write these bytes. -/
  | write (bytes : List (BitVec 8))
  /-- A 32-bit atomic with R212's op code; FetchAdd, Swap and CAS from the host (R19, R214). ret says whether it returns
  the old word. -/
  | atomic (op : Nat) (x y : BitVec 32) (ret : Bool)
  /-- A signal write of a peer: SET, ADD or SUB on a dword (R52, R355). -/
  | signal (op : Nat) (value : BitVec 64)
  /-- A host write to the window through the mailbox BAR of a function (R46). -/
  | mailbox (function : Nat) (bytes : List (BitVec 8))
  /-- A host write to the window through CXL.mem (R45). -/
  | cxl (bytes : List (BitVec 8))
  /-- A host write to host memory. -/
  | hostMem (pasid : Nat) (bytes : List (BitVec 8))
  deriving DecidableEq, Repr

/-- An access of a peer with the Coupler port at which it arrives (R20, R355). -/
structure PeerAccess where
  port : Nat
  op   : Ingress
  deriving DecidableEq, Repr

/-- One constructor per row of the opcode table. -/
inductive Instr where
  /-- ZERO_WORD_TRAP, R105. -/
  | zeroWordTrap (m : Bool) (x : BitVec 18)
  /-- NOP, R122. -/
  | nop (m : Bool)
  /-- EXIT, R124. -/
  | exit (m : Bool)
  /-- RET, R140. -/
  | ret (m : Bool)
  /-- YIELD, R123. -/
  | yield (m : Bool)
  /-- MODEG, R126. -/
  | modeg (m : Bool) (a : BitVec 6)
  /-- MODER, R126. -/
  | moder (m : Bool) (d : BitVec 6)
  /-- EXMS, R127. -/
  | exms (m : Bool) (a : BitVec 6)
  /-- EXMG, R127. -/
  | exmg (m : Bool) (d : BitVec 6)
  /-- EXMA, R127. -/
  | exma (m : Bool) (a : BitVec 6)
  /-- PSW, R128. -/
  | psw (m : Bool) (a : BitVec 6)
  /-- PSWI, R128. -/
  | pswi (m : Bool) (p : BitVec 2)
  /-- PLQ, R129. -/
  | plq (m : Bool) (d : BitVec 6) (p : BitVec 2)
  /-- JI, R134. -/
  | ji (m : Bool) (a : BitVec 6)
  /-- CALLI, R139. -/
  | calli (m : Bool) (f : BitVec 3) (a : BitVec 6)
  /-- LANEID, R130. -/
  | laneid (m : Bool) (d : BitVec 6)
  /-- IDS, R131. -/
  | ids (m : Bool) (d : BitVec 6) (s : BitVec 6)
  /-- BR, R133. -/
  | br (m : Bool) (g : BitVec 4) (o : BitVec 21)
  /-- BRN, R133. -/
  | brn (m : Bool) (g : BitVec 4) (o : BitVec 21)
  /-- JMP, R133. -/
  | jmp (m : Bool) (o : BitVec 25)
  /-- CALL, R139. -/
  | call (m : Bool) (f : BitVec 3) (o : BitVec 22)
  /-- BRZ, R135. -/
  | brz (m : Bool) (k : BitVec 5) (o : BitVec 20)
  /-- BRNZ, R135. -/
  | brnz (m : Bool) (k : BitVec 5) (o : BitVec 20)
  /-- MODE, R125. -/
  | mode (m : Bool) (g : BitVec 5) (n : BitVec 1) (t : BitVec 4) (r : BitVec 2) (s : BitVec 1) (p : BitVec 5) (e : BitVec 1)
  /-- ADD, R147. -/
  | add (m : Bool) (d : BitVec 6) (a : BitVec 6) (b : BitVec 6)
  /-- SUB, R147. -/
  | sub (m : Bool) (d : BitVec 6) (a : BitVec 6) (b : BitVec 6)
  /-- MUL, R147. -/
  | mul (m : Bool) (d : BitVec 6) (a : BitVec 6) (b : BitVec 6)
  /-- MULH, R147. -/
  | mulh (m : Bool) (d : BitVec 6) (a : BitVec 6) (b : BitVec 6)
  /-- MIN, R147. -/
  | min (m : Bool) (d : BitVec 6) (a : BitVec 6) (b : BitVec 6)
  /-- MAX, R147. -/
  | max (m : Bool) (d : BitVec 6) (a : BitVec 6) (b : BitVec 6)
  /-- ABS, R147. -/
  | abs (m : Bool) (d : BitVec 6) (a : BitVec 6)
  /-- NEG, R147. -/
  | neg (m : Bool) (d : BitVec 6) (a : BitVec 6)
  /-- DIV, R148. -/
  | div (m : Bool) (d : BitVec 6) (a : BitVec 6) (b : BitVec 6)
  /-- REM, R148. -/
  | rem (m : Bool) (d : BitVec 6) (a : BitVec 6) (b : BitVec 6)
  /-- AND, R150. -/
  | and (m : Bool) (d : BitVec 6) (a : BitVec 6) (b : BitVec 6)
  /-- OR, R150. -/
  | or (m : Bool) (d : BitVec 6) (a : BitVec 6) (b : BitVec 6)
  /-- XOR, R150. -/
  | xor (m : Bool) (d : BitVec 6) (a : BitVec 6) (b : BitVec 6)
  /-- ANDN, R150. -/
  | andn (m : Bool) (d : BitVec 6) (a : BitVec 6) (b : BitVec 6)
  /-- NOT, R150. -/
  | not (m : Bool) (d : BitVec 6) (a : BitVec 6)
  /-- SHL, R150. -/
  | shl (m : Bool) (d : BitVec 6) (a : BitVec 6) (b : BitVec 6)
  /-- SHR, R150. -/
  | shr (m : Bool) (d : BitVec 6) (a : BitVec 6) (b : BitVec 6)
  /-- SAR, R150. -/
  | sar (m : Bool) (d : BitVec 6) (a : BitVec 6) (b : BitVec 6)
  /-- ROTL, R150. -/
  | rotl (m : Bool) (d : BitVec 6) (a : BitVec 6) (b : BitVec 6)
  /-- CLZ, R150. -/
  | clz (m : Bool) (d : BitVec 6) (a : BitVec 6)
  /-- POPC, R150. -/
  | popc (m : Bool) (d : BitVec 6) (a : BitVec 6)
  /-- BREV, R150. -/
  | brev (m : Bool) (d : BitVec 6) (a : BitVec 6)
  /-- BFX, R151. -/
  | bfx (m : Bool) (d : BitVec 6) (a : BitVec 6) (b : BitVec 6)
  /-- BFI, R151. -/
  | bfi (m : Bool) (d : BitVec 6) (a : BitVec 6) (b : BitVec 6)
  /-- MOV, R150. -/
  | mov (m : Bool) (d : BitVec 6) (a : BitVec 6)
  /-- ADDI, R153. -/
  | addi (m : Bool) (d : BitVec 6) (a : BitVec 6) (i : BitVec 13)
  /-- ANDI, R153. -/
  | andi (m : Bool) (d : BitVec 6) (a : BitVec 6) (i : BitVec 13)
  /-- ORI, R153. -/
  | ori (m : Bool) (d : BitVec 6) (a : BitVec 6) (i : BitVec 13)
  /-- XORI, R153. -/
  | xori (m : Bool) (d : BitVec 6) (a : BitVec 6) (i : BitVec 13)
  /-- SHI, R153. -/
  | shi (m : Bool) (d : BitVec 6) (a : BitVec 6) (k : BitVec 2) (n : BitVec 5)
  /-- MOVI, R153. -/
  | movi (m : Bool) (d : BitVec 6) (i : BitVec 19)
  /-- MOVHI, R153. -/
  | movhi (m : Bool) (d : BitVec 6) (i : BitVec 19)
  /-- MAD, R149. -/
  | mad (m : Bool) (d : BitVec 6) (a : BitVec 6) (b : BitVec 6) (c : BitVec 6)
  /-- MADN, R149. -/
  | madn (m : Bool) (d : BitVec 6) (a : BitVec 6) (b : BitVec 6) (c : BitVec 6)
  /-- FRCP, R179. -/
  | frcp (m : Bool) (d : BitVec 6) (a : BitVec 6)
  /-- FRSQ, R179. -/
  | frsq (m : Bool) (d : BitVec 6) (a : BitVec 6)
  /-- FSQRT, R179. -/
  | fsqrt (m : Bool) (d : BitVec 6) (a : BitVec 6)
  /-- FEX2, R179. -/
  | fex2 (m : Bool) (d : BitVec 6) (a : BitVec 6)
  /-- FLG2, R179. -/
  | flg2 (m : Bool) (d : BitVec 6) (a : BitVec 6)
  /-- FSINT, R180. -/
  | fsint (m : Bool) (d : BitVec 6) (a : BitVec 6)
  /-- FCOST, R180. -/
  | fcost (m : Bool) (d : BitVec 6) (a : BitVec 6)
  /-- FCLASS, R181. -/
  | fclass (m : Bool) (d : BitVec 6) (a : BitVec 6)
  /-- ROUND, R182. -/
  | round (m : Bool) (d : BitVec 6) (a : BitVec 6)
  /-- FLDEXP, R183. -/
  | fldexp (m : Bool) (d : BitVec 6) (a : BitVec 6) (b : BitVec 6)
  /-- PACKE, R186. -/
  | packe (m : Bool) (d : BitVec 6) (a : BitVec 6)
  /-- UNPKE, R186. -/
  | unpke (m : Bool) (d : BitVec 6) (a : BitVec 6)
  /-- FFLGR, R184. -/
  | fflgr (m : Bool) (d : BitVec 6)
  /-- FFLGC, R184. -/
  | fflgc (m : Bool) (k : BitVec 5)
  /-- CVT, R176. -/
  | cvt (m : Bool) (d : BitVec 6) (a : BitVec 6) (b : BitVec 6) (s : BitVec 1) (t : BitVec 4)
  /-- SHFLI, R157. -/
  | shfli (m : Bool) (d : BitVec 6) (a : BitVec 6) (b : BitVec 6)
  /-- SHFLU, R157. -/
  | shflu (m : Bool) (d : BitVec 6) (a : BitVec 6) (n : BitVec 5)
  /-- SHFLD, R157. -/
  | shfld (m : Bool) (d : BitVec 6) (a : BitVec 6) (n : BitVec 5)
  /-- SHFLX, R157. -/
  | shflx (m : Bool) (d : BitVec 6) (a : BitVec 6) (n : BitVec 5)
  /-- BCAST, R158. -/
  | bcast (m : Bool) (d : BitVec 6) (a : BitVec 6)
  /-- RDLN, R158. -/
  | rdln (m : Bool) (d : BitVec 6) (a : BitVec 6) (n : BitVec 5)
  /-- FIRST, R158. -/
  | first (m : Bool) (d : BitVec 6) (a : BitVec 6)
  /-- PAND, R160. -/
  | pand (m : Bool) (d : BitVec 5) (a : BitVec 5) (b : BitVec 5)
  /-- POR, R160. -/
  | por (m : Bool) (d : BitVec 5) (a : BitVec 5) (b : BitVec 5)
  /-- PXOR, R160. -/
  | pxor (m : Bool) (d : BitVec 5) (a : BitVec 5) (b : BitVec 5)
  /-- PANDN, R160. -/
  | pandn (m : Bool) (d : BitVec 5) (a : BitVec 5) (b : BitVec 5)
  /-- PNOT, R160. -/
  | pnot (m : Bool) (d : BitVec 5) (a : BitVec 5)
  /-- PMOV, R160. -/
  | pmov (m : Bool) (d : BitVec 5) (a : BitVec 5)
  /-- PSETA, R160. -/
  | pseta (m : Bool) (d : BitVec 5)
  /-- PCLR, R160. -/
  | pclr (m : Bool) (d : BitVec 5)
  /-- BALLOT, R160. -/
  | ballot (m : Bool) (d : BitVec 6) (a : BitVec 5)
  /-- POPCK, R160. -/
  | popck (m : Bool) (d : BitVec 6) (a : BitVec 5)
  /-- VANY, R160. -/
  | vany (m : Bool) (d : BitVec 4) (a : BitVec 5)
  /-- VALL, R160. -/
  | vall (m : Bool) (d : BitVec 4) (a : BitVec 5)
  /-- KFROMG, R160. -/
  | kfromg (m : Bool) (d : BitVec 5) (a : BitVec 6)
  /-- GKAND, R161. -/
  | gkand (m : Bool) (d : BitVec 4) (a : BitVec 4) (b : BitVec 4)
  /-- GKOR, R161. -/
  | gkor (m : Bool) (d : BitVec 4) (a : BitVec 4) (b : BitVec 4)
  /-- GKNOT, R161. -/
  | gknot (m : Bool) (d : BitVec 4) (a : BitVec 4)
  /-- CMP, R154. -/
  | cmp (m : Bool) (d : BitVec 5) (a : BitVec 6) (b : BitVec 6) (c : BitVec 3)
  /-- CMPI, R154. -/
  | cmpi (m : Bool) (d : BitVec 5) (a : BitVec 6) (c : BitVec 3) (i : BitVec 10)
  /-- SEL, R155. -/
  | sel (m : Bool) (d : BitVec 6) (a : BitVec 6) (b : BitVec 6) (c : BitVec 5)
  /-- GADD, R162. -/
  | gadd (m : Bool) (d : BitVec 6) (a : BitVec 6) (b : BitVec 6)
  /-- GSUB, R162. -/
  | gsub (m : Bool) (d : BitVec 6) (a : BitVec 6) (b : BitVec 6)
  /-- GMUL, R162. -/
  | gmul (m : Bool) (d : BitVec 6) (a : BitVec 6) (b : BitVec 6)
  /-- GMULHU, R162. -/
  | gmulhu (m : Bool) (d : BitVec 6) (a : BitVec 6) (b : BitVec 6)
  /-- GAND, R162. -/
  | gand (m : Bool) (d : BitVec 6) (a : BitVec 6) (b : BitVec 6)
  /-- GOR, R162. -/
  | gor (m : Bool) (d : BitVec 6) (a : BitVec 6) (b : BitVec 6)
  /-- GXOR, R162. -/
  | gxor (m : Bool) (d : BitVec 6) (a : BitVec 6) (b : BitVec 6)
  /-- GANDN, R162. -/
  | gandn (m : Bool) (d : BitVec 6) (a : BitVec 6) (b : BitVec 6)
  /-- GSHL, R162. -/
  | gshl (m : Bool) (d : BitVec 6) (a : BitVec 6) (b : BitVec 6)
  /-- GSHR, R162. -/
  | gshr (m : Bool) (d : BitVec 6) (a : BitVec 6) (b : BitVec 6)
  /-- GSAR, R162. -/
  | gsar (m : Bool) (d : BitVec 6) (a : BitVec 6) (b : BitVec 6)
  /-- GMIN, R162. -/
  | gmin (m : Bool) (d : BitVec 6) (a : BitVec 6) (b : BitVec 6)
  /-- GMAX, R162. -/
  | gmax (m : Bool) (d : BitVec 6) (a : BitVec 6) (b : BitVec 6)
  /-- GMINU, R162. -/
  | gminu (m : Bool) (d : BitVec 6) (a : BitVec 6) (b : BitVec 6)
  /-- GMAXU, R162. -/
  | gmaxu (m : Bool) (d : BitVec 6) (a : BitVec 6) (b : BitVec 6)
  /-- GPOPC, R162. -/
  | gpopc (m : Bool) (d : BitVec 6) (a : BitVec 6)
  /-- GCLZ, R162. -/
  | gclz (m : Bool) (d : BitVec 6) (a : BitVec 6)
  /-- GMOV, R162. -/
  | gmov (m : Bool) (d : BitVec 6) (a : BitVec 6)
  /-- GDIVU, R162. -/
  | gdivu (m : Bool) (d : BitVec 6) (a : BitVec 6) (b : BitVec 6)
  /-- GREMU, R162. -/
  | gremu (m : Bool) (d : BitVec 6) (a : BitVec 6) (b : BitVec 6)
  /-- GADDI, R163. -/
  | gaddi (m : Bool) (d : BitVec 6) (a : BitVec 6) (i : BitVec 13)
  /-- GMOVI, R163. -/
  | gmovi (m : Bool) (d : BitVec 6) (i : BitVec 19)
  /-- GMOVHI, R163. -/
  | gmovhi (m : Bool) (d : BitVec 6) (i : BitVec 19)
  /-- GORI, R163. -/
  | gori (m : Bool) (d : BitVec 6) (a : BitVec 6) (i : BitVec 13)
  /-- GSHI, R163. -/
  | gshi (m : Bool) (d : BitVec 6) (a : BitVec 6) (k : BitVec 2) (n : BitVec 6)
  /-- GCMP, R164. -/
  | gcmp (m : Bool) (d : BitVec 4) (a : BitVec 6) (b : BitVec 6) (c : BitVec 4)
  /-- DBNZ, R136. -/
  | dbnz (m : Bool) (g : BitVec 6) (o : BitVec 19)
  /-- LD, R208. -/
  | ld (m : Bool) (d : BitVec 6) (a : BitVec 6) (b : BitVec 6) (h : BitVec 2) (o : BitVec 1) (x : BitVec 1) (z : BitVec 2) (f : BitVec 1)
  /-- ST, R208. -/
  | st (m : Bool) (d : BitVec 6) (a : BitVec 6) (b : BitVec 6) (h : BitVec 2) (o : BitVec 1) (z : BitVec 2) (f : BitVec 1)
  /-- GLD, R210. -/
  | gld (m : Bool) (d : BitVec 6) (a : BitVec 6) (i : BitVec 13)
  /-- GST, R210. -/
  | gst (m : Bool) (d : BitVec 6) (a : BitVec 6) (i : BitVec 13)
  /-- SLD, R211. -/
  | sld (m : Bool) (d : BitVec 6) (a : BitVec 6) (b : BitVec 6) (z : BitVec 2) (x : BitVec 1)
  /-- SST, R211. -/
  | sst (m : Bool) (d : BitVec 6) (a : BitVec 6) (b : BitVec 6) (z : BitVec 2)
  /-- QLD, R211. -/
  | qld (m : Bool) (d : BitVec 6) (a : BitVec 6) (b : BitVec 6) (z : BitVec 2) (x : BitVec 1)
  /-- QST, R211. -/
  | qst (m : Bool) (d : BitVec 6) (a : BitVec 6) (b : BitVec 6) (z : BitVec 2)
  /-- ATOM, R213. -/
  | atom (m : Bool) (d : BitVec 6) (a : BitVec 6) (b : BitVec 6) (p : BitVec 2) (o : BitVec 4)
  /-- ATOMN, R213. -/
  | atomn (m : Bool) (d : BitVec 6) (a : BitVec 6) (b : BitVec 6) (p : BitVec 2) (o : BitVec 4)
  /-- AFADD, R216. -/
  | afadd (m : Bool) (d : BitVec 6) (a : BitVec 6) (b : BitVec 6)
  /-- AFXRD, R216. -/
  | afxrd (m : Bool) (d : BitVec 6) (a : BitVec 6) (b : BitVec 6)
  /-- AFXCLR, R216. -/
  | afxclr (m : Bool) (d : BitVec 6) (a : BitVec 6) (b : BitVec 6)
  /-- AFXFLG, R216. -/
  | afxflg (m : Bool) (d : BitVec 6) (a : BitVec 6) (b : BitVec 6)
  /-- PGREQ, R218. -/
  | pgreq (m : Bool) (d : BitVec 6) (a : BitVec 6) (b : BitVec 6)
  /-- RESQ, R220. -/
  | resq (m : Bool) (d : BitVec 6) (a : BitVec 6) (b : BitVec 6)
  /-- PFETCH, R220. -/
  | pfetch (m : Bool) (a : BitVec 6) (b : BitVec 6)
  /-- DCOPY, R228. -/
  | dcopy (m : Bool) (a : BitVec 6)
  /-- DCOPYT, R228. -/
  | dcopyt (m : Bool) (a : BitVec 6)
  /-- DCVT, R229. -/
  | dcvt (m : Bool) (a : BitVec 6)
  /-- DGATH, R228. -/
  | dgath (m : Bool) (a : BitVec 6)
  /-- DSCAT, R228. -/
  | dscat (m : Bool) (a : BitVec 6)
  /-- DFILL, R228. -/
  | dfill (m : Bool) (a : BitVec 6)
  /-- DWAIT, R232. -/
  | dwait (m : Bool) (a : BitVec 6) (b : BitVec 6)
  /-- DPOLL, R232. -/
  | dpoll (m : Bool) (d : BitVec 6) (a : BitVec 6)
  /-- PUBLISH, R236. -/
  | publish (m : Bool) (a : BitVec 6)
  /-- PPIN, R236. -/
  | ppin (m : Bool) (a : BitVec 6) (b : BitVec 6)
  /-- PUNPIN, R236. -/
  | punpin (m : Bool) (a : BitVec 6) (b : BitVec 6)
  /-- MCFG, R245. -/
  | mcfg (m : Bool) (a : BitVec 6)
  /-- MALLOC, R248. -/
  | malloc (m : Bool) (d : BitVec 6) (a : BitVec 6)
  /-- MFREE, R249. -/
  | mfree (m : Bool) (a : BitVec 6) (b : BitVec 6)
  /-- MLDW, R251. -/
  | mldw (m : Bool) (a : BitVec 6)
  /-- MLDWT, R251. -/
  | mldwt (m : Bool) (a : BitVec 6)
  /-- MSWAP, R252. -/
  | mswap (m : Bool)
  /-- MSTREAM, R253. -/
  | mstream (m : Bool) (a : BitVec 6) (b : BitVec 6)
  /-- MSTRA, R253. -/
  | mstra (m : Bool) (a : BitVec 6) (b : BitVec 6)
  /-- MGATHER, R253. -/
  | mgather (m : Bool) (d : BitVec 6) (a : BitVec 6) (b : BitVec 6)
  /-- MRDA, R256. -/
  | mrda (m : Bool) (d : BitVec 6) (a : BitVec 6)
  /-- MWRA, R256. -/
  | mwra (m : Bool) (d : BitVec 6) (a : BitVec 6)
  /-- MZERO, R250. -/
  | mzero (m : Bool) (a : BitVec 6) (b : BitVec 6)
  /-- GANG, R260. -/
  | gang (m : Bool) (a : BitVec 6)
  /-- MTOK, R266. -/
  | mtok (m : Bool) (a : BitVec 6)
  /-- MWAIT, R258. -/
  | mwait (m : Bool)
  /-- VIEW, R277. -/
  | view (m : Bool) (d : BitVec 6) (a : BitVec 6)
  /-- VIEWL, R287. -/
  | viewl (m : Bool) (d : BitVec 6) (a : BitVec 6) (b : BitVec 6)
  /-- VWAIT, R288. -/
  | vwait (m : Bool) (d : BitVec 6) (a : BitVec 6)
  /-- VPOLL, R289. -/
  | vpoll (m : Bool) (d : BitVec 6) (a : BitVec 6)
  /-- VOUT, R290. -/
  | vout (m : Bool) (a : BitVec 6) (w : BitVec 1)
  /-- VHIT, R290. -/
  | vhit (m : Bool) (d : BitVec 6) (s : BitVec 4)
  /-- VLVL, R291. -/
  | vlvl (m : Bool) (d : BitVec 6) (l : BitVec 6)
  /-- PHASE, R311. -/
  | phase (m : Bool) (s : BitVec 3)
  /-- PUBL, R311. -/
  | publ (m : Bool) (s : BitVec 3)
  /-- REFR, R311. -/
  | refr (m : Bool) (s : BitVec 3)
  /-- IFENCE, R312. -/
  | ifence (m : Bool)
  /-- HFLUSH, R313. -/
  | hflush (m : Bool)
  /-- HINV, R313. -/
  | hinv (m : Bool)
  /-- EVWAIT, R314. -/
  | evwait (m : Bool) (a : BitVec 6)
  /-- BAR, R317. -/
  | bar (m : Bool) (s : BitVec 3)
  /-- BARA, R317. -/
  | bara (m : Bool) (s : BitVec 3)
  /-- BARW, R317. -/
  | barw (m : Bool) (s : BitVec 3)
  /-- TSPAWN, R320. -/
  | tspawn (m : Bool) (a : BitVec 6)
  /-- TDONE, R320. -/
  | tdone (m : Bool)
  /-- TSPEC, R320. -/
  | tspec (m : Bool) (a : BitVec 6)
  /-- TCOMMIT, R320. -/
  | tcommit (m : Bool) (a : BitVec 6)
  /-- TDISCARD, R320. -/
  | tdiscard (m : Bool) (a : BitVec 6)
  /-- SYSC, R345. -/
  | sysc (m : Bool) (a : BitVec 6)
  /-- HVC, R345. -/
  | hvc (m : Bool) (a : BitVec 6)
  /-- TRET, R340. -/
  | tret (m : Bool)
  /-- BKPT, R346. -/
  | bkpt (m : Bool) (n : BitVec 6)
  /-- PHINT, R351. -/
  | phint (m : Bool) (a : BitVec 6) (b : BitVec 6)
  /-- SLEEP, R347. -/
  | sleep (m : Bool) (a : BitVec 6)
  /-- TLBI, R348. -/
  | tlbi (m : Bool) (a : BitVec 6) (b : BitVec 6)
  /-- SRR, R349. -/
  | srr (m : Bool) (d : BitVec 6) (i : BitVec 6)
  /-- SRW, R349. -/
  | srw (m : Bool) (i : BitVec 6) (b : BitVec 6)
  /-- SRRL, R349. -/
  | srrl (m : Bool) (d : BitVec 6) (i : BitVec 6)
  /-- SRWL, R349. -/
  | srwl (m : Bool) (i : BitVec 6) (b : BitVec 6)
  /-- FETCH_FAULT, R28. -/
  | fetchFault
  /-- ILLEGAL_ENCODING, R105. -/
  | illegalEncoding (word : BitVec 32)
  /-- RUN_LIMIT, R112. -/
  | runLimit
  /-- PARK_END, R117. -/
  | parkEnd
  /-- COACH_SELECT, R74. -/
  | coachSelect (core port : Nat)
  /-- TRAP_ENTRY, R337. -/
  | trapEntry (coach : Nat)
  /-- WRITE_BUFFER_ADVANCE, R298. -/
  | writeBufferAdvance (coach entry : Nat)
  /-- SNAPSHOT_FILL, R297. -/
  | snapshotFill (coach addr : Nat)
  /-- COACH_RETIRE, R124. -/
  | coachRetire (coach : Nat)
  /-- HAUL_RETIRE, R372. -/
  | haulRetire (haul : Nat)
  /-- BARRIER_GENERATION_COMPLETE, R317. -/
  | barrierGenerationComplete (coach : Nat) (scope : BitVec 3)
  /-- MALLOC_GRANT, R248. -/
  | mallocGrant (core : Nat)
  /-- BANK_RELEASE, R249. -/
  | bankRelease (core bank : Nat)
  /-- GANG_RENDEZVOUS, R261. -/
  | gangRendezvous (core : Nat)
  /-- TOKEN_GRANT, R265. -/
  | tokenGrant (core : Nat)
  /-- ARRAY_OPERATION_COMPLETE, R258. -/
  | arrayOperationComplete (core : Nat)
  /-- DRAY_ENQUEUE, R227. -/
  | drayEnqueue (quad chan : Nat)
  /-- DRAY_COMMAND_START, R227. -/
  | drayCommandStart (quad chan : Nat)
  /-- DRAY_COMPLETE, R231. -/
  | drayComplete (quad chan : Nat)
  /-- DWAIT_RELEASE, R232. -/
  | dwaitRelease (coach : Nat)
  /-- EVWAIT_RELEASE, R314. -/
  | evwaitRelease (coach : Nat)
  /-- SLEEP_WAKE, R347. -/
  | sleepWake (coach : Nat)
  /-- EVENT_RECORD_POST, R83. -/
  | eventRecordPost (quad : Nat)
  /-- EVENT_QUEUE_READ, R82. -/
  | eventQueueRead (quad : Nat)
  /-- VIEW_REQUEST_START, R279. -/
  | viewRequestStart (quad lift : Nat)
  /-- VIEW_TRAVERSAL_END, R282. -/
  | viewTraversalEnd (request : Nat)
  /-- SHADING_LAUNCH, R283. -/
  | shadingLaunch (request shadingSlot coachSlot : Nat)
  /-- TICKET_COMMIT, R288. -/
  | ticketCommit (coach : Nat)
  /-- PAGE_REQUEST_POST, R219. -/
  | pageRequestPost (vf asid : Nat)
  /-- PAGE_REQUEST_COMPLETION, R219. -/
  | pageRequestCompletion (vf asid : Nat)
  /-- RAKE_PLACE, R69. -/
  | rakePlace (haul rake quad rot : Nat) (slots : List Nat)
  /-- TIME_SLICE, R76. -/
  | timeSlice (quad : Nat)
  /-- SWAP_IN_PROMOTE, R77. -/
  | swapInPromote (haul rake : Nat)
  /-- QUAD_HAUL_CHANGE, R72. -/
  | quadHaulChange (quad : Nat)
  /-- TASK_DISPATCH, R79. -/
  | taskDispatch (vf : Nat)
  /-- QUAD_IDLE, R85. -/
  | quadIdle (quad : Nat)
  /-- QUAD_GATE, R86. -/
  | quadGate (quad : Nat)
  /-- QUAD_WAKE, R378. -/
  | quadWake (quad : Nat)
  /-- WATCHDOG_EXPIRY, R87. -/
  | watchdogExpiry (haul : Nat)
  /-- PREEMPTION_REQUEST, R350. -/
  | preemptionRequest (haul rake : Nat)
  /-- PREEMPTION_DEADLINE, R350. -/
  | preemptionDeadline (haul rake : Nat)
  /-- RAKE_SAVE, R352. -/
  | rakeSave (haul rake : Nat)
  /-- VF_SLICE_SWITCH, R358. -/
  | vfSliceSwitch (quad : Nat)
  /-- CLOCK_CHANGE, R376. -/
  | clockChange (quad mhz : Nat)
  /-- CLOCK_STABLE, R342. -/
  | clockStable (quad : Nat)
  /-- RIC_WRITE, R377. -/
  | ricWrite (core cadence : Nat)
  /-- POWER_LIMIT_CROSSED, R376. -/
  | powerLimitCrossed (mhz : Nat)
  /-- BAND_GATE, R378. -/
  | bandGate (core band : Nat)
  /-- BAND_WAKE, R378. -/
  | bandWake (core band : Nat)
  /-- FLIT_RETRY, R380. -/
  | flitRetry (die unit index : Nat)
  /-- LINK_RETRAIN, R380. -/
  | linkRetrain (die unit index : Nat) (ok : Bool)
  /-- UNCORRECTABLE_ERROR, R381. -/
  | uncorrectableError (die unit index addr : Nat)
  /-- SCRUB, R381. -/
  | scrub (die unit index addr : Nat) (correctable : Bool)
  /-- FUNCTION_LEVEL_RESET, R360. -/
  | functionLevelReset (vf : Nat)
  /-- TDISP_LOCK_INTERFACE, R362. -/
  | tdispLockInterface (vf : Nat) (sessionKey : BitVec 64)
  /-- INTERFACE_ERROR, R363. -/
  | interfaceError (vf : Nat)
  /-- STUB_APPEND, R355. -/
  | stubAppend (vf addr : Nat) (op : PeerAccess)
  /-- INGRESS_ACCESS, R357. -/
  | ingressAccess (port addr : Nat) (op : Ingress)
  /-- KICK, R57. -/
  | kick (vf : Nat) (word : BitVec 32) (pasid : Option (BitVec 20))
  /-- KICK_REWALK, R57. -/
  | kickRewalk (vf entry : Nat)
  /-- PENDING_KICK_TAKE, R58. -/
  | pendingKickTake (die word : Nat)
  /-- PACKET_FETCH, R50. -/
  | packetFetch (queue : Nat)
  /-- NOP_PACKET, R52. -/
  | nopPacket (queue index : Nat)
  /-- LAUNCH_PACKET, R52. -/
  | launchPacket (queue index : Nat)
  /-- SIGNAL_PACKET, R52. -/
  | signalPacket (queue index : Nat)
  /-- WAIT_PACKET, R52. -/
  | waitPacket (queue index : Nat)
  /-- WAIT_POLL, R52. -/
  | waitPoll (queue index : Nat)
  /-- WAIT_TIMEOUT, R52. -/
  | waitTimeout (queue index : Nat)
  /-- FENCE_PACKET, R52. -/
  | fencePacket (queue index : Nat)
  /-- MARKER_PACKET, R52. -/
  | markerPacket (queue index : Nat)
  /-- DCOPY_PACKET, R52. -/
  | dcopyPacket (queue index : Nat)
  /-- LEASE_RENEW, R62. -/
  | leaseRenew
  /-- LEASE_TAKEOVER, R62. -/
  | leaseTakeover (die : Nat)
  /-- LEASE_FALLBACK, R63. -/
  | leaseFallback (die : Nat)
  /-- FIRMWARE_LOAD, R63. -/
  | firmwareLoad (level : BitVec 32) (verified : Bool)
  /-- DESTROYQ, R66. -/
  | destroyq (block slot : Nat)
  /-- ABORT, R89. -/
  | abort (block slot : Nat)
  /-- SAVE, R352. -/
  | save (block slot : Nat)
  /-- MIGOUT, R354. -/
  | migout (block slot : Nat)
  /-- MIGIN, R354. -/
  | migin (block slot : Nat)
  /-- STUBRET, R355. -/
  | stubret (block slot : Nat)
  /-- PGMIG, R221. -/
  | pgmig (block slot : Nat)
  /-- PAGE_MIGRATION_ROUND, R221. -/
  | pageMigrationRound (migration : Nat)
  /-- PAGE_MIGRATION_FREEZE, R221. -/
  | pageMigrationFreeze (migration : Nat)
  /-- PSTABLE, R234. -/
  | pstable (block slot : Nat)
  /-- PSREG, R234. -/
  | psreg (block slot : Nat)
  /-- PRRING, R219. -/
  | prring (block slot : Nat)
  /-- ERRCNT, R383. -/
  | errcnt (block slot : Nat)
  /-- COMPAT, R354. -/
  | compat (block slot : Nat)
  /-- MAILBOX_COMPLETION, R47. -/
  | mailboxCompletion (block slot : Nat)
  /-- MAILBOX_DOORBELL, R47. -/
  | mailboxDoorbell (block : Nat) (value : BitVec 32)
  /-- GATING_COMPLETE, R86. -/
  | gatingComplete (quad : Nat)
  /-- WAKE_CHAIN_END, R378. -/
  | wakeChainEnd
  /-- DCOPY_PACKET_COMPLETE, R52. -/
  | dcopyPacketComplete (queue index : Nat)
  /-- DEVICE_RESET, R356. -/
  | deviceReset
  deriving DecidableEq, Repr

end Sys2Proof
end

