-- ==== Sys2Proof/WellFormed.lean ====
section
/-! DEFINITION. Which instructions have an encoding of their own: the reserved sub-field values of R104, R103, R131,
R225 and R286 are refused. Checks that depend on the state (element types R98, special register indices R108) are
made when the instruction issues, not here. -/

namespace Sys2Proof

/-- The sub-field limits of R103, R104, R131, R225 and R286. A step without a word has no encoding to check. -/
def Instr.wf : Instr → Bool
  | .zeroWordTrap _ _ => true
  | .nop _ => true
  | .exit _ => true
  | .ret _ => true
  | .yield _ => true
  | .modeg _ _ => true
  | .moder _ _ => true
  | .exms _ _ => true
  | .exmg _ _ => true
  | .exma _ _ => true
  | .psw _ a => decide (a ≠ 63#6)
  | .pswi _ _ => true
  | .plq _ _ _ => true
  | .ji _ _ => true
  | .calli _ _ _ => true
  | .laneid _ _ => true
  | .ids _ _ s => decide (s ≤ 7#6)
  | .br _ _ _ => true
  | .brn _ _ _ => true
  | .jmp _ _ => true
  | .call _ _ _ => true
  | .brz _ _ _ => true
  | .brnz _ _ _ => true
  | .mode _ _ _ _ _ _ _ _ => true
  | .add _ _ _ _ => true
  | .sub _ _ _ _ => true
  | .mul _ _ _ _ => true
  | .mulh _ _ _ _ => true
  | .min _ _ _ _ => true
  | .max _ _ _ _ => true
  | .abs _ _ _ => true
  | .neg _ _ _ => true
  | .div _ _ _ _ => true
  | .rem _ _ _ _ => true
  | .and _ _ _ _ => true
  | .or _ _ _ _ => true
  | .xor _ _ _ _ => true
  | .andn _ _ _ _ => true
  | .not _ _ _ => true
  | .shl _ _ _ _ => true
  | .shr _ _ _ _ => true
  | .sar _ _ _ _ => true
  | .rotl _ _ _ _ => true
  | .clz _ _ _ => true
  | .popc _ _ _ => true
  | .brev _ _ _ => true
  | .bfx _ _ _ _ => true
  | .bfi _ _ _ _ => true
  | .mov _ _ _ => true
  | .addi _ _ _ _ => true
  | .andi _ _ _ _ => true
  | .ori _ _ _ _ => true
  | .xori _ _ _ _ => true
  | .shi _ _ _ _ _ => true
  | .movi _ _ _ => true
  | .movhi _ _ _ => true
  | .mad _ _ _ _ _ => true
  | .madn _ _ _ _ _ => true
  | .frcp _ _ _ => true
  | .frsq _ _ _ => true
  | .fsqrt _ _ _ => true
  | .fex2 _ _ _ => true
  | .flg2 _ _ _ => true
  | .fsint _ _ _ => true
  | .fcost _ _ _ => true
  | .fclass _ _ _ => true
  | .round _ _ _ => true
  | .fldexp _ _ _ _ => true
  | .packe _ _ _ => true
  | .unpke _ _ _ => true
  | .fflgr _ _ => true
  | .fflgc _ _ => true
  | .cvt _ _ _ _ _ t => decide (t ≤ 8#4)
  | .shfli _ _ _ _ => true
  | .shflu _ _ _ _ => true
  | .shfld _ _ _ _ => true
  | .shflx _ _ _ _ => true
  | .bcast _ _ _ => true
  | .rdln _ _ _ _ => true
  | .first _ _ _ => true
  | .pand _ _ _ _ => true
  | .por _ _ _ _ => true
  | .pxor _ _ _ _ => true
  | .pandn _ _ _ _ => true
  | .pnot _ _ _ => true
  | .pmov _ _ _ => true
  | .pseta _ _ => true
  | .pclr _ _ => true
  | .ballot _ _ _ => true
  | .popck _ _ _ => true
  | .vany _ _ _ => true
  | .vall _ _ _ => true
  | .kfromg _ _ _ => true
  | .gkand _ _ _ _ => true
  | .gkor _ _ _ _ => true
  | .gknot _ _ _ => true
  | .cmp _ _ _ _ _ => true
  | .cmpi _ _ _ _ _ => true
  | .sel _ _ _ _ _ => true
  | .gadd _ _ _ _ => true
  | .gsub _ _ _ _ => true
  | .gmul _ _ _ _ => true
  | .gmulhu _ _ _ _ => true
  | .gand _ _ _ _ => true
  | .gor _ _ _ _ => true
  | .gxor _ _ _ _ => true
  | .gandn _ _ _ _ => true
  | .gshl _ _ _ _ => true
  | .gshr _ _ _ _ => true
  | .gsar _ _ _ _ => true
  | .gmin _ _ _ _ => true
  | .gmax _ _ _ _ => true
  | .gminu _ _ _ _ => true
  | .gmaxu _ _ _ _ => true
  | .gpopc _ _ _ => true
  | .gclz _ _ _ => true
  | .gmov _ _ _ => true
  | .gdivu _ _ _ _ => true
  | .gremu _ _ _ _ => true
  | .gaddi _ _ _ _ => true
  | .gmovi _ _ _ => true
  | .gmovhi _ _ _ => true
  | .gori _ _ _ _ => true
  | .gshi _ _ _ _ _ => true
  | .gcmp _ _ _ _ c => decide (c ≤ 9#4)
  | .dbnz _ g _ => decide (g ≠ 0#6)
  | .ld _ _ _ _ h _ x z _ => decide (h ≠ 3#2 ∧ (x = 1#1 → z < 2#2))
  | .st _ _ _ _ h _ _ _ => decide (h ≠ 3#2)
  | .gld _ _ _ _ => true
  | .gst _ _ _ _ => true
  | .sld _ _ _ _ z x => decide ((x = 1#1 → z < 2#2))
  | .sst _ _ _ _ _ => true
  | .qld _ _ _ _ z x => decide ((x = 1#1 → z < 2#2))
  | .qst _ _ _ _ _ => true
  | .atom _ _ _ _ p o => decide (p ≠ 3#2 ∧ o ≤ 10#4)
  | .atomn _ _ _ _ p o => decide (p ≠ 3#2 ∧ o ≤ 10#4)
  | .afadd _ _ _ _ => true
  | .afxrd _ _ _ _ => true
  | .afxclr _ _ _ _ => true
  | .afxflg _ _ _ _ => true
  | .pgreq _ _ _ _ => true
  | .resq _ _ _ _ => true
  | .pfetch _ _ _ => true
  | .dcopy _ a => decide (1#6 ≤ a ∧ a ≤ 58#6)
  | .dcopyt _ a => decide (1#6 ≤ a ∧ a ≤ 58#6)
  | .dcvt _ a => decide (1#6 ≤ a ∧ a ≤ 58#6)
  | .dgath _ a => decide (1#6 ≤ a ∧ a ≤ 58#6)
  | .dscat _ a => decide (1#6 ≤ a ∧ a ≤ 58#6)
  | .dfill _ a => decide (1#6 ≤ a ∧ a ≤ 58#6)
  | .dwait _ _ _ => true
  | .dpoll _ _ _ => true
  | .publish _ _ => true
  | .ppin _ _ _ => true
  | .punpin _ _ _ => true
  | .mcfg _ _ => true
  | .malloc _ _ _ => true
  | .mfree _ _ _ => true
  | .mldw _ _ => true
  | .mldwt _ _ => true
  | .mswap _ => true
  | .mstream _ _ _ => true
  | .mstra _ _ _ => true
  | .mgather _ _ _ _ => true
  | .mrda _ _ _ => true
  | .mwra _ _ _ => true
  | .mzero _ _ _ => true
  | .gang _ _ => true
  | .mtok _ _ => true
  | .mwait _ => true
  | .view _ _ a => decide (a ≠ 0#6 ∧ a ≠ 63#6)
  | .viewl _ _ a _ => decide (a ≠ 0#6 ∧ a ≠ 63#6)
  | .vwait _ _ _ => true
  | .vpoll _ _ _ => true
  | .vout _ _ _ => true
  | .vhit _ _ _ => true
  | .vlvl _ _ l => decide (l ≤ 4#6)
  | .phase _ s => decide (s ≤ 5#3)
  | .publ _ s => decide (s ≤ 5#3)
  | .refr _ s => decide (s ≤ 5#3)
  | .ifence _ => true
  | .hflush _ => true
  | .hinv _ => true
  | .evwait _ _ => true
  | .bar _ s => decide (s ≠ 0#3 ∧ s ≤ 5#3)
  | .bara _ s => decide (s ≠ 0#3 ∧ s ≤ 5#3)
  | .barw _ s => decide (s ≠ 0#3 ∧ s ≤ 5#3)
  | .tspawn _ _ => true
  | .tdone _ => true
  | .tspec _ _ => true
  | .tcommit _ _ => true
  | .tdiscard _ _ => true
  | .sysc _ _ => true
  | .hvc _ _ => true
  | .tret _ => true
  | .bkpt _ _ => true
  | .phint _ _ _ => true
  | .sleep _ _ => true
  | .tlbi _ _ _ => true
  | .srr _ _ _ => true
  | .srw _ _ _ => true
  | .srrl _ _ _ => true
  | .srwl _ _ _ => true
  | .fetchFault => true
  | .illegalEncoding _ => true
  | .runLimit => true
  | .parkEnd => true
  | .coachSelect _ _ => true
  | .trapEntry _ => true
  | .writeBufferAdvance _ _ => true
  | .snapshotFill _ _ => true
  | .coachRetire _ => true
  | .haulRetire _ => true
  | .barrierGenerationComplete _ _ => true
  | .mallocGrant _ => true
  | .bankRelease _ _ => true
  | .gangRendezvous _ => true
  | .tokenGrant _ => true
  | .arrayOperationComplete _ => true
  | .drayEnqueue _ _ => true
  | .drayCommandStart _ _ => true
  | .drayComplete _ _ => true
  | .dwaitRelease _ => true
  | .evwaitRelease _ => true
  | .sleepWake _ => true
  | .eventRecordPost _ => true
  | .eventQueueRead _ => true
  | .viewRequestStart _ _ => true
  | .viewTraversalEnd _ => true
  | .shadingLaunch _ _ _ => true
  | .ticketCommit _ => true
  | .pageRequestPost _ _ => true
  | .pageRequestCompletion _ _ => true
  | .rakePlace _ _ _ _ _ => true
  | .timeSlice _ => true
  | .swapInPromote _ _ => true
  | .quadHaulChange _ => true
  | .taskDispatch _ => true
  | .quadIdle _ => true
  | .quadGate _ => true
  | .quadWake _ => true
  | .watchdogExpiry _ => true
  | .preemptionRequest _ _ => true
  | .preemptionDeadline _ _ => true
  | .rakeSave _ _ => true
  | .vfSliceSwitch _ => true
  | .clockChange _ _ => true
  | .clockStable _ => true
  | .ricWrite _ _ => true
  | .powerLimitCrossed _ => true
  | .bandGate _ _ => true
  | .bandWake _ _ => true
  | .flitRetry _ _ _ => true
  | .linkRetrain _ _ _ _ => true
  | .uncorrectableError _ _ _ _ => true
  | .scrub _ _ _ _ _ => true
  | .functionLevelReset _ => true
  | .tdispLockInterface _ _ => true
  | .interfaceError _ => true
  | .stubAppend _ _ _ => true
  | .ingressAccess _ _ _ => true
  | .kick _ _ _ => true
  | .kickRewalk _ _ => true
  | .pendingKickTake _ _ => true
  | .packetFetch _ => true
  | .nopPacket _ _ => true
  | .launchPacket _ _ => true
  | .signalPacket _ _ => true
  | .waitPacket _ _ => true
  | .waitPoll _ _ => true
  | .waitTimeout _ _ => true
  | .fencePacket _ _ => true
  | .markerPacket _ _ => true
  | .dcopyPacket _ _ => true
  | .leaseRenew => true
  | .leaseTakeover _ => true
  | .leaseFallback _ => true
  | .firmwareLoad _ _ => true
  | .destroyq _ _ => true
  | .abort _ _ => true
  | .save _ _ => true
  | .migout _ _ => true
  | .migin _ _ => true
  | .stubret _ _ => true
  | .pgmig _ _ => true
  | .pageMigrationRound _ => true
  | .pageMigrationFreeze _ => true
  | .pstable _ _ => true
  | .psreg _ _ => true
  | .prring _ _ => true
  | .errcnt _ _ => true
  | .compat _ _ => true
  | .mailboxCompletion _ _ => true
  | .mailboxDoorbell _ _ => true
  | .gatingComplete _ => true
  | .wakeChainEnd => true
  | .dcopyPacketComplete _ _ => true
  | .deviceReset => true

end Sys2Proof
end

