-- ==== Sys2Proof/Decode.lean ====
section
/-! DEFINITION. The decoder, total on every word, and the encoder (R90 to R106). A word that does not decode is
rejected by the name of the ILL subcode that R105 gives it; the checks are made in R105's order. -/

namespace Sys2Proof

/-- The ILL subcodes of R105. -/
inductive IllSub where
  | zero | major | minor | field | type | sreg
  deriving DecidableEq, Repr

/-- The subcode number LTCAUSE records (R105, R110). -/
def IllSub.code : IllSub → BitVec 4
  | .zero => 0 | .major => 1 | .minor => 2 | .field => 3 | .type => 4 | .sreg => 5

/-- Bits [30:25], the major opcode (R90). -/
def major (w : Word) : BitVec 6 := w.extractLsb' 25 6
/-- Bits [6:0], the minor code of format A (R91). -/
def minor (w : Word) : BitVec 7 := w.extractLsb' 0 7
/-- Bit 31, the marker M (R90). -/
def marked (w : Word) : Bool := w.extractLsb' 31 1 == 1#1
/-- The marker as a bit of the word (R90). -/
def mark (m : Bool) : BitVec 1 := bif m then 1#1 else 0#1

/-- Accept i when the fixed bits of its row are as the row says and its sub-fields are not reserved (R92, R104). -/
def need (w mask pat : Word) (i : Instr) : Except IllSub Instr :=
  if w &&& mask = pat then (if i.wf then .ok i else .error .field) else .error .field

/-- Major 0x00 (R102, R103). -/
def decodeCtl (w : Word) : Except IllSub Instr :=
  match (minor w).toNat with
  | 0x00 => need w 0x7E00007F#32 0x00000000#32 (.zeroWordTrap (marked w) (w.extractLsb' 7 18))
  | 0x01 => need w 0x7FFFFFFF#32 0x00000001#32 (.nop (marked w))
  | 0x02 => need w 0x7FFFFFFF#32 0x00000002#32 (.exit (marked w))
  | 0x03 => need w 0x7FFFFFFF#32 0x00000003#32 (.ret (marked w))
  | 0x04 => need w 0x7FFFFFFF#32 0x00000004#32 (.yield (marked w))
  | 0x05 => need w 0x7FF81FFF#32 0x00000005#32 (.modeg (marked w) (w.extractLsb' 13 6))
  | 0x06 => need w 0x7E07FFFF#32 0x00000006#32 (.moder (marked w) (w.extractLsb' 19 6))
  | 0x07 => need w 0x7FF81FFF#32 0x00000007#32 (.exms (marked w) (w.extractLsb' 13 6))
  | 0x08 => need w 0x7E07FFFF#32 0x00000008#32 (.exmg (marked w) (w.extractLsb' 19 6))
  | 0x09 => need w 0x7FF81FFF#32 0x00000009#32 (.exma (marked w) (w.extractLsb' 13 6))
  | 0x0A => if w.extractLsb' 13 6 = 63#6 then need w 0x7FFFFE7F#32 0x0007E00A#32 (.pswi (marked w) (w.extractLsb' 7 2))
    else need w 0x7FF81FFF#32 0x0000000A#32 (.psw (marked w) (w.extractLsb' 13 6))
  | 0x0B => need w 0x7E07FE7F#32 0x0000000B#32 (.plq (marked w) (w.extractLsb' 19 6) (w.extractLsb' 7 2))
  | 0x0C => need w 0x7FF81FFF#32 0x0000000C#32 (.ji (marked w) (w.extractLsb' 13 6))
  | 0x0D => need w 0x7FC01FFF#32 0x0000000D#32 (.calli (marked w) (w.extractLsb' 19 3) (w.extractLsb' 13 6))
  | 0x0E => need w 0x7E07FFFF#32 0x0000000E#32 (.laneid (marked w) (w.extractLsb' 19 6))
  | 0x0F => need w 0x7E001FFF#32 0x0000000F#32 (.ids (marked w) (w.extractLsb' 19 6) (w.extractLsb' 13 6))
  | _ => .error .minor

/-- Major 0x08 (R102, R103). -/
def decodeLalu (w : Word) : Except IllSub Instr :=
  match (minor w).toNat with
  | 0x00 => need w 0x7E00007F#32 0x10000000#32 (.add (marked w) (w.extractLsb' 19 6) (w.extractLsb' 13 6) (w.extractLsb' 7 6))
  | 0x01 => need w 0x7E00007F#32 0x10000001#32 (.sub (marked w) (w.extractLsb' 19 6) (w.extractLsb' 13 6) (w.extractLsb' 7 6))
  | 0x02 => need w 0x7E00007F#32 0x10000002#32 (.mul (marked w) (w.extractLsb' 19 6) (w.extractLsb' 13 6) (w.extractLsb' 7 6))
  | 0x03 => need w 0x7E00007F#32 0x10000003#32 (.mulh (marked w) (w.extractLsb' 19 6) (w.extractLsb' 13 6) (w.extractLsb' 7 6))
  | 0x04 => need w 0x7E00007F#32 0x10000004#32 (.min (marked w) (w.extractLsb' 19 6) (w.extractLsb' 13 6) (w.extractLsb' 7 6))
  | 0x05 => need w 0x7E00007F#32 0x10000005#32 (.max (marked w) (w.extractLsb' 19 6) (w.extractLsb' 13 6) (w.extractLsb' 7 6))
  | 0x06 => need w 0x7E001FFF#32 0x10000006#32 (.abs (marked w) (w.extractLsb' 19 6) (w.extractLsb' 13 6))
  | 0x07 => need w 0x7E001FFF#32 0x10000007#32 (.neg (marked w) (w.extractLsb' 19 6) (w.extractLsb' 13 6))
  | 0x08 => need w 0x7E00007F#32 0x10000008#32 (.div (marked w) (w.extractLsb' 19 6) (w.extractLsb' 13 6) (w.extractLsb' 7 6))
  | 0x09 => need w 0x7E00007F#32 0x10000009#32 (.rem (marked w) (w.extractLsb' 19 6) (w.extractLsb' 13 6) (w.extractLsb' 7 6))
  | 0x10 => need w 0x7E00007F#32 0x10000010#32 (.and (marked w) (w.extractLsb' 19 6) (w.extractLsb' 13 6) (w.extractLsb' 7 6))
  | 0x11 => need w 0x7E00007F#32 0x10000011#32 (.or (marked w) (w.extractLsb' 19 6) (w.extractLsb' 13 6) (w.extractLsb' 7 6))
  | 0x12 => need w 0x7E00007F#32 0x10000012#32 (.xor (marked w) (w.extractLsb' 19 6) (w.extractLsb' 13 6) (w.extractLsb' 7 6))
  | 0x13 => need w 0x7E00007F#32 0x10000013#32 (.andn (marked w) (w.extractLsb' 19 6) (w.extractLsb' 13 6) (w.extractLsb' 7 6))
  | 0x14 => need w 0x7E001FFF#32 0x10000014#32 (.not (marked w) (w.extractLsb' 19 6) (w.extractLsb' 13 6))
  | 0x15 => need w 0x7E00007F#32 0x10000015#32 (.shl (marked w) (w.extractLsb' 19 6) (w.extractLsb' 13 6) (w.extractLsb' 7 6))
  | 0x16 => need w 0x7E00007F#32 0x10000016#32 (.shr (marked w) (w.extractLsb' 19 6) (w.extractLsb' 13 6) (w.extractLsb' 7 6))
  | 0x17 => need w 0x7E00007F#32 0x10000017#32 (.sar (marked w) (w.extractLsb' 19 6) (w.extractLsb' 13 6) (w.extractLsb' 7 6))
  | 0x18 => need w 0x7E00007F#32 0x10000018#32 (.rotl (marked w) (w.extractLsb' 19 6) (w.extractLsb' 13 6) (w.extractLsb' 7 6))
  | 0x19 => need w 0x7E001FFF#32 0x10000019#32 (.clz (marked w) (w.extractLsb' 19 6) (w.extractLsb' 13 6))
  | 0x1A => need w 0x7E001FFF#32 0x1000001A#32 (.popc (marked w) (w.extractLsb' 19 6) (w.extractLsb' 13 6))
  | 0x1B => need w 0x7E001FFF#32 0x1000001B#32 (.brev (marked w) (w.extractLsb' 19 6) (w.extractLsb' 13 6))
  | 0x1C => need w 0x7E00007F#32 0x1000001C#32 (.bfx (marked w) (w.extractLsb' 19 6) (w.extractLsb' 13 6) (w.extractLsb' 7 6))
  | 0x1D => need w 0x7E00007F#32 0x1000001D#32 (.bfi (marked w) (w.extractLsb' 19 6) (w.extractLsb' 13 6) (w.extractLsb' 7 6))
  | 0x1E => need w 0x7E001FFF#32 0x1000001E#32 (.mov (marked w) (w.extractLsb' 19 6) (w.extractLsb' 13 6))
  | _ => .error .minor

/-- Major 0x10 (R102, R103). -/
def decodeMad (w : Word) : Except IllSub Instr :=
  if w.extractLsb' 0 1 = 0#1 then need w 0x7E000001#32 0x20000000#32 (.mad (marked w) (w.extractLsb' 19 6) (w.extractLsb' 13 6) (w.extractLsb' 7 6) (w.extractLsb' 1 6))
  else need w 0x7E000001#32 0x20000001#32 (.madn (marked w) (w.extractLsb' 19 6) (w.extractLsb' 13 6) (w.extractLsb' 7 6) (w.extractLsb' 1 6))

/-- Major 0x11 (R102, R103). -/
def decodeFsfu (w : Word) : Except IllSub Instr :=
  match (minor w).toNat with
  | 0x00 => need w 0x7E001FFF#32 0x22000000#32 (.frcp (marked w) (w.extractLsb' 19 6) (w.extractLsb' 13 6))
  | 0x01 => need w 0x7E001FFF#32 0x22000001#32 (.frsq (marked w) (w.extractLsb' 19 6) (w.extractLsb' 13 6))
  | 0x02 => need w 0x7E001FFF#32 0x22000002#32 (.fsqrt (marked w) (w.extractLsb' 19 6) (w.extractLsb' 13 6))
  | 0x03 => need w 0x7E001FFF#32 0x22000003#32 (.fex2 (marked w) (w.extractLsb' 19 6) (w.extractLsb' 13 6))
  | 0x04 => need w 0x7E001FFF#32 0x22000004#32 (.flg2 (marked w) (w.extractLsb' 19 6) (w.extractLsb' 13 6))
  | 0x05 => need w 0x7E001FFF#32 0x22000005#32 (.fsint (marked w) (w.extractLsb' 19 6) (w.extractLsb' 13 6))
  | 0x06 => need w 0x7E001FFF#32 0x22000006#32 (.fcost (marked w) (w.extractLsb' 19 6) (w.extractLsb' 13 6))
  | 0x07 => need w 0x7E001FFF#32 0x22000007#32 (.fclass (marked w) (w.extractLsb' 19 6) (w.extractLsb' 13 6))
  | 0x08 => need w 0x7E001FFF#32 0x22000008#32 (.round (marked w) (w.extractLsb' 19 6) (w.extractLsb' 13 6))
  | 0x09 => need w 0x7E00007F#32 0x22000009#32 (.fldexp (marked w) (w.extractLsb' 19 6) (w.extractLsb' 13 6) (w.extractLsb' 7 6))
  | 0x0A => need w 0x7E001FFF#32 0x2200000A#32 (.packe (marked w) (w.extractLsb' 19 6) (w.extractLsb' 13 6))
  | 0x0B => need w 0x7E001FFF#32 0x2200000B#32 (.unpke (marked w) (w.extractLsb' 19 6) (w.extractLsb' 13 6))
  | 0x0C => need w 0x7E07FFFF#32 0x2200000C#32 (.fflgr (marked w) (w.extractLsb' 19 6))
  | 0x0D => need w 0x7FFFF07F#32 0x2200000D#32 (.fflgc (marked w) (w.extractLsb' 7 5))
  | _ => .error .minor

/-- Major 0x13 (R102, R103). -/
def decodeLxf (w : Word) : Except IllSub Instr :=
  match (minor w).toNat with
  | 0x00 => need w 0x7E00007F#32 0x26000000#32 (.shfli (marked w) (w.extractLsb' 19 6) (w.extractLsb' 13 6) (w.extractLsb' 7 6))
  | 0x01 => need w 0x7E00107F#32 0x26000001#32 (.shflu (marked w) (w.extractLsb' 19 6) (w.extractLsb' 13 6) (w.extractLsb' 7 5))
  | 0x02 => need w 0x7E00107F#32 0x26000002#32 (.shfld (marked w) (w.extractLsb' 19 6) (w.extractLsb' 13 6) (w.extractLsb' 7 5))
  | 0x03 => need w 0x7E00107F#32 0x26000003#32 (.shflx (marked w) (w.extractLsb' 19 6) (w.extractLsb' 13 6) (w.extractLsb' 7 5))
  | 0x04 => need w 0x7E001FFF#32 0x26000004#32 (.bcast (marked w) (w.extractLsb' 19 6) (w.extractLsb' 13 6))
  | 0x05 => need w 0x7E00107F#32 0x26000005#32 (.rdln (marked w) (w.extractLsb' 19 6) (w.extractLsb' 13 6) (w.extractLsb' 7 5))
  | 0x06 => need w 0x7E001FFF#32 0x26000006#32 (.first (marked w) (w.extractLsb' 19 6) (w.extractLsb' 13 6))
  | _ => .error .minor

/-- Major 0x14 (R102, R103). -/
def decodePrd (w : Word) : Except IllSub Instr :=
  match (minor w).toNat with
  | 0x00 => need w 0x7F04107F#32 0x28000000#32 (.pand (marked w) (w.extractLsb' 19 5) (w.extractLsb' 13 5) (w.extractLsb' 7 5))
  | 0x01 => need w 0x7F04107F#32 0x28000001#32 (.por (marked w) (w.extractLsb' 19 5) (w.extractLsb' 13 5) (w.extractLsb' 7 5))
  | 0x02 => need w 0x7F04107F#32 0x28000002#32 (.pxor (marked w) (w.extractLsb' 19 5) (w.extractLsb' 13 5) (w.extractLsb' 7 5))
  | 0x03 => need w 0x7F04107F#32 0x28000003#32 (.pandn (marked w) (w.extractLsb' 19 5) (w.extractLsb' 13 5) (w.extractLsb' 7 5))
  | 0x04 => need w 0x7F041FFF#32 0x28000004#32 (.pnot (marked w) (w.extractLsb' 19 5) (w.extractLsb' 13 5))
  | 0x05 => need w 0x7F041FFF#32 0x28000005#32 (.pmov (marked w) (w.extractLsb' 19 5) (w.extractLsb' 13 5))
  | 0x06 => need w 0x7F07FFFF#32 0x28000006#32 (.pseta (marked w) (w.extractLsb' 19 5))
  | 0x07 => need w 0x7F07FFFF#32 0x28000007#32 (.pclr (marked w) (w.extractLsb' 19 5))
  | 0x08 => need w 0x7E041FFF#32 0x28000008#32 (.ballot (marked w) (w.extractLsb' 19 6) (w.extractLsb' 13 5))
  | 0x09 => need w 0x7E041FFF#32 0x28000009#32 (.popck (marked w) (w.extractLsb' 19 6) (w.extractLsb' 13 5))
  | 0x0A => need w 0x7F841FFF#32 0x2800000A#32 (.vany (marked w) (w.extractLsb' 19 4) (w.extractLsb' 13 5))
  | 0x0B => need w 0x7F841FFF#32 0x2800000B#32 (.vall (marked w) (w.extractLsb' 19 4) (w.extractLsb' 13 5))
  | 0x0C => need w 0x7F001FFF#32 0x2800000C#32 (.kfromg (marked w) (w.extractLsb' 19 5) (w.extractLsb' 13 6))
  | 0x0D => need w 0x7F86187F#32 0x2800000D#32 (.gkand (marked w) (w.extractLsb' 19 4) (w.extractLsb' 13 4) (w.extractLsb' 7 4))
  | 0x0E => need w 0x7F86187F#32 0x2800000E#32 (.gkor (marked w) (w.extractLsb' 19 4) (w.extractLsb' 13 4) (w.extractLsb' 7 4))
  | 0x0F => need w 0x7F861FFF#32 0x2800000F#32 (.gknot (marked w) (w.extractLsb' 19 4) (w.extractLsb' 13 4))
  | _ => .error .minor

/-- Major 0x18 (R102, R103). -/
def decodeGalu (w : Word) : Except IllSub Instr :=
  match (minor w).toNat with
  | 0x00 => need w 0x7E00007F#32 0x30000000#32 (.gadd (marked w) (w.extractLsb' 19 6) (w.extractLsb' 13 6) (w.extractLsb' 7 6))
  | 0x01 => need w 0x7E00007F#32 0x30000001#32 (.gsub (marked w) (w.extractLsb' 19 6) (w.extractLsb' 13 6) (w.extractLsb' 7 6))
  | 0x02 => need w 0x7E00007F#32 0x30000002#32 (.gmul (marked w) (w.extractLsb' 19 6) (w.extractLsb' 13 6) (w.extractLsb' 7 6))
  | 0x03 => need w 0x7E00007F#32 0x30000003#32 (.gmulhu (marked w) (w.extractLsb' 19 6) (w.extractLsb' 13 6) (w.extractLsb' 7 6))
  | 0x04 => need w 0x7E00007F#32 0x30000004#32 (.gand (marked w) (w.extractLsb' 19 6) (w.extractLsb' 13 6) (w.extractLsb' 7 6))
  | 0x05 => need w 0x7E00007F#32 0x30000005#32 (.gor (marked w) (w.extractLsb' 19 6) (w.extractLsb' 13 6) (w.extractLsb' 7 6))
  | 0x06 => need w 0x7E00007F#32 0x30000006#32 (.gxor (marked w) (w.extractLsb' 19 6) (w.extractLsb' 13 6) (w.extractLsb' 7 6))
  | 0x07 => need w 0x7E00007F#32 0x30000007#32 (.gandn (marked w) (w.extractLsb' 19 6) (w.extractLsb' 13 6) (w.extractLsb' 7 6))
  | 0x08 => need w 0x7E00007F#32 0x30000008#32 (.gshl (marked w) (w.extractLsb' 19 6) (w.extractLsb' 13 6) (w.extractLsb' 7 6))
  | 0x09 => need w 0x7E00007F#32 0x30000009#32 (.gshr (marked w) (w.extractLsb' 19 6) (w.extractLsb' 13 6) (w.extractLsb' 7 6))
  | 0x0A => need w 0x7E00007F#32 0x3000000A#32 (.gsar (marked w) (w.extractLsb' 19 6) (w.extractLsb' 13 6) (w.extractLsb' 7 6))
  | 0x0B => need w 0x7E00007F#32 0x3000000B#32 (.gmin (marked w) (w.extractLsb' 19 6) (w.extractLsb' 13 6) (w.extractLsb' 7 6))
  | 0x0C => need w 0x7E00007F#32 0x3000000C#32 (.gmax (marked w) (w.extractLsb' 19 6) (w.extractLsb' 13 6) (w.extractLsb' 7 6))
  | 0x0D => need w 0x7E00007F#32 0x3000000D#32 (.gminu (marked w) (w.extractLsb' 19 6) (w.extractLsb' 13 6) (w.extractLsb' 7 6))
  | 0x0E => need w 0x7E00007F#32 0x3000000E#32 (.gmaxu (marked w) (w.extractLsb' 19 6) (w.extractLsb' 13 6) (w.extractLsb' 7 6))
  | 0x0F => need w 0x7E001FFF#32 0x3000000F#32 (.gpopc (marked w) (w.extractLsb' 19 6) (w.extractLsb' 13 6))
  | 0x10 => need w 0x7E001FFF#32 0x30000010#32 (.gclz (marked w) (w.extractLsb' 19 6) (w.extractLsb' 13 6))
  | 0x11 => need w 0x7E001FFF#32 0x30000011#32 (.gmov (marked w) (w.extractLsb' 19 6) (w.extractLsb' 13 6))
  | 0x12 => need w 0x7E00007F#32 0x30000012#32 (.gdivu (marked w) (w.extractLsb' 19 6) (w.extractLsb' 13 6) (w.extractLsb' 7 6))
  | 0x13 => need w 0x7E00007F#32 0x30000013#32 (.gremu (marked w) (w.extractLsb' 19 6) (w.extractLsb' 13 6) (w.extractLsb' 7 6))
  | _ => .error .minor

/-- Major 0x24 (R102, R103). -/
def decodeSmem (w : Word) : Except IllSub Instr :=
  match (w.extractLsb' 4 3).toNat with
  | 0 => need w 0x7E000071#32 0x48000000#32 (.sld (marked w) (w.extractLsb' 19 6) (w.extractLsb' 13 6) (w.extractLsb' 7 6) (w.extractLsb' 2 2) (w.extractLsb' 1 1))
  | 1 => need w 0x7E000073#32 0x48000010#32 (.sst (marked w) (w.extractLsb' 19 6) (w.extractLsb' 13 6) (w.extractLsb' 7 6) (w.extractLsb' 2 2))
  | 2 => need w 0x7E000071#32 0x48000020#32 (.qld (marked w) (w.extractLsb' 19 6) (w.extractLsb' 13 6) (w.extractLsb' 7 6) (w.extractLsb' 2 2) (w.extractLsb' 1 1))
  | 3 => need w 0x7E000073#32 0x48000030#32 (.qst (marked w) (w.extractLsb' 19 6) (w.extractLsb' 13 6) (w.extractLsb' 7 6) (w.extractLsb' 2 2))
  | _ => .error .field

/-- Major 0x25 (R102, R103). -/
def decodeAtom (w : Word) : Except IllSub Instr :=
  if w.extractLsb' 0 1 = 0#1 then need w 0x7E000001#32 0x4A000000#32 (.atomn (marked w) (w.extractLsb' 19 6) (w.extractLsb' 13 6) (w.extractLsb' 7 6) (w.extractLsb' 5 2) (w.extractLsb' 1 4))
  else need w 0x7E000001#32 0x4A000001#32 (.atom (marked w) (w.extractLsb' 19 6) (w.extractLsb' 13 6) (w.extractLsb' 7 6) (w.extractLsb' 5 2) (w.extractLsb' 1 4))

/-- Major 0x26 (R102, R103). -/
def decodeFxc (w : Word) : Except IllSub Instr :=
  match (minor w).toNat with
  | 0x00 => need w 0x7E00007F#32 0x4C000000#32 (.afadd (marked w) (w.extractLsb' 19 6) (w.extractLsb' 13 6) (w.extractLsb' 7 6))
  | 0x01 => need w 0x7E00007F#32 0x4C000001#32 (.afxrd (marked w) (w.extractLsb' 19 6) (w.extractLsb' 13 6) (w.extractLsb' 7 6))
  | 0x02 => need w 0x7E00007F#32 0x4C000002#32 (.afxclr (marked w) (w.extractLsb' 19 6) (w.extractLsb' 13 6) (w.extractLsb' 7 6))
  | 0x03 => need w 0x7E00007F#32 0x4C000003#32 (.afxflg (marked w) (w.extractLsb' 19 6) (w.extractLsb' 13 6) (w.extractLsb' 7 6))
  | _ => .error .minor

/-- Major 0x27 (R102, R103). -/
def decodePage (w : Word) : Except IllSub Instr :=
  match (minor w).toNat with
  | 0x00 => need w 0x7E00007F#32 0x4E000000#32 (.pgreq (marked w) (w.extractLsb' 19 6) (w.extractLsb' 13 6) (w.extractLsb' 7 6))
  | 0x01 => need w 0x7E00007F#32 0x4E000001#32 (.resq (marked w) (w.extractLsb' 19 6) (w.extractLsb' 13 6) (w.extractLsb' 7 6))
  | 0x02 => need w 0x7FF8007F#32 0x4E000002#32 (.pfetch (marked w) (w.extractLsb' 13 6) (w.extractLsb' 7 6))
  | _ => .error .minor

/-- Major 0x28 (R102, R103). -/
def decodeDray (w : Word) : Except IllSub Instr :=
  match (minor w).toNat with
  | 0x00 => need w 0x7FF81FFF#32 0x50000000#32 (.dcopy (marked w) (w.extractLsb' 13 6))
  | 0x01 => need w 0x7FF81FFF#32 0x50000001#32 (.dcopyt (marked w) (w.extractLsb' 13 6))
  | 0x02 => need w 0x7FF81FFF#32 0x50000002#32 (.dcvt (marked w) (w.extractLsb' 13 6))
  | 0x03 => need w 0x7FF81FFF#32 0x50000003#32 (.dgath (marked w) (w.extractLsb' 13 6))
  | 0x04 => need w 0x7FF81FFF#32 0x50000004#32 (.dscat (marked w) (w.extractLsb' 13 6))
  | 0x05 => need w 0x7FF81FFF#32 0x50000005#32 (.dfill (marked w) (w.extractLsb' 13 6))
  | 0x06 => need w 0x7FF8007F#32 0x50000006#32 (.dwait (marked w) (w.extractLsb' 13 6) (w.extractLsb' 7 6))
  | 0x07 => need w 0x7E001FFF#32 0x50000007#32 (.dpoll (marked w) (w.extractLsb' 19 6) (w.extractLsb' 13 6))
  | 0x08 => need w 0x7FF81FFF#32 0x50000008#32 (.publish (marked w) (w.extractLsb' 13 6))
  | 0x09 => need w 0x7FF8007F#32 0x50000009#32 (.ppin (marked w) (w.extractLsb' 13 6) (w.extractLsb' 7 6))
  | 0x0A => need w 0x7FF8007F#32 0x5000000A#32 (.punpin (marked w) (w.extractLsb' 13 6) (w.extractLsb' 7 6))
  | _ => .error .minor

/-- Major 0x2C (R102, R103). -/
def decodeMatx (w : Word) : Except IllSub Instr :=
  match (minor w).toNat with
  | 0x00 => need w 0x7FF81FFF#32 0x58000000#32 (.mcfg (marked w) (w.extractLsb' 13 6))
  | 0x01 => need w 0x7E001FFF#32 0x58000001#32 (.malloc (marked w) (w.extractLsb' 19 6) (w.extractLsb' 13 6))
  | 0x02 => need w 0x7FF8007F#32 0x58000002#32 (.mfree (marked w) (w.extractLsb' 13 6) (w.extractLsb' 7 6))
  | 0x03 => need w 0x7FF81FFF#32 0x58000003#32 (.mldw (marked w) (w.extractLsb' 13 6))
  | 0x04 => need w 0x7FF81FFF#32 0x58000004#32 (.mldwt (marked w) (w.extractLsb' 13 6))
  | 0x05 => need w 0x7FFFFFFF#32 0x58000005#32 (.mswap (marked w))
  | 0x06 => need w 0x7FF8007F#32 0x58000006#32 (.mstream (marked w) (w.extractLsb' 13 6) (w.extractLsb' 7 6))
  | 0x07 => need w 0x7FF8007F#32 0x58000007#32 (.mstra (marked w) (w.extractLsb' 13 6) (w.extractLsb' 7 6))
  | 0x08 => need w 0x7E00007F#32 0x58000008#32 (.mgather (marked w) (w.extractLsb' 19 6) (w.extractLsb' 13 6) (w.extractLsb' 7 6))
  | 0x09 => need w 0x7E001FFF#32 0x58000009#32 (.mrda (marked w) (w.extractLsb' 19 6) (w.extractLsb' 13 6))
  | 0x0A => need w 0x7E001FFF#32 0x5800000A#32 (.mwra (marked w) (w.extractLsb' 19 6) (w.extractLsb' 13 6))
  | 0x0B => need w 0x7FF8007F#32 0x5800000B#32 (.mzero (marked w) (w.extractLsb' 13 6) (w.extractLsb' 7 6))
  | 0x0C => need w 0x7FF81FFF#32 0x5800000C#32 (.gang (marked w) (w.extractLsb' 13 6))
  | 0x0D => need w 0x7FF81FFF#32 0x5800000D#32 (.mtok (marked w) (w.extractLsb' 13 6))
  | 0x0E => need w 0x7FFFFFFF#32 0x5800000E#32 (.mwait (marked w))
  | _ => .error .minor

/-- Major 0x30 (R102, R103). -/
def decodeView (w : Word) : Except IllSub Instr :=
  match (minor w).toNat with
  | 0x00 => need w 0x7E001FFF#32 0x60000000#32 (.view (marked w) (w.extractLsb' 19 6) (w.extractLsb' 13 6))
  | 0x01 => need w 0x7E00007F#32 0x60000001#32 (.viewl (marked w) (w.extractLsb' 19 6) (w.extractLsb' 13 6) (w.extractLsb' 7 6))
  | 0x02 => need w 0x7E001FFF#32 0x60000002#32 (.vwait (marked w) (w.extractLsb' 19 6) (w.extractLsb' 13 6))
  | 0x03 => need w 0x7E001FFF#32 0x60000003#32 (.vpoll (marked w) (w.extractLsb' 19 6) (w.extractLsb' 13 6))
  | 0x04 => need w 0x7FF81F7F#32 0x60000004#32 (.vout (marked w) (w.extractLsb' 13 6) (w.extractLsb' 7 1))
  | 0x05 => need w 0x7E07F87F#32 0x60000005#32 (.vhit (marked w) (w.extractLsb' 19 6) (w.extractLsb' 7 4))
  | 0x06 => need w 0x7E07E07F#32 0x60000006#32 (.vlvl (marked w) (w.extractLsb' 19 6) (w.extractLsb' 7 6))
  | _ => .error .minor

/-- Major 0x34 (R102, R103). -/
def decodeSync (w : Word) : Except IllSub Instr :=
  match (minor w).toNat with
  | 0x18 => need w 0x7FFFFFFF#32 0x68000018#32 (.ifence (marked w))
  | 0x19 => need w 0x7FFFFFFF#32 0x68000019#32 (.hflush (marked w))
  | 0x1A => need w 0x7FFFFFFF#32 0x6800001A#32 (.hinv (marked w))
  | 0x1B => need w 0x7FF81FFF#32 0x6800001B#32 (.evwait (marked w) (w.extractLsb' 13 6))
  | _ =>
    if 5#3 < w.extractLsb' 0 3 then .error .minor else
    match (w.extractLsb' 3 4).toNat with
    | 0 => need w 0x7FFFFFF8#32 0x68000000#32 (.phase (marked w) (w.extractLsb' 0 3))
    | 1 => need w 0x7FFFFFF8#32 0x68000008#32 (.publ (marked w) (w.extractLsb' 0 3))
    | 2 => need w 0x7FFFFFF8#32 0x68000010#32 (.refr (marked w) (w.extractLsb' 0 3))
    | _ => .error .minor

/-- Major 0x35 (R102, R103). -/
def decodeBar (w : Word) : Except IllSub Instr :=
  if w.extractLsb' 0 3 = 0#3 ∨ 5#3 < w.extractLsb' 0 3 then .error .minor else
  match (w.extractLsb' 3 4).toNat with
  | 0 => need w 0x7FFFFFF8#32 0x6A000000#32 (.bar (marked w) (w.extractLsb' 0 3))
  | 1 => need w 0x7FFFFFF8#32 0x6A000008#32 (.bara (marked w) (w.extractLsb' 0 3))
  | 2 => need w 0x7FFFFFF8#32 0x6A000010#32 (.barw (marked w) (w.extractLsb' 0 3))
  | _ => .error .minor

/-- Major 0x36 (R102, R103). -/
def decodeTask (w : Word) : Except IllSub Instr :=
  match (minor w).toNat with
  | 0x00 => need w 0x7FF81FFF#32 0x6C000000#32 (.tspawn (marked w) (w.extractLsb' 13 6))
  | 0x01 => need w 0x7FFFFFFF#32 0x6C000001#32 (.tdone (marked w))
  | 0x02 => need w 0x7FF81FFF#32 0x6C000002#32 (.tspec (marked w) (w.extractLsb' 13 6))
  | 0x03 => need w 0x7FF81FFF#32 0x6C000003#32 (.tcommit (marked w) (w.extractLsb' 13 6))
  | 0x04 => need w 0x7FF81FFF#32 0x6C000004#32 (.tdiscard (marked w) (w.extractLsb' 13 6))
  | _ => .error .minor

/-- Major 0x3C (R102, R103). -/
def decodeSys (w : Word) : Except IllSub Instr :=
  match (minor w).toNat with
  | 0x00 => need w 0x7FF81FFF#32 0x78000000#32 (.sysc (marked w) (w.extractLsb' 13 6))
  | 0x01 => need w 0x7FF81FFF#32 0x78000001#32 (.hvc (marked w) (w.extractLsb' 13 6))
  | 0x02 => need w 0x7FFFFFFF#32 0x78000002#32 (.tret (marked w))
  | 0x03 => need w 0x7FFFE07F#32 0x78000003#32 (.bkpt (marked w) (w.extractLsb' 7 6))
  | 0x04 => need w 0x7FF8007F#32 0x78000004#32 (.phint (marked w) (w.extractLsb' 13 6) (w.extractLsb' 7 6))
  | 0x05 => need w 0x7FF81FFF#32 0x78000005#32 (.sleep (marked w) (w.extractLsb' 13 6))
  | 0x06 => need w 0x7FF8007F#32 0x78000006#32 (.tlbi (marked w) (w.extractLsb' 13 6) (w.extractLsb' 7 6))
  | _ => .error .minor

/-- Major 0x3D (R102, R103). -/
def decodeSreg (w : Word) : Except IllSub Instr :=
  match (minor w).toNat with
  | 0x00 => need w 0x7E001FFF#32 0x7A000000#32 (.srr (marked w) (w.extractLsb' 19 6) (w.extractLsb' 13 6))
  | 0x01 => need w 0x7FF8007F#32 0x7A000001#32 (.srw (marked w) (w.extractLsb' 13 6) (w.extractLsb' 7 6))
  | 0x02 => need w 0x7E001FFF#32 0x7A000002#32 (.srrl (marked w) (w.extractLsb' 19 6) (w.extractLsb' 13 6))
  | 0x03 => need w 0x7FF8007F#32 0x7A000003#32 (.srwl (marked w) (w.extractLsb' 13 6) (w.extractLsb' 7 6))
  | _ => .error .minor

/-- The decoder: every 32-bit word gives an instruction or the name of R105's subcode. -/
def decode (w : Word) : Except IllSub Instr :=
  match (major w).toNat with
  | 0x00 => decodeCtl w
  | 0x01 => need w 0x7E000000#32 0x02000000#32 (.br (marked w) (w.extractLsb' 21 4) (w.extractLsb' 0 21))
  | 0x02 => need w 0x7E000000#32 0x04000000#32 (.brn (marked w) (w.extractLsb' 21 4) (w.extractLsb' 0 21))
  | 0x03 => need w 0x7E000000#32 0x06000000#32 (.jmp (marked w) (w.extractLsb' 0 25))
  | 0x04 => need w 0x7E000000#32 0x08000000#32 (.call (marked w) (w.extractLsb' 22 3) (w.extractLsb' 0 22))
  | 0x05 => need w 0x7E000000#32 0x0A000000#32 (.brz (marked w) (w.extractLsb' 20 5) (w.extractLsb' 0 20))
  | 0x06 => need w 0x7E000000#32 0x0C000000#32 (.brnz (marked w) (w.extractLsb' 20 5) (w.extractLsb' 0 20))
  | 0x07 => need w 0x7E00003F#32 0x0E000000#32 (.mode (marked w) (w.extractLsb' 20 5) (w.extractLsb' 19 1) (w.extractLsb' 15 4) (w.extractLsb' 13 2) (w.extractLsb' 12 1) (w.extractLsb' 7 5) (w.extractLsb' 6 1))
  | 0x08 => decodeLalu w
  | 0x09 => need w 0x7E000000#32 0x12000000#32 (.addi (marked w) (w.extractLsb' 19 6) (w.extractLsb' 13 6) (w.extractLsb' 0 13))
  | 0x0A => need w 0x7E000000#32 0x14000000#32 (.andi (marked w) (w.extractLsb' 19 6) (w.extractLsb' 13 6) (w.extractLsb' 0 13))
  | 0x0B => need w 0x7E000000#32 0x16000000#32 (.ori (marked w) (w.extractLsb' 19 6) (w.extractLsb' 13 6) (w.extractLsb' 0 13))
  | 0x0C => need w 0x7E000000#32 0x18000000#32 (.xori (marked w) (w.extractLsb' 19 6) (w.extractLsb' 13 6) (w.extractLsb' 0 13))
  | 0x0D => need w 0x7E0007E0#32 0x1A000000#32 (.shi (marked w) (w.extractLsb' 19 6) (w.extractLsb' 13 6) (w.extractLsb' 11 2) (w.extractLsb' 0 5))
  | 0x0E => need w 0x7E000000#32 0x1C000000#32 (.movi (marked w) (w.extractLsb' 19 6) (w.extractLsb' 0 19))
  | 0x0F => need w 0x7E000000#32 0x1E000000#32 (.movhi (marked w) (w.extractLsb' 19 6) (w.extractLsb' 0 19))
  | 0x10 => decodeMad w
  | 0x11 => decodeFsfu w
  | 0x12 => need w 0x7E000060#32 0x24000000#32 (.cvt (marked w) (w.extractLsb' 19 6) (w.extractLsb' 13 6) (w.extractLsb' 7 6) (w.extractLsb' 4 1) (w.extractLsb' 0 4))
  | 0x13 => decodeLxf w
  | 0x14 => decodePrd w
  | 0x15 => if minor w < 8#7 then need w 0x7F000078#32 0x2A000000#32 (.cmp (marked w) (w.extractLsb' 19 5) (w.extractLsb' 13 6) (w.extractLsb' 7 6) (w.extractLsb' 0 3)) else .error .minor
  | 0x16 => need w 0x7F000000#32 0x2C000000#32 (.cmpi (marked w) (w.extractLsb' 19 5) (w.extractLsb' 13 6) (w.extractLsb' 10 3) (w.extractLsb' 0 10))
  | 0x17 => need w 0x7E000041#32 0x2E000000#32 (.sel (marked w) (w.extractLsb' 19 6) (w.extractLsb' 13 6) (w.extractLsb' 7 6) (w.extractLsb' 1 5))
  | 0x18 => decodeGalu w
  | 0x19 => need w 0x7E000000#32 0x32000000#32 (.gaddi (marked w) (w.extractLsb' 19 6) (w.extractLsb' 13 6) (w.extractLsb' 0 13))
  | 0x1A => need w 0x7E000000#32 0x34000000#32 (.gmovi (marked w) (w.extractLsb' 19 6) (w.extractLsb' 0 19))
  | 0x1B => need w 0x7E000000#32 0x36000000#32 (.gmovhi (marked w) (w.extractLsb' 19 6) (w.extractLsb' 0 19))
  | 0x1C => need w 0x7E000000#32 0x38000000#32 (.gori (marked w) (w.extractLsb' 19 6) (w.extractLsb' 13 6) (w.extractLsb' 0 13))
  | 0x1D => need w 0x7E0007C0#32 0x3A000000#32 (.gshi (marked w) (w.extractLsb' 19 6) (w.extractLsb' 13 6) (w.extractLsb' 11 2) (w.extractLsb' 0 6))
  | 0x1E => if minor w < 10#7 then need w 0x7F800070#32 0x3C000000#32 (.gcmp (marked w) (w.extractLsb' 19 4) (w.extractLsb' 13 6) (w.extractLsb' 7 6) (w.extractLsb' 0 4)) else .error .minor
  | 0x1F => need w 0x7E000000#32 0x3E000000#32 (.dbnz (marked w) (w.extractLsb' 19 6) (w.extractLsb' 0 19))
  | 0x20 => need w 0x7E000000#32 0x40000000#32 (.ld (marked w) (w.extractLsb' 19 6) (w.extractLsb' 13 6) (w.extractLsb' 7 6) (w.extractLsb' 5 2) (w.extractLsb' 4 1) (w.extractLsb' 3 1) (w.extractLsb' 1 2) (w.extractLsb' 0 1))
  | 0x21 => need w 0x7E000008#32 0x42000000#32 (.st (marked w) (w.extractLsb' 19 6) (w.extractLsb' 13 6) (w.extractLsb' 7 6) (w.extractLsb' 5 2) (w.extractLsb' 4 1) (w.extractLsb' 1 2) (w.extractLsb' 0 1))
  | 0x22 => need w 0x7E000000#32 0x44000000#32 (.gld (marked w) (w.extractLsb' 19 6) (w.extractLsb' 13 6) (w.extractLsb' 0 13))
  | 0x23 => need w 0x7E000000#32 0x46000000#32 (.gst (marked w) (w.extractLsb' 19 6) (w.extractLsb' 13 6) (w.extractLsb' 0 13))
  | 0x24 => decodeSmem w
  | 0x25 => decodeAtom w
  | 0x26 => decodeFxc w
  | 0x27 => decodePage w
  | 0x28 => decodeDray w
  | 0x2C => decodeMatx w
  | 0x30 => decodeView w
  | 0x34 => decodeSync w
  | 0x35 => decodeBar w
  | 0x36 => decodeTask w
  | 0x3C => decodeSys w
  | 0x3D => decodeSreg w
  | _ => .error .major

/-- The word of an instruction (R91, R103, R104); a step of the device has none. -/
def encode : Instr → Option Word
  | .zeroWordTrap m x => some (mark m ++ 0x0#6 ++ x ++ 0x0#7)
  | .nop m => some (mark m ++ 0x0#6 ++ 0x1#25)
  | .exit m => some (mark m ++ 0x0#6 ++ 0x2#25)
  | .ret m => some (mark m ++ 0x0#6 ++ 0x3#25)
  | .yield m => some (mark m ++ 0x0#6 ++ 0x4#25)
  | .modeg m a => some (mark m ++ 0x0#6 ++ 0x0#6 ++ a ++ 0x5#13)
  | .moder m d => some (mark m ++ 0x0#6 ++ d ++ 0x6#19)
  | .exms m a => some (mark m ++ 0x0#6 ++ 0x0#6 ++ a ++ 0x7#13)
  | .exmg m d => some (mark m ++ 0x0#6 ++ d ++ 0x8#19)
  | .exma m a => some (mark m ++ 0x0#6 ++ 0x0#6 ++ a ++ 0x9#13)
  | .psw m a => some (mark m ++ 0x0#6 ++ 0x0#6 ++ a ++ 0xA#13)
  | .pswi m p => some (mark m ++ 0x0#6 ++ 0x3F0#16 ++ p ++ 0xA#7)
  | .plq m d p => some (mark m ++ 0x0#6 ++ d ++ 0x0#10 ++ p ++ 0xB#7)
  | .ji m a => some (mark m ++ 0x0#6 ++ 0x0#6 ++ a ++ 0xC#13)
  | .calli m f a => some (mark m ++ 0x0#6 ++ 0x0#3 ++ f ++ a ++ 0xD#13)
  | .laneid m d => some (mark m ++ 0x0#6 ++ d ++ 0xE#19)
  | .ids m d s => some (mark m ++ 0x0#6 ++ d ++ s ++ 0xF#13)
  | .br m g o => some (mark m ++ 0x1#6 ++ g ++ o)
  | .brn m g o => some (mark m ++ 0x2#6 ++ g ++ o)
  | .jmp m o => some (mark m ++ 0x3#6 ++ o)
  | .call m f o => some (mark m ++ 0x4#6 ++ f ++ o)
  | .brz m k o => some (mark m ++ 0x5#6 ++ k ++ o)
  | .brnz m k o => some (mark m ++ 0x6#6 ++ k ++ o)
  | .mode m g n t r s p e => some (mark m ++ 0x7#6 ++ g ++ n ++ t ++ r ++ s ++ p ++ e ++ 0x0#6)
  | .add m d a b => some (mark m ++ 0x8#6 ++ d ++ a ++ b ++ 0x0#7)
  | .sub m d a b => some (mark m ++ 0x8#6 ++ d ++ a ++ b ++ 0x1#7)
  | .mul m d a b => some (mark m ++ 0x8#6 ++ d ++ a ++ b ++ 0x2#7)
  | .mulh m d a b => some (mark m ++ 0x8#6 ++ d ++ a ++ b ++ 0x3#7)
  | .min m d a b => some (mark m ++ 0x8#6 ++ d ++ a ++ b ++ 0x4#7)
  | .max m d a b => some (mark m ++ 0x8#6 ++ d ++ a ++ b ++ 0x5#7)
  | .abs m d a => some (mark m ++ 0x8#6 ++ d ++ a ++ 0x6#13)
  | .neg m d a => some (mark m ++ 0x8#6 ++ d ++ a ++ 0x7#13)
  | .div m d a b => some (mark m ++ 0x8#6 ++ d ++ a ++ b ++ 0x8#7)
  | .rem m d a b => some (mark m ++ 0x8#6 ++ d ++ a ++ b ++ 0x9#7)
  | .and m d a b => some (mark m ++ 0x8#6 ++ d ++ a ++ b ++ 0x10#7)
  | .or m d a b => some (mark m ++ 0x8#6 ++ d ++ a ++ b ++ 0x11#7)
  | .xor m d a b => some (mark m ++ 0x8#6 ++ d ++ a ++ b ++ 0x12#7)
  | .andn m d a b => some (mark m ++ 0x8#6 ++ d ++ a ++ b ++ 0x13#7)
  | .not m d a => some (mark m ++ 0x8#6 ++ d ++ a ++ 0x14#13)
  | .shl m d a b => some (mark m ++ 0x8#6 ++ d ++ a ++ b ++ 0x15#7)
  | .shr m d a b => some (mark m ++ 0x8#6 ++ d ++ a ++ b ++ 0x16#7)
  | .sar m d a b => some (mark m ++ 0x8#6 ++ d ++ a ++ b ++ 0x17#7)
  | .rotl m d a b => some (mark m ++ 0x8#6 ++ d ++ a ++ b ++ 0x18#7)
  | .clz m d a => some (mark m ++ 0x8#6 ++ d ++ a ++ 0x19#13)
  | .popc m d a => some (mark m ++ 0x8#6 ++ d ++ a ++ 0x1A#13)
  | .brev m d a => some (mark m ++ 0x8#6 ++ d ++ a ++ 0x1B#13)
  | .bfx m d a b => some (mark m ++ 0x8#6 ++ d ++ a ++ b ++ 0x1C#7)
  | .bfi m d a b => some (mark m ++ 0x8#6 ++ d ++ a ++ b ++ 0x1D#7)
  | .mov m d a => some (mark m ++ 0x8#6 ++ d ++ a ++ 0x1E#13)
  | .addi m d a i => some (mark m ++ 0x9#6 ++ d ++ a ++ i)
  | .andi m d a i => some (mark m ++ 0xA#6 ++ d ++ a ++ i)
  | .ori m d a i => some (mark m ++ 0xB#6 ++ d ++ a ++ i)
  | .xori m d a i => some (mark m ++ 0xC#6 ++ d ++ a ++ i)
  | .shi m d a k n => some (mark m ++ 0xD#6 ++ d ++ a ++ k ++ 0x0#6 ++ n)
  | .movi m d i => some (mark m ++ 0xE#6 ++ d ++ i)
  | .movhi m d i => some (mark m ++ 0xF#6 ++ d ++ i)
  | .mad m d a b c => some (mark m ++ 0x10#6 ++ d ++ a ++ b ++ c ++ 0x0#1)
  | .madn m d a b c => some (mark m ++ 0x10#6 ++ d ++ a ++ b ++ c ++ 0x1#1)
  | .frcp m d a => some (mark m ++ 0x11#6 ++ d ++ a ++ 0x0#13)
  | .frsq m d a => some (mark m ++ 0x11#6 ++ d ++ a ++ 0x1#13)
  | .fsqrt m d a => some (mark m ++ 0x11#6 ++ d ++ a ++ 0x2#13)
  | .fex2 m d a => some (mark m ++ 0x11#6 ++ d ++ a ++ 0x3#13)
  | .flg2 m d a => some (mark m ++ 0x11#6 ++ d ++ a ++ 0x4#13)
  | .fsint m d a => some (mark m ++ 0x11#6 ++ d ++ a ++ 0x5#13)
  | .fcost m d a => some (mark m ++ 0x11#6 ++ d ++ a ++ 0x6#13)
  | .fclass m d a => some (mark m ++ 0x11#6 ++ d ++ a ++ 0x7#13)
  | .round m d a => some (mark m ++ 0x11#6 ++ d ++ a ++ 0x8#13)
  | .fldexp m d a b => some (mark m ++ 0x11#6 ++ d ++ a ++ b ++ 0x9#7)
  | .packe m d a => some (mark m ++ 0x11#6 ++ d ++ a ++ 0xA#13)
  | .unpke m d a => some (mark m ++ 0x11#6 ++ d ++ a ++ 0xB#13)
  | .fflgr m d => some (mark m ++ 0x11#6 ++ d ++ 0xC#19)
  | .fflgc m k => some (mark m ++ 0x11#6 ++ 0x0#13 ++ k ++ 0xD#7)
  | .cvt m d a b s t => some (mark m ++ 0x12#6 ++ d ++ a ++ b ++ 0x0#2 ++ s ++ t)
  | .shfli m d a b => some (mark m ++ 0x13#6 ++ d ++ a ++ b ++ 0x0#7)
  | .shflu m d a n => some (mark m ++ 0x13#6 ++ d ++ a ++ 0x0#1 ++ n ++ 0x1#7)
  | .shfld m d a n => some (mark m ++ 0x13#6 ++ d ++ a ++ 0x0#1 ++ n ++ 0x2#7)
  | .shflx m d a n => some (mark m ++ 0x13#6 ++ d ++ a ++ 0x0#1 ++ n ++ 0x3#7)
  | .bcast m d a => some (mark m ++ 0x13#6 ++ d ++ a ++ 0x4#13)
  | .rdln m d a n => some (mark m ++ 0x13#6 ++ d ++ a ++ 0x0#1 ++ n ++ 0x5#7)
  | .first m d a => some (mark m ++ 0x13#6 ++ d ++ a ++ 0x6#13)
  | .pand m d a b => some (mark m ++ 0x14#6 ++ 0x0#1 ++ d ++ 0x0#1 ++ a ++ 0x0#1 ++ b ++ 0x0#7)
  | .por m d a b => some (mark m ++ 0x14#6 ++ 0x0#1 ++ d ++ 0x0#1 ++ a ++ 0x0#1 ++ b ++ 0x1#7)
  | .pxor m d a b => some (mark m ++ 0x14#6 ++ 0x0#1 ++ d ++ 0x0#1 ++ a ++ 0x0#1 ++ b ++ 0x2#7)
  | .pandn m d a b => some (mark m ++ 0x14#6 ++ 0x0#1 ++ d ++ 0x0#1 ++ a ++ 0x0#1 ++ b ++ 0x3#7)
  | .pnot m d a => some (mark m ++ 0x14#6 ++ 0x0#1 ++ d ++ 0x0#1 ++ a ++ 0x4#13)
  | .pmov m d a => some (mark m ++ 0x14#6 ++ 0x0#1 ++ d ++ 0x0#1 ++ a ++ 0x5#13)
  | .pseta m d => some (mark m ++ 0x14#6 ++ 0x0#1 ++ d ++ 0x6#19)
  | .pclr m d => some (mark m ++ 0x14#6 ++ 0x0#1 ++ d ++ 0x7#19)
  | .ballot m d a => some (mark m ++ 0x14#6 ++ d ++ 0x0#1 ++ a ++ 0x8#13)
  | .popck m d a => some (mark m ++ 0x14#6 ++ d ++ 0x0#1 ++ a ++ 0x9#13)
  | .vany m d a => some (mark m ++ 0x14#6 ++ 0x0#2 ++ d ++ 0x0#1 ++ a ++ 0xA#13)
  | .vall m d a => some (mark m ++ 0x14#6 ++ 0x0#2 ++ d ++ 0x0#1 ++ a ++ 0xB#13)
  | .kfromg m d a => some (mark m ++ 0x14#6 ++ 0x0#1 ++ d ++ a ++ 0xC#13)
  | .gkand m d a b => some (mark m ++ 0x14#6 ++ 0x0#2 ++ d ++ 0x0#2 ++ a ++ 0x0#2 ++ b ++ 0xD#7)
  | .gkor m d a b => some (mark m ++ 0x14#6 ++ 0x0#2 ++ d ++ 0x0#2 ++ a ++ 0x0#2 ++ b ++ 0xE#7)
  | .gknot m d a => some (mark m ++ 0x14#6 ++ 0x0#2 ++ d ++ 0x0#2 ++ a ++ 0xF#13)
  | .cmp m d a b c => some (mark m ++ 0x15#6 ++ 0x0#1 ++ d ++ a ++ b ++ 0x0#4 ++ c)
  | .cmpi m d a c i => some (mark m ++ 0x16#6 ++ 0x0#1 ++ d ++ a ++ c ++ i)
  | .sel m d a b c => some (mark m ++ 0x17#6 ++ d ++ a ++ b ++ 0x0#1 ++ c ++ 0x0#1)
  | .gadd m d a b => some (mark m ++ 0x18#6 ++ d ++ a ++ b ++ 0x0#7)
  | .gsub m d a b => some (mark m ++ 0x18#6 ++ d ++ a ++ b ++ 0x1#7)
  | .gmul m d a b => some (mark m ++ 0x18#6 ++ d ++ a ++ b ++ 0x2#7)
  | .gmulhu m d a b => some (mark m ++ 0x18#6 ++ d ++ a ++ b ++ 0x3#7)
  | .gand m d a b => some (mark m ++ 0x18#6 ++ d ++ a ++ b ++ 0x4#7)
  | .gor m d a b => some (mark m ++ 0x18#6 ++ d ++ a ++ b ++ 0x5#7)
  | .gxor m d a b => some (mark m ++ 0x18#6 ++ d ++ a ++ b ++ 0x6#7)
  | .gandn m d a b => some (mark m ++ 0x18#6 ++ d ++ a ++ b ++ 0x7#7)
  | .gshl m d a b => some (mark m ++ 0x18#6 ++ d ++ a ++ b ++ 0x8#7)
  | .gshr m d a b => some (mark m ++ 0x18#6 ++ d ++ a ++ b ++ 0x9#7)
  | .gsar m d a b => some (mark m ++ 0x18#6 ++ d ++ a ++ b ++ 0xA#7)
  | .gmin m d a b => some (mark m ++ 0x18#6 ++ d ++ a ++ b ++ 0xB#7)
  | .gmax m d a b => some (mark m ++ 0x18#6 ++ d ++ a ++ b ++ 0xC#7)
  | .gminu m d a b => some (mark m ++ 0x18#6 ++ d ++ a ++ b ++ 0xD#7)
  | .gmaxu m d a b => some (mark m ++ 0x18#6 ++ d ++ a ++ b ++ 0xE#7)
  | .gpopc m d a => some (mark m ++ 0x18#6 ++ d ++ a ++ 0xF#13)
  | .gclz m d a => some (mark m ++ 0x18#6 ++ d ++ a ++ 0x10#13)
  | .gmov m d a => some (mark m ++ 0x18#6 ++ d ++ a ++ 0x11#13)
  | .gdivu m d a b => some (mark m ++ 0x18#6 ++ d ++ a ++ b ++ 0x12#7)
  | .gremu m d a b => some (mark m ++ 0x18#6 ++ d ++ a ++ b ++ 0x13#7)
  | .gaddi m d a i => some (mark m ++ 0x19#6 ++ d ++ a ++ i)
  | .gmovi m d i => some (mark m ++ 0x1A#6 ++ d ++ i)
  | .gmovhi m d i => some (mark m ++ 0x1B#6 ++ d ++ i)
  | .gori m d a i => some (mark m ++ 0x1C#6 ++ d ++ a ++ i)
  | .gshi m d a k n => some (mark m ++ 0x1D#6 ++ d ++ a ++ k ++ 0x0#5 ++ n)
  | .gcmp m d a b c => some (mark m ++ 0x1E#6 ++ 0x0#2 ++ d ++ a ++ b ++ 0x0#3 ++ c)
  | .dbnz m g o => some (mark m ++ 0x1F#6 ++ g ++ o)
  | .ld m d a b h o x z f => some (mark m ++ 0x20#6 ++ d ++ a ++ b ++ h ++ o ++ x ++ z ++ f)
  | .st m d a b h o z f => some (mark m ++ 0x21#6 ++ d ++ a ++ b ++ h ++ o ++ 0x0#1 ++ z ++ f)
  | .gld m d a i => some (mark m ++ 0x22#6 ++ d ++ a ++ i)
  | .gst m d a i => some (mark m ++ 0x23#6 ++ d ++ a ++ i)
  | .sld m d a b z x => some (mark m ++ 0x24#6 ++ d ++ a ++ b ++ 0x0#3 ++ z ++ x ++ 0x0#1)
  | .sst m d a b z => some (mark m ++ 0x24#6 ++ d ++ a ++ b ++ 0x1#3 ++ z ++ 0x0#2)
  | .qld m d a b z x => some (mark m ++ 0x24#6 ++ d ++ a ++ b ++ 0x2#3 ++ z ++ x ++ 0x0#1)
  | .qst m d a b z => some (mark m ++ 0x24#6 ++ d ++ a ++ b ++ 0x3#3 ++ z ++ 0x0#2)
  | .atom m d a b p o => some (mark m ++ 0x25#6 ++ d ++ a ++ b ++ p ++ o ++ 0x1#1)
  | .atomn m d a b p o => some (mark m ++ 0x25#6 ++ d ++ a ++ b ++ p ++ o ++ 0x0#1)
  | .afadd m d a b => some (mark m ++ 0x26#6 ++ d ++ a ++ b ++ 0x0#7)
  | .afxrd m d a b => some (mark m ++ 0x26#6 ++ d ++ a ++ b ++ 0x1#7)
  | .afxclr m d a b => some (mark m ++ 0x26#6 ++ d ++ a ++ b ++ 0x2#7)
  | .afxflg m d a b => some (mark m ++ 0x26#6 ++ d ++ a ++ b ++ 0x3#7)
  | .pgreq m d a b => some (mark m ++ 0x27#6 ++ d ++ a ++ b ++ 0x0#7)
  | .resq m d a b => some (mark m ++ 0x27#6 ++ d ++ a ++ b ++ 0x1#7)
  | .pfetch m a b => some (mark m ++ 0x27#6 ++ 0x0#6 ++ a ++ b ++ 0x2#7)
  | .dcopy m a => some (mark m ++ 0x28#6 ++ 0x0#6 ++ a ++ 0x0#13)
  | .dcopyt m a => some (mark m ++ 0x28#6 ++ 0x0#6 ++ a ++ 0x1#13)
  | .dcvt m a => some (mark m ++ 0x28#6 ++ 0x0#6 ++ a ++ 0x2#13)
  | .dgath m a => some (mark m ++ 0x28#6 ++ 0x0#6 ++ a ++ 0x3#13)
  | .dscat m a => some (mark m ++ 0x28#6 ++ 0x0#6 ++ a ++ 0x4#13)
  | .dfill m a => some (mark m ++ 0x28#6 ++ 0x0#6 ++ a ++ 0x5#13)
  | .dwait m a b => some (mark m ++ 0x28#6 ++ 0x0#6 ++ a ++ b ++ 0x6#7)
  | .dpoll m d a => some (mark m ++ 0x28#6 ++ d ++ a ++ 0x7#13)
  | .publish m a => some (mark m ++ 0x28#6 ++ 0x0#6 ++ a ++ 0x8#13)
  | .ppin m a b => some (mark m ++ 0x28#6 ++ 0x0#6 ++ a ++ b ++ 0x9#7)
  | .punpin m a b => some (mark m ++ 0x28#6 ++ 0x0#6 ++ a ++ b ++ 0xA#7)
  | .mcfg m a => some (mark m ++ 0x2C#6 ++ 0x0#6 ++ a ++ 0x0#13)
  | .malloc m d a => some (mark m ++ 0x2C#6 ++ d ++ a ++ 0x1#13)
  | .mfree m a b => some (mark m ++ 0x2C#6 ++ 0x0#6 ++ a ++ b ++ 0x2#7)
  | .mldw m a => some (mark m ++ 0x2C#6 ++ 0x0#6 ++ a ++ 0x3#13)
  | .mldwt m a => some (mark m ++ 0x2C#6 ++ 0x0#6 ++ a ++ 0x4#13)
  | .mswap m => some (mark m ++ 0x2C#6 ++ 0x5#25)
  | .mstream m a b => some (mark m ++ 0x2C#6 ++ 0x0#6 ++ a ++ b ++ 0x6#7)
  | .mstra m a b => some (mark m ++ 0x2C#6 ++ 0x0#6 ++ a ++ b ++ 0x7#7)
  | .mgather m d a b => some (mark m ++ 0x2C#6 ++ d ++ a ++ b ++ 0x8#7)
  | .mrda m d a => some (mark m ++ 0x2C#6 ++ d ++ a ++ 0x9#13)
  | .mwra m d a => some (mark m ++ 0x2C#6 ++ d ++ a ++ 0xA#13)
  | .mzero m a b => some (mark m ++ 0x2C#6 ++ 0x0#6 ++ a ++ b ++ 0xB#7)
  | .gang m a => some (mark m ++ 0x2C#6 ++ 0x0#6 ++ a ++ 0xC#13)
  | .mtok m a => some (mark m ++ 0x2C#6 ++ 0x0#6 ++ a ++ 0xD#13)
  | .mwait m => some (mark m ++ 0x2C#6 ++ 0xE#25)
  | .view m d a => some (mark m ++ 0x30#6 ++ d ++ a ++ 0x0#13)
  | .viewl m d a b => some (mark m ++ 0x30#6 ++ d ++ a ++ b ++ 0x1#7)
  | .vwait m d a => some (mark m ++ 0x30#6 ++ d ++ a ++ 0x2#13)
  | .vpoll m d a => some (mark m ++ 0x30#6 ++ d ++ a ++ 0x3#13)
  | .vout m a w => some (mark m ++ 0x30#6 ++ 0x0#6 ++ a ++ 0x0#5 ++ w ++ 0x4#7)
  | .vhit m d s => some (mark m ++ 0x30#6 ++ d ++ 0x0#8 ++ s ++ 0x5#7)
  | .vlvl m d l => some (mark m ++ 0x30#6 ++ d ++ 0x0#6 ++ l ++ 0x6#7)
  | .phase m s => some (mark m ++ 0x34#6 ++ 0x0#22 ++ s)
  | .publ m s => some (mark m ++ 0x34#6 ++ 0x1#22 ++ s)
  | .refr m s => some (mark m ++ 0x34#6 ++ 0x2#22 ++ s)
  | .ifence m => some (mark m ++ 0x34#6 ++ 0x18#25)
  | .hflush m => some (mark m ++ 0x34#6 ++ 0x19#25)
  | .hinv m => some (mark m ++ 0x34#6 ++ 0x1A#25)
  | .evwait m a => some (mark m ++ 0x34#6 ++ 0x0#6 ++ a ++ 0x1B#13)
  | .bar m s => some (mark m ++ 0x35#6 ++ 0x0#22 ++ s)
  | .bara m s => some (mark m ++ 0x35#6 ++ 0x1#22 ++ s)
  | .barw m s => some (mark m ++ 0x35#6 ++ 0x2#22 ++ s)
  | .tspawn m a => some (mark m ++ 0x36#6 ++ 0x0#6 ++ a ++ 0x0#13)
  | .tdone m => some (mark m ++ 0x36#6 ++ 0x1#25)
  | .tspec m a => some (mark m ++ 0x36#6 ++ 0x0#6 ++ a ++ 0x2#13)
  | .tcommit m a => some (mark m ++ 0x36#6 ++ 0x0#6 ++ a ++ 0x3#13)
  | .tdiscard m a => some (mark m ++ 0x36#6 ++ 0x0#6 ++ a ++ 0x4#13)
  | .sysc m a => some (mark m ++ 0x3C#6 ++ 0x0#6 ++ a ++ 0x0#13)
  | .hvc m a => some (mark m ++ 0x3C#6 ++ 0x0#6 ++ a ++ 0x1#13)
  | .tret m => some (mark m ++ 0x3C#6 ++ 0x2#25)
  | .bkpt m n => some (mark m ++ 0x3C#6 ++ 0x0#12 ++ n ++ 0x3#7)
  | .phint m a b => some (mark m ++ 0x3C#6 ++ 0x0#6 ++ a ++ b ++ 0x4#7)
  | .sleep m a => some (mark m ++ 0x3C#6 ++ 0x0#6 ++ a ++ 0x5#13)
  | .tlbi m a b => some (mark m ++ 0x3C#6 ++ 0x0#6 ++ a ++ b ++ 0x6#7)
  | .srr m d i => some (mark m ++ 0x3D#6 ++ d ++ i ++ 0x0#13)
  | .srw m i b => some (mark m ++ 0x3D#6 ++ 0x0#6 ++ i ++ b ++ 0x1#7)
  | .srrl m d i => some (mark m ++ 0x3D#6 ++ d ++ i ++ 0x2#13)
  | .srwl m i b => some (mark m ++ 0x3D#6 ++ 0x0#6 ++ i ++ b ++ 0x3#7)
  | .fetchFault => none
  | .illegalEncoding _ => none
  | .runLimit => none
  | .parkEnd => none
  | .coachSelect _ _ => none
  | .trapEntry _ => none
  | .writeBufferAdvance _ _ => none
  | .snapshotFill _ _ => none
  | .coachRetire _ => none
  | .haulRetire _ => none
  | .barrierGenerationComplete _ _ => none
  | .mallocGrant _ => none
  | .bankRelease _ _ => none
  | .gangRendezvous _ => none
  | .tokenGrant _ => none
  | .arrayOperationComplete _ => none
  | .drayEnqueue _ _ => none
  | .drayCommandStart _ _ => none
  | .drayComplete _ _ => none
  | .dwaitRelease _ => none
  | .evwaitRelease _ => none
  | .sleepWake _ => none
  | .eventRecordPost _ => none
  | .eventQueueRead _ => none
  | .viewRequestStart _ _ => none
  | .viewTraversalEnd _ => none
  | .shadingLaunch _ _ _ => none
  | .ticketCommit _ => none
  | .pageRequestPost _ _ => none
  | .pageRequestCompletion _ _ => none
  | .rakePlace _ _ _ _ _ => none
  | .timeSlice _ => none
  | .swapInPromote _ _ => none
  | .quadHaulChange _ => none
  | .taskDispatch _ => none
  | .quadIdle _ => none
  | .quadGate _ => none
  | .quadWake _ => none
  | .watchdogExpiry _ => none
  | .preemptionRequest _ _ => none
  | .preemptionDeadline _ _ => none
  | .rakeSave _ _ => none
  | .vfSliceSwitch _ => none
  | .clockChange _ _ => none
  | .clockStable _ => none
  | .ricWrite _ _ => none
  | .powerLimitCrossed _ => none
  | .bandGate _ _ => none
  | .bandWake _ _ => none
  | .flitRetry _ _ _ => none
  | .linkRetrain _ _ _ _ => none
  | .uncorrectableError _ _ _ _ => none
  | .scrub _ _ _ _ _ => none
  | .functionLevelReset _ => none
  | .tdispLockInterface _ _ => none
  | .interfaceError _ => none
  | .stubAppend _ _ _ => none
  | .ingressAccess _ _ _ => none
  | .kick _ _ _ => none
  | .kickRewalk _ _ => none
  | .pendingKickTake _ _ => none
  | .packetFetch _ => none
  | .nopPacket _ _ => none
  | .launchPacket _ _ => none
  | .signalPacket _ _ => none
  | .waitPacket _ _ => none
  | .waitPoll _ _ => none
  | .waitTimeout _ _ => none
  | .fencePacket _ _ => none
  | .markerPacket _ _ => none
  | .dcopyPacket _ _ => none
  | .leaseRenew => none
  | .leaseTakeover _ => none
  | .leaseFallback _ => none
  | .firmwareLoad _ _ => none
  | .destroyq _ _ => none
  | .abort _ _ => none
  | .save _ _ => none
  | .migout _ _ => none
  | .migin _ _ => none
  | .stubret _ _ => none
  | .pgmig _ _ => none
  | .pageMigrationRound _ => none
  | .pageMigrationFreeze _ => none
  | .pstable _ _ => none
  | .psreg _ _ => none
  | .prring _ _ => none
  | .errcnt _ _ => none
  | .compat _ _ => none
  | .mailboxCompletion _ _ => none
  | .mailboxDoorbell _ _ => none
  | .gatingComplete _ => none
  | .wakeChainEnd => none
  | .dcopyPacketComplete _ _ => none
  | .deviceReset => none

/-- The word of an instruction, as LTVAL reports it (R111); zero for a step that has none. -/
def Instr.word (i : Instr) : Word := (encode i).getD 0#32

/-- The class of a word (R99). -/
inductive Class where
  | lane | group | once
  deriving DecidableEq, Repr

/-- Whether a word names a coach-once instruction by its major, or by its minor where the major is classed by minor,
even when the word fails decoding for another reason (R100). -/
def coachOnce (w : Word) : Bool :=
  match (major w).toNat with
  | 0x00 => (minor w).toNat ∈ [2, 3, 4, 7, 8, 9, 0xA, 0xB, 0xC, 0xD]
  | 0x01 => true
  | 0x02 => true
  | 0x03 => true
  | 0x04 => true
  | 0x05 => true
  | 0x06 => true
  | 0x1F => true
  | 0x28 => (minor w).toNat ≤ 0x0A
  | 0x2C => (minor w).toNat ≤ 0x0E
  | 0x30 => (minor w).toNat ≤ 3
  | 0x34 => (minor w).toNat ∈ [0, 1, 2, 3, 4, 5, 8, 9, 0xA, 0xB, 0xC, 0xD, 0x10, 0x11, 0x12, 0x13, 0x14, 0x15,
      0x18, 0x19, 0x1A, 0x1B]
  | 0x35 => (minor w).toNat ∈ [1, 2, 3, 4, 5, 9, 0xA, 0xB, 0xC, 0xD, 0x11, 0x12, 0x13, 0x14, 0x15]
  | 0x36 => (minor w).toNat ≤ 4
  | 0x3C => (minor w).toNat ∈ [2, 4, 5, 6]
  | _ => false

/-- The bytes of a word, lowest address first (R2). -/
def wordBytes (w : Word) : List Byte :=
  [w.extractLsb' 0 8, w.extractLsb' 8 8, w.extractLsb' 16 8, w.extractLsb' 24 8]

/-- A word from the four bytes at its address (R2). -/
def wordOfBytes (b0 b1 b2 b3 : Byte) : Word := b3 ++ b2 ++ b1 ++ b0

/-- The instruction the decoder reads from a table word of nbits bits whose bits are w: the word's bytes as memory holds
them, put together again and decoded. Every row of the table has 32 bits; bits above nbits are zero. -/
def decodeTableWord (nbits w : Nat) : Option Instr :=
  let x := BitVec.ofNat 32 (w % 2 ^ nbits)
  match decode (wordOfBytes (x.extractLsb' 0 8) (x.extractLsb' 8 8) (x.extractLsb' 16 8) (x.extractLsb' 24 8)) with
  | .ok i => some i
  | .error _ => none

end Sys2Proof
end

