-- ==== Sys2Proof/Machine/Sources.lean ====
section
/-! DEFINITION. The vector registers each instruction reads for a lane, where an uncorrectable error in one is charged to
the lane (R381). -/

namespace Sys2Proof

/-- The register of the high word of a dword operand. -/
def high (z : BitVec 2) (d : BitVec 6) : List (BitVec 6) := if z = 3 then [d + 1] else []

/-- The vector registers an instruction reads. -/
def Instr.vsrcs : Instr → List (BitVec 6)
  | .add _ _ a b | .sub _ _ a b | .mul _ _ a b | .mulh _ _ a b | .min _ _ a b | .max _ _ a b | .div _ _ a b
  | .rem _ _ a b | .and _ _ a b | .or _ _ a b | .xor _ _ a b | .andn _ _ a b | .shl _ _ a b | .shr _ _ a b
  | .sar _ _ a b | .rotl _ _ a b | .bfx _ _ a b | .fldexp _ _ a b | .cmp _ _ a b _ | .sel _ _ a b _
  | .shfli _ _ a b => [a, b]
  | .abs _ _ a | .neg _ _ a | .not _ _ a | .clz _ _ a | .popc _ _ a | .brev _ _ a | .mov _ _ a | .addi _ _ a _
  | .andi _ _ a _ | .ori _ _ a _ | .xori _ _ a _ | .shi _ _ a _ _ | .frcp _ _ a | .frsq _ _ a | .fsqrt _ _ a
  | .fex2 _ _ a | .flg2 _ _ a | .fsint _ _ a | .fcost _ _ a | .fclass _ _ a | .round _ _ a | .unpke _ _ a
  | .shflu _ _ a _ | .shfld _ _ a _ | .shflx _ _ a _ | .rdln _ _ a _ | .first _ _ a | .cmpi _ _ a _ _
  | .sld _ _ a _ _ _ | .qld _ _ a _ _ _ | .psw _ a | .vout _ a _ | .sysc _ a | .hvc _ a => [a]
  | .ld _ _ _ b _ _ _ _ _ | .afxrd _ _ _ b | .afxflg _ _ _ b | .pgreq _ _ _ b | .resq _ _ _ b | .pfetch _ _ b
  | .srwl _ _ b => [b]
  | .bfi _ d a b => [d, a, b]
  | .mad _ _ a b c => [a, b, c]
  | .madn _ _ a b c => [a, b, c]
  | .packe _ _ a => [a, a + 1, a + 2]
  | .cvt _ _ a b _ t => if t = 8 then [a, b] else [a]
  | .st _ d _ b _ _ z _ => [b, d] ++ high z d
  | .sst _ d a _ z => [a, d] ++ high z d
  | .qst _ d a _ z => [a, d] ++ high z d
  | .atom _ d _ b _ o => [b, d] ++ (if o = 9 then [d + 1] else [])
  | .atomn _ d _ b _ o => [b, d] ++ (if o = 9 then [d + 1] else [])
  | .afadd _ d _ b => [b, d]
  | .afxclr _ d _ b => [b, d]
  | .mwra _ d _ => [d, d + 1]
  | .viewl _ _ _ b => [b, b + 1, b + 2, b + 3, b + 4, b + 5]
  | .zeroWordTrap _ _ | .nop _ | .exit _ | .ret _ | .yield _ | .modeg _ _ | .moder _ _ | .exms _ _ | .exmg _ _
  | .exma _ _ | .pswi _ _ | .plq _ _ _ | .ji _ _ | .calli _ _ _ | .laneid _ _ | .ids _ _ _ | .br _ _ _
  | .brn _ _ _ | .jmp _ _ | .call _ _ _ | .brz _ _ _ | .brnz _ _ _ | .mode _ _ _ _ _ _ _ _ | .movi _ _ _
  | .movhi _ _ _ | .fflgr _ _ | .fflgc _ _ | .bcast _ _ _ | .pand _ _ _ _ | .por _ _ _ _ | .pxor _ _ _ _
  | .pandn _ _ _ _ | .pnot _ _ _ | .pmov _ _ _ | .pseta _ _ | .pclr _ _ | .ballot _ _ _ | .popck _ _ _
  | .vany _ _ _ | .vall _ _ _ | .kfromg _ _ _ | .gkand _ _ _ _ | .gkor _ _ _ _ | .gknot _ _ _ | .gadd _ _ _ _
  | .gsub _ _ _ _ | .gmul _ _ _ _ | .gmulhu _ _ _ _ | .gand _ _ _ _ | .gor _ _ _ _ | .gxor _ _ _ _
  | .gandn _ _ _ _ | .gshl _ _ _ _ | .gshr _ _ _ _ | .gsar _ _ _ _ | .gmin _ _ _ _ | .gmax _ _ _ _
  | .gminu _ _ _ _ | .gmaxu _ _ _ _ | .gpopc _ _ _ | .gclz _ _ _ | .gmov _ _ _ | .gdivu _ _ _ _
  | .gremu _ _ _ _ | .gaddi _ _ _ _ | .gmovi _ _ _ | .gmovhi _ _ _ | .gori _ _ _ _ | .gshi _ _ _ _ _
  | .gcmp _ _ _ _ _ | .dbnz _ _ _ | .gld _ _ _ _ | .gst _ _ _ _ | .dcopy _ _ | .dcopyt _ _ | .dcvt _ _
  | .dgath _ _ | .dscat _ _ | .dfill _ _ | .dwait _ _ _ | .dpoll _ _ _ | .publish _ _ | .ppin _ _ _
  | .punpin _ _ _ | .mcfg _ _ | .malloc _ _ _ | .mfree _ _ _ | .mldw _ _ | .mldwt _ _ | .mswap _
  | .mstream _ _ _ | .mstra _ _ _ | .mgather _ _ _ _ | .mrda _ _ _ | .mzero _ _ _ | .gang _ _ | .mtok _ _
  | .mwait _ | .view _ _ _ | .vwait _ _ _ | .vpoll _ _ _ | .vhit _ _ _ | .vlvl _ _ _ | .phase _ _ | .publ _ _
  | .refr _ _ | .ifence _ | .hflush _ | .hinv _ | .evwait _ _ | .bar _ _ | .bara _ _ | .barw _ _ | .tspawn _ _
  | .tdone _ | .tspec _ _ | .tcommit _ _ | .tdiscard _ _ | .tret _ | .bkpt _ _ | .phint _ _ _ | .sleep _ _
  | .tlbi _ _ _ | .srr _ _ _ | .srw _ _ _ | .srrl _ _ _ | .fetchFault | .illegalEncoding _ | .runLimit
  | .parkEnd | .coachSelect _ _ | .trapEntry _ | .writeBufferAdvance _ _ | .snapshotFill _ _ | .coachRetire _
  | .haulRetire _ | .barrierGenerationComplete _ _ | .mallocGrant _ | .bankRelease _ _ | .gangRendezvous _
  | .tokenGrant _ | .arrayOperationComplete _ | .drayEnqueue _ _ | .drayCommandStart _ _ | .drayComplete _ _
  | .dwaitRelease _ | .evwaitRelease _ | .sleepWake _ | .eventRecordPost _ | .eventQueueRead _
  | .viewRequestStart _ _ | .viewTraversalEnd _ | .shadingLaunch _ _ _ | .ticketCommit _ | .pageRequestPost _ _
  | .pageRequestCompletion _ _ | .rakePlace _ _ _ _ _ | .timeSlice _ | .swapInPromote _ _ | .quadHaulChange _
  | .taskDispatch _ | .quadIdle _ | .quadGate _ | .quadWake _ | .watchdogExpiry _ | .preemptionRequest _ _
  | .preemptionDeadline _ _ | .rakeSave _ _ | .vfSliceSwitch _ | .clockChange _ _ | .clockStable _
  | .ricWrite _ _ | .powerLimitCrossed _ | .bandGate _ _ | .bandWake _ _ | .flitRetry _ _ _
  | .linkRetrain _ _ _ _ | .uncorrectableError _ _ _ _ | .scrub _ _ _ _ _ | .functionLevelReset _
  | .tdispLockInterface _ _ | .interfaceError _ | .stubAppend _ _ _ | .ingressAccess _ _ _ | .kick _ _ _
  | .kickRewalk _ _ | .pendingKickTake _ _ | .packetFetch _ | .nopPacket _ _ | .launchPacket _ _
  | .signalPacket _ _ | .waitPacket _ _ | .waitPoll _ _ | .waitTimeout _ _ | .fencePacket _ _
  | .markerPacket _ _ | .dcopyPacket _ _ | .leaseRenew | .leaseTakeover _ | .leaseFallback _
  | .firmwareLoad _ _ | .destroyq _ _ | .abort _ _ | .save _ _ | .migout _ _ | .migin _ _ | .stubret _ _
  | .pgmig _ _ | .pageMigrationRound _ | .pageMigrationFreeze _ | .pstable _ _ | .psreg _ _ | .prring _ _
  | .errcnt _ _ | .compat _ _ | .mailboxCompletion _ _ | .mailboxDoorbell _ _ | .gatingComplete _
  | .wakeChainEnd | .dcopyPacketComplete _ _ | .deviceReset => []

/-- Whether an instruction reads its source register in lanes other than the reader's (R156 to R160). -/
def Instr.exchanges (i : Instr) : Bool :=
  match i with
  | .shfli _ _ _ _ | .shflu _ _ _ _ | .shfld _ _ _ _ | .shflx _ _ _ _ | .rdln _ _ _ _ | .first _ _ _ => true
  | _ => false

end Sys2Proof
end

