-- ==== Sys2Proof/Config.lean ====
section
/-! DEFINITION. What the specification leaves open: constants without a body, so that nothing can be proved of their
values. Each is applied to the state's free-value counter, which every step advances. -/

namespace Sys2Proof

/-- Reference-clock ticks that pass in one step (R9, R21): free value, log 1. -/
opaque Config.ticks : Nat → Nat

/-- Core-clock cycles that pass in one step (R9, R21): free value, log 1. -/
opaque Config.cycles : Nat → Nat

/-- Which of the words that the instruction cache holds for an address a fetch returns; a number beyond them is a miss (R307): free
value, log 4. -/
opaque Config.icachePick : Nat → Nat → Nat

/-- What a core's instruction cache fetches ahead in a step: address and home of each word (R307): free value, log 4. -/
opaque Config.prefetch : Nat → Nat → List (Nat × Nat)

/-- Whether a translation that a TLB holds for an address is still held: counter, key of TLB and address (R203): free value,
log 5. -/
opaque Config.tlbKeeps : Nat → Nat → Bool

/-- Whether the host IOMMU accepts an access to host memory: PASID, I/O address, write (R201, R202): free value, log 6. -/
opaque Config.iommuAllows : Nat → Nat → Bool → Bool

/-- Whether die 0's controller comes to establish the first lease after a load (R63 has followers that wait for it): free
value, log 23. -/
opaque Config.die0Starts : Nat → Bool

/-- Whether firmware makes a non-present queue-table entry present, or clears its V bit (R57): free value, log 70. -/
opaque Config.makesPresent : Nat → Bool

/-- The device address at which the leader keeps the n-th entry of its journal (R64 says in HBM): free value, log 69. -/
opaque Config.journalAt : Nat → Nat

/-- The device address at which the die controller keeps the FIFO entry of a view request, by its number (R279): free value,
log 69. -/
opaque Config.fifoAt : Nat → Nat

/-- The device address at which the device keeps a rake that it has saved, by haul and rake (R352 says in memory that the firmware
holds): free value, log 69. -/
opaque Config.savedAt : Nat → Nat → Nat

/-- The granules that the view engine reads in a step for a request under way, by counter and request (R292): free value, log 81. -/
opaque Config.viewReads : Nat → Nat → List Nat

/-- Whether a unit's corrected errors have passed its threshold of one hour; R383 gives no threshold: free value, log 21. -/
opaque Config.degrades : Nat → Bool

/-- The number of the die on which a rake of a SAVED image was first placed, where the image does not name it, by haul and rake; R316
keeps it and R40 has no field for it: free value, log 46. -/
opaque Config.savedDie : Nat → Nat → Nat

/-- The words that VWAIT finds where the tile area of an image can be read no more, by number; R365 leaves them open: free value,
log 17. -/
opaque Config.tileWord : Nat → Nat → BitVec 32

end Sys2Proof
end

