-- ==== Sys2Proof/Machine/State.lean ====
section
/-! DEFINITION. The state of the B4: everything the specification gives the device, as plain data. Units that exist in
numbers (cores, quads, virtual functions, coaches, hauls) are held in lists keyed by their number; the coach whose word
is next to issue is held apart, in focus, as the field `co`. Memories at their homes (R295) share one flat list of
bytes: an address of that list is a home tag times 2^52 plus the address in that home (Ops.lean). -/

namespace Sys2Proof.Machine

/-- Privilege modes (R328). -/
inductive Mode where
  | u | s | h
  deriving DecidableEq, Repr

/-- A code segment: base, plane count less 1 and stride code (R329). -/
structure Seg where
  base : BitVec 52
  plm1 : BitVec 2
  lst  : BitVec 5
  deriving DecidableEq, Repr

/-- A trap cause with what LTCAUSE and LTVAL record for it (R110, R111), and whether that is an address (R373). -/
structure Cause where
  code : BitVec 8
  sub  : BitVec 4
  ahi  : BitVec 20
  val  : Word
  addr : Bool
  deriving DecidableEq, Repr

/-- A trap frame (R336). -/
structure Frame where
  saveExm : LaneMask
  tmask   : LaneMask
  saveOff : Word
  mode    : Mode
  rx      : Bool
  saveSeg : Dword
  planes  : Vector (BitVec 2) 32
  modes   : Vector Word 4
  deriving DecidableEq, Repr

/-- Where a load's value goes, resolved at issue (R116). -/
inductive LoadDest where
  /-- physical registers of the low and the high word, the lane, sign extension -/
  | lane (lo hi lane : Nat) (sx : Bool)
  /-- group register, with the EXM lanes of the plane that loaded it -/
  | group (g : BitVec 6) (lanes : LaneMask)
  deriving DecidableEq, Repr

/-- A result deferred to the park (R115, R116). -/
inductive Deferred where
  /-- lanes of a physical register, with the flags that land with it (R170) -/
  | vreg (phys : Nat) (lanes : LaneMask) (val : LaneVec) (flags : BitVec 5)
  | greg (g : BitVec 6) (val : Dword)
  | pred (k : BitVec 5) (lanes val : LaneMask)
  /-- a load: home address of its first byte, each byte already known from the write buffer or the snapshot, and the
  cause to record when its data hold an uncorrectable error (R117) -/
  | load (dest : LoadDest) (addr : Nat) (known : List (Option Byte)) (ecc : Cause)
  /-- FFLGR: FFLAGS as they stand when it is written (R184) -/
  | flags (phys : Nat) (lanes : LaneMask)
  /-- MRDA: its number, the two physical registers, lanes, type, rounding mode and SAT, and once the array has read the
  row the lane values of both registers with the flags (R256, R242) -/
  | row (id lo hi : Nat) (lanes : LaneMask) (type : BitVec 4) (rm : BitVec 2) (got : Option (LaneVec × LaneVec × BitVec 5))
  deriving DecidableEq, Repr

/-- What a coach waits for after its park (R112, WAIT of R41). -/
inductive Wait where
  | none
  | barrier (scope : BitVec 3)
  | vwait (ticket : Dword) (d : BitVec 6)
  | evwait (value : Dword)
  /-- virtual address of the counter, its home address, and the value waited for -/
  | dwait (addr home : Nat) (value : Dword)
  | sleep (time : Dword)
  | token
  | malloc (n : Nat) (d : BitVec 6)
  | latch
  /-- VIEW or VIEWL with four tickets outstanding (R277 step 2): the word, G[a], and VIEWL's lanes with V[b..b+5] as they
  stood at issue -/
  | view (i : Instr) (g : Dword) (lanes : Option (List (Nat × List Word)))
  /-- TDONE held by a full event queue (R83) -/
  | tdone
  /-- BARA or BAR at a scope whose arrival is pending: waits out the generation, then arrives (R317);
  full says whether BARW follows -/
  | rearrive (scope : BitVec 3) (full : Bool)
  /-- IFENCE: the coach's segment leaves the instruction cache at the park (R312) -/
  | ifence
  /-- TRET: the return is made at the park (R340) -/
  | tret
  /-- EXIT: the coach retires after the park (R124) -/
  | exit
  /-- restored from an image with WAIT 2 to 5: its recorded wait, with the operands the image's writer left beside the records,
  else those of the word before OFF (R353): DEDUCED, log 15 -/
  | recorded (code : Nat) (operands : Option (Dword × Dword))
  deriving DecidableEq, Repr

/-- The stages of a coach (R73, R112, R117, R124, R334, R350). -/
inductive Phase where
  | absent | ready | issuing | parked | waiting | retiring | halted | saved
  deriving DecidableEq, Repr

/-- A write-buffer entry (R296): home address and bytes; atCore once it has travelled to the core point. -/
structure WEntry where
  id     : Nat
  addr   : Nat
  bytes  : List Byte
  atCore : Bool
  deriving DecidableEq, Repr

/-- A global granule held at a core point (R295, R298), with the coach and the entry that placed it. -/
structure CoreCopy where
  core  : Nat
  addr  : Nat
  word  : Word
  coach : Nat
  entry : Nat
  deriving DecidableEq, Repr

/-- A copy of a host-memory granule at the pkg point (R295, R308, R313), with the VF and ASID of each address space that
filled or wrote it; an ASID is a VF's own (R203). -/
structure HostCopy where
  addr  : Nat
  word  : Word
  dirty : Bool
  owners : List (Nat × BitVec 16)
  deriving DecidableEq, Repr

/-- What a tile needs to land: d, words, pixels, VIEWL's lanes, the status word, FILL. -/
structure TileShape where
  d     : BitVec 6
  words : Nat
  wh    : Nat
  lanes : Option (List Nat)
  status : Dword
  fill  : Word
  deriving DecidableEq, Repr

/-- An outstanding ticket (R285): slot, the ticket dword, the request that serves it, and of a ticket reattached from an image
the tile data address with the tile's shape as it was read at acceptance (R33, R365). -/
structure Ticket where
  slot   : Nat
  dword  : Dword
  req    : Nat
  tile   : Option (Nat × TileShape)
  deriving DecidableEq, Repr

/-- Which coach this is and where it sits (R26, R70, R71, R131). -/
structure CoachId where
  id    : Nat
  haul  : Nat
  rake  : Nat
  cidx  : Nat
  level : Nat
  core  : Nat
  rel   : Nat
  slot  : Nat
  port  : Nat
  /-- the view request a shading coach works for, and its index among the request's coaches (R283) -/
  view  : Option (Nat × Nat)
  /-- shading slot of the lift (R36) -/
  shade : Nat
  deriving DecidableEq, Repr

/-- The register files (R4, R137). -/
structure Regs where
  v     : Vector LaneVec 256
  /-- physical register and lane of each word that holds an uncorrectable error (R381) -/
  bad   : List (Nat × Nat)
  preg  : Nat
  g     : Vector Dword 64
  k     : Vector LaneMask 32
  gk    : BitVec 16
  deriving DecidableEq, Repr

/-- Masks, planes and plane modes (R6, R95). -/
structure Masks where
  exm    : LaneMask
  live   : LaneMask
  plane  : Vector (BitVec 2) 32
  modes  : Vector Word 4
  deriving DecidableEq, Repr

/-- Register window, return stack and spill stack, and the rake's scratchpad and quad memory (R30, R137). -/
structure Window where
  win     : Nat
  hr      : Nat
  rsp     : Nat
  rspBase : Nat
  rspEnd  : Nat
  sps     : Nat
  spsBase : Nat
  spsEnd  : Nat
  /-- first pool byte of the rake's scratchpad allocation on this core, its size, and SCRB or SSCR -/
  scrBase : Nat
  scrSize : Nat
  scrProg : Nat
  /-- the KiB of the core's pool that hold the coach's registers, eight registers each (R15, R30) -/
  regPool : List Nat
  qmBase  : Nat
  qmSize  : Nat
  deriving DecidableEq, Repr

/-- The segment being fetched, its limit, and the home segment with its length (R329, R330). -/
structure Segs where
  seg     : Seg
  lim     : Nat
  home    : Seg
  homeLen : Nat
  deriving DecidableEq, Repr

/-- The group special registers that belong to the coach (R107). -/
structure Special where
  fflags : BitVec 5
  gang   : Dword
  asr    : BitVec 4
  mcfgr  : Dword
  pgc    : Dword
  posted : Dword
  nbound : Nat
  asid   : BitVec 16
  ptbase : Dword
  svec   : Dword
  hcause : Dword
  deriving DecidableEq, Repr

/-- Privilege, trap stack and the lane trap registers (R109, R328, R336). -/
structure Traps where
  mode    : Mode
  /-- newest first -/
  frames  : List Frame
  ltcause : Vector Word 32
  ltval   : Vector Word 32
  /-- a trap held through a clock change (R342) -/
  held    : Bool
  /-- lanes with an uncorrectable error in a deferred result, to be taken at the park (R117) -/
  ecc     : List (Nat × Cause)
  /-- the same where the word named no lane (R106, R117) -/
  eccBare : Option Cause
  deriving DecidableEq, Repr

/-- The issue of the current offset and run (R94, R100, R112, R341). -/
structure Issue where
  phase   : Phase
  wait    : Wait
  /-- OFF, the offset being issued; a target below 0 is kept as it is (R92) -/
  off     : Int
  /-- NEXT, where issue continues (R121) -/
  next    : Int
  /-- whether the words of the offset have been fetched and checked (R100) -/
  open_   : Bool
  plane   : BitVec 2
  /-- occupied planes still to issue after this one -/
  todo    : List (BitVec 2)
  words   : Vector Word 4
  /-- offsets issued in this run (R112) -/
  count   : Nat
  marked  : Bool
  ends    : Bool
  /-- the causes recorded at this offset: lane and cause (R106) -/
  traps   : List (Nat × Cause)
  /-- a trap with an empty lane set (R106) -/
  bare    : Option Cause
  /-- lanes X of a re-execution (R341) -/
  rex     : Option LaneMask
  /-- lanes of the word that is due that read a register holding an uncorrectable error, each with the cause it records
  when the word has issued (R106, R381) -/
  bad     : List (Nat × Cause)
  deferred : List Deferred
  /-- ASID, PTBASE and S2BASE (of a VF) written at this offset, in force from the next (R349) -/
  newAsid : Option (BitVec 16)
  newRoot : Option Dword
  newS2   : List (Nat × Dword)
  /-- groups to spill, or to refill, at the park, each with its scratchpad home (R141) -/
  spill   : List (Nat × Nat)
  refill  : List (Nat × Nat)
  /-- when the coach last became ready, and whether it yielded (R74, R123) -/
  since   : Nat
  yielded : Bool
  /-- value of State.fresh at the coach's start or last IFENCE: no word it fetches is older (R307) -/
  codeSince : Nat
  deriving DecidableEq, Repr

/-- Pre-emption (R350, R351): request pending, and the save point with the registers and scratchpad range it names. -/
structure Preempt where
  pending : Bool
  atSave  : Bool
  /-- saved in full: every register and the whole program scratchpad -/
  full    : Bool
  vlive   : List Nat
  start   : Nat
  len     : Nat
  /-- TIME of the request (R350) -/
  since   : Dword
  deriving DecidableEq, Repr

/-- A coach (R26). -/
structure Coach where
  ident   : CoachId
  regs    : Regs
  masks   : Masks
  window  : Window
  segs    : Segs
  special : Special
  traps   : Traps
  issue   : Issue
  wbuf    : List WEntry
  snap    : List (Nat × Word)
  /-- granules of publish sets read through their base range since the last refresh: set, offset and the home they
  resolved to (R305) -/
  sets    : List (Nat × Nat)
  tickets : List Ticket
  tcount  : Nat
  /-- pending barrier arrivals and completed generations, bit s (R317, R318) -/
  pendb   : BitVec 8
  pdone   : BitVec 8
  preempt : Preempt
  deriving DecidableEq, Repr

/-- A snapshot of MCFGR and ASR (R246). -/
structure MSnap where
  cfg : Dword
  asr : BitVec 4
  deriving DecidableEq, Repr

/-- A gang instruction as a member issued it, while it waits at the latch or for the token (R261, R262, R265): coach and
slot, minor, G[a] (for a weight load the home of its tile), the rows of its stream as pairs of the home of the activation
row and the accumulator row, snapshot, GANG value and word. -/
structure Latched where
  coach : Nat
  slot  : Nat
  op    : Nat
  a     : Nat
  rows  : List (Nat × Nat)
  snap  : MSnap
  gang  : Dword
  word  : Word
  deriving DecidableEq, Repr

/-- An operation the array has still to perform, in the core's order (R241, R242); members are the coaches that issued or
joined it. -/
inductive ArrayOp where
  /-- MLDW (false) or MLDWT (true) of the tile at a home -/
  | load (members : List Nat) (transposed : Bool) (addr : Nat) (snap : MSnap)
  | swap (members : List Nat)
  /-- rows still to inject, as homes of activation rows and accumulator rows; fresh says MSTREAM -/
  | stream (members : List Nat) (fresh : Bool) (rows : List (Nat × Nat)) (snap : MSnap)
  /-- MRDA's read of a row for a deferred result -/
  | read (coach id row : Nat)
  | write (coach row : Nat) (val : List Word)
  | zero (coach row n : Nat)
  deriving DecidableEq, Repr

/-- A core (R22, R238 to R268). -/
structure Core where
  ric    : BitVec 5
  cycle  : Dword
  token  : LaneMask
  /-- each held bank with the coach that holds it (R247) -/
  banks  : List (Nat × Nat)
  /-- banks whose release waits for earlier operations (R249) -/
  freeing : List Nat
  latch  : List Latched
  /-- joint operations waiting for the token, oldest first (R265) -/
  joint  : List (List Latched)
  queue  : List ArrayOp
  /-- waiting MALLOCs in order of issue: coach, count, destination (R248) -/
  mallocs : List (Nat × Nat × BitVec 6)
  /-- instruction cache: virtual address, home, word, and the value of State.fresh at which it was read (R307) -/
  icache : List (Nat × Nat × Word × Nat)
  /-- whether the cache fetches ahead: a coach has come to the core or fetched on it (model's own; log 4) -/
  warm   : Bool
  gated  : BitVec 4
  /-- TIME at which an operation that selected the band was last performed (R378) -/
  bandUsed : Vector Dword 4
  part   : Word
  deriving DecidableEq, Repr

/-- A Dray command in a channel's queue (R223, R227). -/
structure DrayCmd where
  coach  : Nat
  haul   : Nat
  core   : Nat
  slot   : Nat
  op     : Nat
  src    : Dword
  dst    : Dword
  dims   : Dword
  strides : Dword
  counter : Dword
  flags  : Dword
  /-- translation context of the issuer: VF, ASID, table root, mode, speculative task -/
  vf     : Nat
  asid   : BitVec 16
  ptbase : Dword
  mode   : Mode
  spec   : Bool
  /-- scratchpad bases of relative cores 0-3 as (core, base, size), and the quad memory's base and size -/
  scr    : List (Nat × Nat × Nat)
  qm     : Nat × Nat
  /-- SHADOW: the shadow slot of each of the VF's sets at the start (R235) -/
  shadow : Option (List (Nat × Option Nat))
  /-- elements (blocks under DCVT) moved so far, the index word of the current row, the status so far (R228, R230) -/
  pos    : Nat
  index  : Nat
  status : Nat
  deriving DecidableEq, Repr

/-- An event record (R82). -/
structure EventRec where
  kind   : BitVec 8
  status : BitVec 8
  src    : BitVec 8
  chan   : BitVec 8
  count  : Word
  addr   : Dword
  deriving DecidableEq, Repr

/-- A lift of a quad (R36, R279): free request slots, FIFO of requests, free shading slots. -/
structure Lift where
  level  : Nat
  free   : Nat
  fifo   : List Nat
  shade  : List Nat
  /-- requests that left the FIFO, in order (R283) -/
  serving : List Nat
  deriving DecidableEq, Repr

/-- Power states of a quad (R85, R86, R378). -/
inductive Power where
  | on | idle | gating | gated | waking
  deriving DecidableEq, Repr

/-- One Dray channel (R227): queued commands, the running command, commands that found the queue full. -/
structure Channel where
  queue   : List DrayCmd
  running : Option DrayCmd
  held    : List DrayCmd
  deriving DecidableEq, Repr

/-- A quad. -/
structure Quad where
  haul   : Option Nat
  vf     : Nat
  /-- TIME since which the serving VF holds the quad (R358) -/
  vfSince : Dword
  lifts  : List Lift
  events : List EventRec
  held   : List EventRec
  chans  : Vector Channel 4
  power  : Power
  clock  : Nat
  changing : Bool
  /-- clock waiting to become stable -/
  target : Nat
  /-- TIME since which nothing is pending on it (R85) -/
  idleFrom : Option Dword
  /-- last event record its sequencer read -/
  lastRead : Option EventRec
  /-- the haul that waits for the quad, drained for it (R72, R76) -/
  draining : Bool
  deriving DecidableEq, Repr

/-- The header of a haul image (R32). -/
structure Header where
  kind   : Nat
  plcnt  : Nat
  prio   : Nat
  segb   : Nat
  seglen : Nat
  entry  : Nat
  args   : Dword
  rakes  : Nat
  lanes  : Nat
  pregs  : Nat
  part   : Word
  scrb   : Nat
  qmb    : Nat
  spill  : Nat
  rstk   : Nat
  nbound : Nat
  slice  : Nat
  deadline : Nat
  watchdog : Nat
  next   : Nat
  lifts  : Nat
  rtab   : Nat
  nrec   : Nat
  compat : Dword
  deriving DecidableEq, Repr

/-- A lift table entry (R36). -/
structure LiftDesc where
  reqs   : Nat
  scoach : Nat
  spregs : Nat
  srstk  : Nat
  sscr   : Nat
  sspill : Nat
  deriving DecidableEq, Repr

/-- A rake saved out by a time slice, in firmware-held memory (R352): its coaches as they stood, and the bytes of quad
memory, scratchpads and weights by their place in the rake, with the members (by coach index) of the gangs that owned
tokens, by relative core (R268). -/
structure SavedRake where
  rake    : Nat
  /-- its die, of one read from an image that names it (R316; log 46) -/
  die     : Option Nat
  coaches : List Coach
  qm      : List (Nat × Byte)
  /-- relative core, address in the allocation, byte -/
  scr     : List (Nat × Nat × Byte)
  /-- relative core, byte in the two planes, byte -/
  wgt     : List (Nat × Nat × Byte)
  /-- coach index, bank number, and the bank's bytes that are not 0 -/
  acc     : List (Nat × Nat × List (Nat × Byte))
  owners  : List (Nat × List Nat)
  deriving DecidableEq, Repr

/-- A resident rake (R69, R70). -/
structure Rake where
  haul  : Nat
  rake  : Nat
  quad  : Nat
  rot   : Nat
  /-- TIME since which it is resident (R76) -/
  since : Dword
  qmBase : Nat
  /-- pool base of its scratchpad on relative cores 0-3 -/
  scr   : List Nat
  deriving DecidableEq, Repr

/-- A haul accepted and not yet forgotten (R60, R372). -/
structure Haul where
  id     : Nat
  vf     : Nat
  pasid  : Nat
  asid   : BitVec 16
  ptroot : Dword
  prio   : Nat
  image  : Nat
  record : Nat
  signal : Nat
  /-- queue and packet index that launched it -/
  packet : Option (Nat × Nat)
  /-- number of the queue it was launched from, in its VF and PASID, while that queue is not destroyed (R52) -/
  qno    : Option Nat
  tcb    : Option Nat
  spec   : Bool
  committed : Bool
  psets  : List Nat
  hdr    : Header
  lifts  : List LiftDesc
  launchNo : Word
  tAccept : Dword
  nextRake : Nat
  /-- rakes of a SAVED image waiting to resume, and rakes saved out by a time slice (R39, R76) -/
  saved  : List SavedRake
  rakesDone : Nat
  /-- status, DETAIL and FADDR once it has ended otherwise than by its last EXIT (R374) -/
  ended  : Option (Nat × Word × Dword)
  /-- it ends without completion record and signal (R360) -/
  silent : Bool
  /-- its successors have been released, or the release is held (R80, R84) -/
  released : Bool
  heldRelease : Bool
  /-- retired, with its completion recorded -/
  retired : Bool
  /-- TIME counted by the watchdog, and since when it counts (R38) -/
  watch  : Nat
  watchFrom : Option Dword
  /-- TIME at step 1 of R372 -/
  tEnd   : Dword
  /-- quad of the coach that retired last, and its core and slot as an event record gives them (R81, R82) -/
  last   : Nat × BitVec 8
  /-- first die of each rake placed so far (R316) -/
  dies   : List (Nat × Nat)
  /-- coaches retired in each rake that has not retired, each at its EXIT with its files freed (R371) -/
  gone   : List (Nat × List Coach)
  /-- when each waiting rake joined the swap-in queue (R77), and the rakes that have moved to its head -/
  waits  : List (Nat × Dword)
  promoted : List Nat
  /-- the mailbox command that saves it: block and slot (R350, R352) -/
  saving : Option (Nat × Nat)
  deriving DecidableEq, Repr

/-- A view descriptor (R271). -/
structure ViewDesc where
  cam    : Nat
  scene  : Nat
  cut    : Dword
  shseg  : Nat
  entry  : Nat
  shlen  : Nat
  res    : Nat
  shpl   : Nat
  out0   : Nat
  out1   : Nat
  lodb   : Int
  fill   : Word
  maxd   : Word
  sharg  : Dword
  deriving DecidableEq, Repr

/-- A camera record (R272): ORG, FWD, RIGHT, UP as F32 words, KIND, TANH, NEAR, FAR. -/
structure Camera where
  vecs : Vector Word 12
  kind : Nat
  tanh : Word
  near : Word
  far  : Word
  deriving DecidableEq, Repr

/-- A scene book header (R273). -/
structure Scene where
  ninst : Nat
  nnode : Nat
  inst  : Nat
  nodes : Nat
  tris  : Nat
  ntri  : Nat
  topRoot : Nat
  topNodes : Nat
  ntop  : Nat
  deriving DecidableEq, Repr

/-- A view request and its ticket's state (R277 to R284). -/
structure ViewReq where
  id     : Nat
  coach  : Nat
  haul   : Nat
  quad   : Nat
  rake   : Nat
  lift   : Nat
  /-- d of the instruction (R285) -/
  d      : BitVec 6
  /-- VIEWL's requesting lanes with V[b..b+5] of each; none for VIEW -/
  lanes  : Option (List (Nat × List Word))
  desc   : ViewDesc
  cam    : Camera
  scene  : Scene
  /-- translation context of the requester -/
  vf     : Nat
  asid   : BitVec 16
  ptbase : Dword
  mode   : Mode
  nbound : Nat
  ticket : Dword
  /-- request slots it needs, and whether it holds them -/
  slots  : Nat
  started : Bool
  traversed : Bool
  status : Nat
  failAddr : Word
  /-- pixel words: word w of pixel i of the requesting lane of rank n lies at (n × WORDS + w) × WH + i -/
  tile   : List Word
  /-- hit record fields 0-15 of each dealt pixel (R290) -/
  hits   : List (List Word)
  /-- granules of the scene read before the end of traversal: home and word, none where the read met an error (R292) -/
  seen   : List (Nat × Option Word)
  launched : Nat
  retired : Nat
  deriving DecidableEq, Repr

/-- A TCB the device holds as spawned (R320). -/
structure Held where
  tcb   : Nat
  /-- VF, ASID, root, PASID of the spawner (R79) -/
  pasid : Nat
  asid  : BitVec 16
  ptroot : Dword
  vaddr : Nat
  spec  : Bool
  committed : Bool
  deriving DecidableEq, Repr

/-- Page-request and completion rings of an ASID (R219): guest physical addresses and log sizes. -/
structure Rings where
  asid : BitVec 16
  req  : Nat
  comp : Nat
  logReq : Nat
  logComp : Nat
  deriving DecidableEq, Repr

/-- A page request held or to be posted (R219). -/
structure PageReq where
  asid : BitVec 16
  va   : Nat
  tag  : Dword
  size : BitVec 2
  deriving DecidableEq, Repr

/-- A registered publish set, as the selector arrays and the device hold it (R234): set id, home of its entry, and the
entry's fields. -/
structure PSet where
  id     : Nat
  entry  : Nat
  base   : Nat
  length : Nat
  nslot  : Nat
  cur    : Nat
  pinned : BitVec 3
  refused : Word
  gen    : Dword
  slots  : List Nat
  deriving DecidableEq, Repr

/-- A virtual function (R356). -/
structure Vf where
  quads  : Dword
  memp   : Dword
  queues : Dword
  slice  : BitVec 16
  dpasid : BitVec 20
  lock   : Bool
  flrb   : Bool
  shr    : Bool
  en     : Bool
  s2base : Dword
  key    : Dword
  launches : Word
  deferred : List Nat
  ready  : List (Nat × Nat)
  tasks  : List Held
  /-- publish-set table: guest physical address and entries; registered ids (R234) -/
  pstable : Nat × Nat
  psets  : List PSet
  rings  : List Rings
  requests : List PageReq
  /-- migration stub: blackout and the command that began it, its entries (device address, access), and whether the
  source forwards (R355) -/
  blackout : Option (Nat × Nat)
  stub   : List (Nat × Ingress)
  forwarding : Bool
  /-- the frame map of the image it left with: guest physical address, device address, size in bits (R355) -/
  frameMap : List (Nat × Nat × Nat)
  /-- accesses held at the peers' Coupler ports during a blackout: port, device address, access; and the accesses handed on
  to the destination, in order of arrival, by guest physical address (R355) -/
  held   : List (Nat × Nat × Ingress)
  sent   : List (Nat × Ingress)
  /-- kicks held on a non-present entry: entry address, word, PASID (R57) -/
  heldKicks : List (Nat × Word × BitVec 20)
  /-- measurement taken when its interface was locked: SHA3-384 hashes (R361, R362) -/
  measured : List (BitVec 384)
  /-- interface in ERROR (R363) -/
  error  : Bool
  /-- session key of a lock request whose rakes are being saved (R350, R362) -/
  locking : Option Dword
  deriving DecidableEq, Repr

/-- A packet read from a queue (R50, R53). -/
structure Packet where
  index : Nat
  bytes : List Byte
  started : Bool
  done  : Bool
  /-- TIME at its start -/
  at_   : Dword
  deriving DecidableEq, Repr

/-- A queue as the leader serves it (R53, R55, R58, R59, R64). -/
structure Queue where
  id    : Nat
  vf    : Nat
  pasid : Nat
  qno   : Nat
  /-- device physical address of its QCB -/
  qcb   : Nat
  /-- RDIDX as the leader keeps and journals it; the QCB's holds the same (R55, R64) -/
  rdidx : Nat
  packets : List Packet
  /-- the bytes of a packet that has been read and not yet journalled (R64, R65) -/
  reading : Option (List Byte)
  /-- FORCE destroys in progress: mailbox block and slot of each (R66) -/
  force : List (Nat × Nat)
  stopped : Bool
  deriving DecidableEq, Repr

/-- A mailbox command taken and not yet completed (R47). -/
structure Command where
  block : Nat
  slot  : Nat
  op    : Nat
  args  : List Dword
  vf    : Nat
  started : Bool
  /-- status and value once it has ended -/
  result : Option (Nat × Dword)
  deriving DecidableEq, Repr

/-- What a journal entry records (R64): a queue's packets with what has started, completed or waits; a VF's deferred list;
a mailbox command; a held completion. -/
inductive JItem where
  | queue (q : Queue)
  | deferred (vf : Nat) (ids : List Nat)
  | command (c : Command)
  | held (haul : Nat)
  deriving DecidableEq, Repr

/-- A journal entry, tagged with the epoch of the leader that wrote it (R64). -/
structure JEntry where
  epoch : Nat
  item  : JItem
  deriving DecidableEq, Repr

/-- A page migration in progress (R221): page and size in bits, old and new home of each 32 KiB piece of the page, the
leaves to rewrite (home of the entry, new address), whether it moves for every address space of the VF, dirty lines, rounds,
command. -/
structure Migration where
  id    : Nat
  vf    : Nat
  asid  : BitVec 16
  va    : Nat
  bits  : Nat
  pieces : List (Nat × Nat)
  leaves : List (Nat × Nat)
  whole : Bool
  dirty : List Nat
  rounds : Nat
  frozen : Bool
  block : Nat
  slot  : Nat
  deriving DecidableEq, Repr

/-- A TLB: a core's, or a die's last-level TLB (R17, R203). -/
inductive TlbUnit where
  | core (n : Nat)
  | die (d : Nat)
  deriving DecidableEq, Repr

/-- A TLB entry (R203): the TLB that holds it, VF and ASID, the part of a page that one frame of both stages maps with its
size in bits, the first-stage page's size in bits and leaf, the home of the frame (none is used for a publish set, whose
slot is resolved at each access), and the second stage's W, X and D. -/
structure TlbEntry where
  unit  : TlbUnit
  vf    : Nat
  asid  : BitVec 16
  page  : Nat
  bits  : Nat
  pbits : Nat
  leaf  : Dword
  frame : Nat
  s2w   : Bool
  s2x   : Bool
  s2d   : Bool
  deriving DecidableEq, Repr

/-- The device's own registers and units. TIME is one register for all four dies: the skew of at most one tick that R21
allows between them is always 0 (DESIGN CHOICE, log 68). -/
structure Device where
  time   : Dword
  vfsel  : Nat
  cmxsel : Nat
  cmxrow : Vector Dword 72
  hvec   : Dword
  /-- pending-kick bitmaps of dies 0-3 (R58) -/
  kicks  : Vector (BitVec 4096) 4
  stepping : Byte
  fwLevel : Word
  /-- epoch and holder the acting leader believes in, none when no controller serves (R61, R62) -/
  leader : Option (Nat × Nat)
  /-- controllers that still believe in a lease another has taken from them: epoch and die (R62) -/
  superseded : List (Nat × Nat)
  /-- the leader's journal in HBM, outside what any address names (R64); DESIGN CHOICE, log 69 -/
  journal : List JEntry
  /-- whether firmware has been loaded, and TIME at the start of the controllers (R63) -/
  fwLoaded : Bool
  fwStart  : Dword
  /-- completions held while no controller holds the lease: hauls in retirement order (R65) -/
  heldCompletions : List Nat
  /-- wakes queued at the in-rush arbiter, first granted: false quad or true band, unit number (R378) -/
  wakes  : List (Bool × Nat)
  /-- error counts: die, unit code, index, corrected, uncorrectable, degraded (R383) -/
  errors : List (Nat × Nat × Nat × Nat × Nat × Bool)
  poison : List Nat
  /-- granules whose access over a crossbar or a Coupler fails, with the value of State.fresh at which it does (R380) -/
  lost   : List (Nat × Nat)
  /-- doorbell writes held while no firmware serves the mailbox: block and value, in arrival order (R47) -/
  doorbells : List (Nat × Word)
  deriving DecidableEq, Repr

/-- Who moves next (model's own; R10 leaves the interleaving of the device's agents open). -/
inductive Turn where
  /-- a step of the device or of its surroundings -/
  | event (i : Instr)
  /-- this coach comes into focus -/
  | coach (id : Nat)
  /-- the acting leader's controller stops, as R65's example has it -/
  | stop
  deriving DecidableEq, Repr

/-- The state of the device. -/
structure State where
  /-- the coach in focus -/
  co      : Coach
  coaches : List Coach
  cores   : List (Nat × Core)
  quads   : List (Nat × Quad)
  vfs     : List (Nat × Vf)
  hauls   : List Haul
  rakes   : List Rake
  views   : List ViewReq
  queues  : List Queue
  commands : List Command
  migrations : List Migration
  /-- every memory at its home, addresses rising, no entry equal to 0 -/
  mem     : List Host.Cell
  corePts : List CoreCopy
  hostCopies : List HostCopy
  tlb     : List TlbEntry
  dev     : Device
  schedule : List Turn
  /-- free-value counter, and the next unused number for coaches, entries, hauls and requests -/
  fresh   : Nat
  nextId  : Nat
  deriving DecidableEq, Repr

/-- Why the machine stops. The specification gives every case an effect (a trap, a queue error, a status), so no meaning
raises one today. -/
inductive Fault where
  /-- An access to a home that does not exist; raised by nobody: such an access takes PROT (R194, R359). Safe. -/
  | noSuchHome (addr : Nat)
  deriving DecidableEq, Repr

/-- Why an instruction has no meaning. -/
inductive Refusal where
  /-- The instruction of this mnemonic is not modelled yet; raised by the dispatch arm itself. Safe. -/
  | notModelled (mnemonic : String)
  deriving DecidableEq, Repr

/-- The reset value of a mode register (R95). -/
def modeReset : Word := 0x00000FC0#32

/-- The segment of no coach. -/
def segNone : Seg := { base := 0, plm1 := 0, lst := 0 }

/-- The coach in focus while none is resident: every register at its reset value of R107, or zero. -/
def coachNone : Coach where
  ident := {
    id := 0, haul := 0, rake := 0, cidx := 0, level := 0, core := 0, rel := 0, slot := 0, port := 0,
    view := none, shade := 0 }
  regs := {
    v := Vector.replicate 256 (Vector.replicate 32 0), bad := [], preg := 64, g := Vector.replicate 64 0,
    k := Vector.replicate 32 0, gk := 0 }
  masks := {
    exm := 0, live := 0, plane := Vector.replicate 32 0, modes := Vector.replicate 4 modeReset }
  window := {
    win := 0, hr := 0, rsp := 0, rspBase := 0, rspEnd := 0, sps := 0, spsBase := 0, spsEnd := 0,
    scrBase := 0, scrSize := 0, scrProg := 0, regPool := [], qmBase := 0, qmSize := 0 }
  segs := { seg := segNone, lim := 0, home := segNone, homeLen := 0 }
  special := {
    fflags := 0, gang := 0, asr := 0xF, mcfgr := 0, pgc := 0, posted := 0, nbound := 1, asid := 0,
    ptbase := 0, svec := 0, hcause := 0 }
  traps := {
    mode := .u, frames := [], ltcause := Vector.replicate 32 0, ltval := Vector.replicate 32 0,
    held := false, ecc := [], eccBare := none }
  issue := {
    phase := .absent, wait := .none, off := 0, next := 0, open_ := false, plane := 0, todo := [],
    words := Vector.replicate 4 0, count := 0, marked := false, ends := false, traps := [], bare := none, rex := none, bad := [],
    deferred := [], newAsid := none, newRoot := none, newS2 := [], spill := [], refill := [], since := 0, yielded := false,
    codeSince := 0 }
  wbuf := []
  snap := []
  sets := []
  tickets := []
  tcount := 0
  pendb := 0
  pdone := 0
  preempt := { pending := false, atSave := false, full := false, vlive := [], start := 0, len := 0, since := 0 }

/-- A core after reset (R107, R238). -/
def coreReset : Core where
  ric := 1
  cycle := 0
  token := 0
  banks := []
  freeing := []
  latch := []
  joint := []
  queue := []
  mallocs := []
  icache := []
  warm := false
  gated := 0
  bandUsed := Vector.replicate 4 0
  part := 0

/-- A quad after reset: powered, at the nominal clock, serving VF 0 (R21, R356). -/
def quadReset : Quad where
  haul := none
  vf := 0
  vfSince := 0
  lifts := []
  events := []
  held := []
  chans := Vector.replicate 4 { queue := [], running := none, held := [] }
  power := .on
  clock := 1600
  changing := false
  target := 1600
  idleFrom := none
  lastRead := none
  draining := false

/-- A virtual function after reset (R356): VF 0 holds every quad and port and is enabled, the others hold none. -/
def vfReset (n : Nat) : Vf where
  quads := if n = 0 then BitVec.allOnes 64 else 0
  memp := if n = 0 then BitVec.allOnes 64 else 0
  queues := 0
  slice := 0
  dpasid := 0
  lock := false
  flrb := false
  shr := false
  en := n == 0
  s2base := 0
  key := 0
  launches := 0
  deferred := []
  ready := []
  tasks := []
  pstable := (0, 0)
  psets := []
  rings := []
  requests := []
  blackout := none
  stub := []
  forwarding := false
  frameMap := []
  held := []
  sent := []
  heldKicks := []
  measured := []
  error := false
  locking := none

/-- The device's registers after reset (R107, R356, R63). -/
def deviceReset : Device where
  time := 0
  vfsel := 0
  cmxsel := 0
  cmxrow := Vector.replicate 72 (BitVec.allOnes 64)
  hvec := 0
  kicks := Vector.replicate 4 0
  stepping := 1
  fwLevel := 0
  leader := none
  superseded := []
  journal := []
  fwLoaded := false
  fwStart := 0
  heldCompletions := []
  wakes := []
  errors := []
  poison := []
  lost := []
  doorbells := []

/-- The device right after reset: no coach is resident, no memory byte is listed. A core, quad or virtual function that
its list does not hold stands at `coreReset`, `quadReset` and `vfReset`. -/
def State.reset : State where
  co := coachNone
  coaches := []
  cores := []
  quads := []
  vfs := []
  hauls := []
  rakes := []
  views := []
  queues := []
  commands := []
  migrations := []
  mem := []
  corePts := []
  hostCopies := []
  tlb := []
  dev := deviceReset
  schedule := []
  fresh := 0
  nextId := 1

end Sys2Proof.Machine
end

