-- ==== Sys2Proof/Machine/Basic.lean ====
section
/-! DEFINITION. Access to the pieces of the state: tables, units by number, the coach in focus, bytes at their homes,
and the registers of a coach (R4, R6, R7, R93, R137). -/

namespace Sys2Proof.Machine

/-! ### Vectors, lanes and lane masks -/

/-- Element i of a vector of fixed length, i taken modulo the length (R7). -/
def vget {α : Type} {n : Nat} [NeZero n] (v : Vector α n) (i : Nat) : α := v.get (Fin.ofNat n i)

/-- The vector with element i replaced. -/
def vset {α : Type} {n : Nat} [NeZero n] (v : Vector α n) (i : Nat) (x : α) : Vector α n :=
  v.set (Fin.ofNat n i).val x (Fin.ofNat n i).isLt

/-- A value for each lane. -/
def laneVec (f : Nat → Word) : LaneVec := Vector.ofFn fun i => f i.val

/-- The lanes for which f holds. -/
def laneMask (f : Nat → Bool) : LaneMask := BitVec.ofFnLE fun i => f i.val

/-- The lanes of a mask in ascending order (R7). -/
def lanesOf (m : LaneMask) : List Nat := (List.range 32).filter fun l => m.getLsbD l

/-- Lane l alone. -/
def laneBit (l : Nat) : LaneMask := 1#32 <<< l

/-- New values in the lanes of a mask, old values elsewhere. -/
def laneMerge (m : LaneMask) (new old : LaneVec) : LaneVec :=
  laneVec fun l => if m.getLsbD l then vget new l else vget old l

/-- Lane values given as (lane, value), a later pair over an earlier one, lanes not named as in v (R7). -/
def laneAssoc (v : LaneVec) (l : List (Nat × Word)) : LaneVec := l.foldl (fun v p => vset v p.1 p.2) v

/-- The mask of the lanes named. -/
def maskOf (l : List Nat) : LaneMask := l.foldl (fun m x => m ||| laneBit x) 0

/-! ### Tables keyed by number -/

/-- Entry k of a table, d when the table does not hold it. -/
def tget {α : Type} (d : α) : List (Nat × α) → Nat → α
  | [], _ => d
  | (k, x) :: t, n => if k = n then x else tget d t n

/-- The table with entry n replaced, keys rising. -/
def tset {α : Type} : List (Nat × α) → Nat → α → List (Nat × α)
  | [], n, x => [(n, x)]
  | (k, y) :: t, n, x =>
    if n = k then (n, x) :: t else if n < k then (n, x) :: (k, y) :: t else (k, y) :: tset t n x

/-! ### Bytes and numbers (R2) -/

/-- The number whose little-endian bytes these are. -/
def leNat : List Byte → Nat
  | [] => 0
  | b :: t => b.toNat + 256 * leNat t

/-- The n little-endian bytes of a number, modulo 2^(8n). -/
def leBytes : Nat → Nat → List Byte
  | 0, _ => []
  | n + 1, x => BitVec.ofNat 8 x :: leBytes n (x / 256)

/-- The little-endian number of n bytes at an offset of a record. -/
def field (b : List Byte) (o n : Nat) : Nat := leNat ((b.drop o).take n)

/-- The smallest multiple of m at or above n. -/
def roundTo (m n : Nat) : Nat := (n + m - 1) / m * m

/-! ### Memory: bytes at their homes (R295)

A home address is a tag times 2^52 plus the address in that home. An unlisted byte reads 0 (log 2). -/

/-- The bytes of one home. -/
def homeSpan : Nat := 2 ^ 52
/-- A byte of device memory (R16). -/
def homeDev (a : Nat) : Nat := a
/-- A byte of the host window (R45). -/
def homeWin (a : Nat) : Nat := homeSpan + a
/-- A byte of pod device d's memory (R201). -/
def homePod (d a : Nat) : Nat := (2 + d) * homeSpan + a
/-- A byte of host memory, by PASID and I/O address (R201). -/
def homeHost (pasid a : Nat) : Nat := (128 + pasid) * homeSpan + a
/-- A byte of core c's scratchpad region (R15, R30). -/
def homeScr (c a : Nat) : Nat := (2 ^ 21 + c) * homeSpan + a
/-- A byte of quad q's memory (R14). -/
def homeQm (q a : Nat) : Nat := (2 ^ 21 + 256 + q) * homeSpan + a
/-- A byte of core c's array weights: the active plane from 0, the shadow plane from 16384 (R238). -/
def homeWgt (c a : Nat) : Nat := (2 ^ 21 + 512 + c) * homeSpan + a
/-- A byte of core c's accumulator banks (R247). -/
def homeAcc (c a : Nat) : Nat := (2 ^ 21 + 1024 + c) * homeSpan + a
/-- Size of a core's SRAM pool (R15). -/
def poolBytes : Nat := 4 * 2 ^ 20
/-- The pool bank of a pool byte address (R15). -/
def poolBank (a : Nat) : Nat := a / 4 % 256

/-- Whether a home address lies in device memory, the host window, pod or host memory (R193, R295). -/
def isGlobal (a : Nat) : Bool := decide (a < 2 ^ 21 * homeSpan)
/-- Whether a home address lies in the memory of another pod device. -/
def isPod (a : Nat) : Bool := decide (2 * homeSpan ≤ a ∧ a < 128 * homeSpan)
/-- Whether a home address lies in host memory. -/
def isHost (a : Nat) : Bool := decide (128 * homeSpan ≤ a ∧ a < 2 ^ 21 * homeSpan)
/-- Whether a home address lies in a scratchpad. -/
def isScr (a : Nat) : Bool := decide (2 ^ 21 * homeSpan ≤ a ∧ a < (2 ^ 21 + 256) * homeSpan)
/-- Whether a home address lies in a quad memory. -/
def isQm (a : Nat) : Bool := decide ((2 ^ 21 + 256) * homeSpan ≤ a ∧ a < (2 ^ 21 + 512) * homeSpan)

/-- The byte at a home address. -/
def Memory.get : List Host.Cell → Nat → Byte
  | [], _ => 0
  | (k, b) :: t, a => if k = a then b else if a < k then 0 else Memory.get t a

/-- Write one byte, keeping the canonical form. -/
def Memory.put : List Host.Cell → Nat → Byte → List Host.Cell
  | [], a, x => if x = 0 then [] else [(a, x)]
  | (k, b) :: t, a, x =>
    if a = k then (if x = 0 then t else (a, x) :: t)
    else if a < k then (if x = 0 then (k, b) :: t else (a, x) :: (k, b) :: t)
    else (k, b) :: Memory.put t a x

/-- Write consecutive bytes from an address on. -/
def Memory.putAll : List Host.Cell → Nat → List Byte → List Host.Cell
  | m, _, [] => m
  | m, a, b :: t => Memory.putAll (Memory.put m a b) (a + 1) t

/-- n consecutive bytes from an address on. -/
def Memory.getAll (m : List Host.Cell) : Nat → Nat → List Byte
  | _, 0 => []
  | a, n + 1 => Memory.get m a :: Memory.getAll m (a + 1) n

/-- Set n bytes from an address on to 0. -/
def Memory.clear (m : List Host.Cell) (a n : Nat) : List Host.Cell := m.filter fun c => !(a ≤ c.1 && c.1 < a + n)

/-- The canonical form: addresses strictly rising, no entry equal to what an unlisted address reads as. -/
def Memory.wf : List Host.Cell → Bool
  | [] => true
  | (_, b) :: [] => decide (b ≠ 0)
  | (k, b) :: (k', b') :: t => decide (b ≠ 0) && decide (k < k') && Memory.wf ((k', b') :: t)

/-! ### Units by number -/

/-- Core n. -/
def State.core (s : State) (n : Nat) : Core := tget coreReset s.cores n
/-- Change core n. -/
def State.modCore (s : State) (n : Nat) (f : Core → Core) : State := { s with cores := tset s.cores n (f (s.core n)) }
/-- Quad n. -/
def State.quad (s : State) (n : Nat) : Quad := tget quadReset s.quads n
/-- Change quad n. -/
def State.modQuad (s : State) (n : Nat) (f : Quad → Quad) : State := { s with quads := tset s.quads n (f (s.quad n)) }
/-- Virtual function n. -/
def State.vf (s : State) (n : Nat) : Vf := tget (vfReset n) s.vfs n
/-- Change virtual function n. -/
def State.modVf (s : State) (n : Nat) (f : Vf → Vf) : State := { s with vfs := tset s.vfs n (f (s.vf n)) }
/-- The haul with this number. -/
def State.haul? (s : State) (id : Nat) : Option Haul := s.hauls.find? fun h => h.id == id
/-- Change a haul. -/
def State.modHaul (s : State) (id : Nat) (f : Haul → Haul) : State :=
  { s with hauls := s.hauls.map fun h => if h.id = id then f h else h }
/-- The resident rake of a haul. -/
def State.rake? (s : State) (haul rake : Nat) : Option Rake := s.rakes.find? fun r => r.haul == haul && r.rake == rake
/-- The view request with this number. -/
def State.view? (s : State) (id : Nat) : Option ViewReq := s.views.find? fun v => v.id == id
/-- Change a view request. -/
def State.modView (s : State) (id : Nat) (f : ViewReq → ViewReq) : State :=
  { s with views := s.views.map fun v => if v.id = id then f v else v }
/-- The queue with this number. -/
def State.queue? (s : State) (id : Nat) : Option Queue := s.queues.find? fun q => q.id == id
/-- Change a queue. -/
def State.modQueue (s : State) (id : Nat) (f : Queue → Queue) : State :=
  { s with queues := s.queues.map fun q => if q.id = id then f q else q }
/-- Whether a haul was launched from a queue (R52). -/
def Haul.fromQueue (h : Haul) (q : Queue) : Bool := h.vf == q.vf && h.pasid == q.pasid && h.qno == some q.qno
/-- Queues are destroyed or forgotten for good: a later queue of the same number is another one. -/
def State.dropQueues (s : State) (f : Queue → Bool) : State :=
  { s with
    queues := s.queues.filter fun q => !f q
    hauls := s.hauls.map fun h => if (s.queues.filter f).any h.fromQueue then { h with qno := none } else h }
/-- Change the device's own registers. -/
def State.modDev (s : State) (f : Device → Device) : State := { s with dev := f s.dev }
/-- Change the coach in focus. -/
def State.modCo (s : State) (f : Coach → Coach) : State := { s with co := f s.co }
/-- A number no unit bears yet. -/
def State.newId (s : State) : State := { s with nextId := s.nextId + 1 }

/-- Whether a coach is resident. -/
def Coach.present (c : Coach) : Bool := c.issue.phase != .absent
/-- Every resident coach. -/
def State.allCoaches (s : State) : List Coach := (s.co :: s.coaches).filter Coach.present
/-- The resident coach with this number. -/
def State.coach? (s : State) (id : Nat) : Option Coach := s.allCoaches.find? fun c => c.ident.id == id
/-- Change the coach with this number, wherever it is held. -/
def State.modCoach (s : State) (id : Nat) (f : Coach → Coach) : State :=
  if s.co.ident.id = id then { s with co := f s.co }
  else { s with coaches := s.coaches.map fun c => if c.ident.id = id then f c else c }
/-- Bring a coach into focus, the one that was in focus taking its place; nothing changes when it is not resident. -/
def State.focus (s : State) (id : Nat) : State :=
  if s.co.ident.id = id then s
  else match s.coaches.find? fun c => c.ident.id == id with
    | none => s
    | some c =>
      if s.co.present then { s with co := c, coaches := s.coaches.map fun x => if x.ident.id = id then s.co else x }
      else { s with co := c, coaches := s.coaches.filter fun x => x.ident.id != id }
/-- Act with another coach in focus, then restore the focus. -/
def State.within (s : State) (id : Nat) (f : State → State) : State := (f (s.focus id)).focus s.co.ident.id
/-- Remove a coach. -/
def State.dropCoach (s : State) (id : Nat) : State :=
  if s.co.ident.id = id then { s with co := coachNone }
  else { s with coaches := s.coaches.filter fun c => c.ident.id != id }

/-! ### Operations of the array -/

/-- The coaches an operation belongs to. -/
def ArrayOp.owners : ArrayOp → List Nat
  | .load m _ _ _ | .swap m | .stream m _ _ _ => m
  | .read c _ _ | .write c _ _ | .zero c _ _ => [c]

/-- Whether an operation is one of the queue operations of R241. -/
def ArrayOp.isQueue : ArrayOp → Bool
  | .load _ _ _ _ | .swap _ | .stream _ _ _ _ => true
  | _ => false

/-! ### Bytes at their homes, with what a write marks -/

/-- n bytes at a home. -/
def State.rd (s : State) (a n : Nat) : List Byte := Memory.getAll s.mem a n
/-- n bytes at a home as a number. -/
def State.rdNat (s : State) (a n : Nat) : Nat := leNat (s.rd a n)
/-- Bytes of a piece of a page in migration: the smallest page (R199). -/
def pieceBytes : Nat := 32768
/-- The 128-byte lines of a page that a write of n bytes touches, when the page is being migrated (R221). -/
def Migration.mark (m : Migration) (a n : Nat) : Migration :=
  if n = 0 then m
  else
    let hit := (m.pieces.zip (List.range m.pieces.length)).flatMap fun p =>
      let o := p.1.1
      if o < a + n ∧ a < o + pieceBytes then
        let lo := (a - o) / 128
        let hi := (min (a + n) (o + pieceBytes) - 1 - o) / 128
        (List.range (hi + 1 - lo)).map fun k => pieceBytes / 128 * p.2 + lo + k
      else []
    { m with dirty := m.dirty ++ hit.filter fun l => !m.dirty.contains l }
/-- Granules written whole by n bytes from a on are no longer poisoned (R381). -/
def State.healed (s : State) (a n : Nat) : State :=
  { s with dev := { s.dev with poison := s.dev.poison.filter fun g => !(a ≤ g && g + 4 ≤ a + n) } }
/-- Write bytes at a home. A page in migration marks its lines (R221); a granule written whole is no longer poisoned
(R381). -/
def State.wr (s : State) (a : Nat) (b : List Byte) : State :=
  { s with
    mem := Memory.putAll s.mem a b
    migrations := s.migrations.map fun m => m.mark a b.length
    dev := { s.dev with poison := s.dev.poison.filter fun g => !(a ≤ g && g + 4 ≤ a + b.length) } }
/-- Write a number as n bytes at a home. -/
def State.wrNat (s : State) (a n x : Nat) : State := s.wr a (leBytes n x)
/-- Set n bytes at a home to 0. -/
def State.clear (s : State) (a n : Nat) : State :=
  { s with
    mem := Memory.clear s.mem a n
    dev := { s.dev with poison := s.dev.poison.filter fun g => !(a ≤ g && g + 4 ≤ a + n) } }
/-- Whether a read of a byte range at a home meets an uncorrectable error: a poisoned granule (R381), or an access that a
crossbar or a Coupler fails in this step (R380). -/
def State.poisoned (s : State) (a n : Nat) : Bool :=
  (s.dev.poison.any fun g => decide (g < a + n ∧ a < g + 4)) ||
    s.dev.lost.any fun g => decide (g.1 < a + n ∧ a < g.1 + 4 ∧ g.2 = s.fresh)
/-- Bytes in which a saved rake counts as lying (log 69). -/
def savedBytes : Nat := 32768
/-- Whether the area that holds a saved rake has an uncorrectable error (R352, R381). -/
def State.areaBad (s : State) (haul rake : Nat) : Bool := s.poisoned (Config.savedAt haul rake) savedBytes
/-- The area of a saved rake is written whole. -/
def State.keepArea (s : State) (haul rake : Nat) : State := s.healed (Config.savedAt haul rake) savedBytes
/-- Poison granules at their home (R381). -/
def State.poisonAll (s : State) (gs : List Nat) : State :=
  { s with dev := { s.dev with poison := s.dev.poison ++ gs.filter fun g => !s.dev.poison.contains g } }

/-! ### Registers of a coach (R4, R93, R137) -/

/-- The physical register that v(i) names (R137). -/
def Coach.phys (c : Coach) (i : Nat) : Nat := (8 * c.window.win + i % 64) % c.regs.preg
/-- V[i] in every lane. -/
def Coach.vec (c : Coach) (i : Nat) : LaneVec := vget c.regs.v (c.phys i)
/-- V[i][L]. -/
def Coach.vreg (c : Coach) (i l : Nat) : Word := vget (c.vec i) l
/-- Write lanes of a physical register; a word written whole holds no error any more (R381). -/
def Coach.setPhys (c : Coach) (p : Nat) (m : LaneMask) (x : LaneVec) : Coach :=
  { c with regs := { c.regs with
      v := vset c.regs.v p (laneMerge m x (vget c.regs.v p))
      bad := c.regs.bad.filter fun q => !(q.1 == p && m.getLsbD q.2) } }
/-- The pool byte address of a lane's word of a physical register (R15, R381). -/
def Coach.poolAddr (c : Coach) (p l : Nat) : Nat := (c.window.regPool[p / 8]?).getD 0 * 1024 + p % 8 * 128 + 4 * l
/-- Write V[i] in the lanes of a mask. -/
def Coach.setVec (c : Coach) (i : Nat) (m : LaneMask) (x : LaneVec) : Coach := c.setPhys (c.phys i) m x
/-- G[i]; g0 reads zero (R93). -/
def Coach.greg (c : Coach) (i : BitVec 6) : Dword := if i = 0 then 0 else vget c.regs.g i.toNat
/-- Write G[i]; a write to g0 is discarded (R93). -/
def Coach.setG (c : Coach) (i : BitVec 6) (x : Dword) : Coach :=
  if i = 0 then c else { c with regs := { c.regs with g := vset c.regs.g i.toNat x } }
/-- K[i] in every lane; k0 reads true (R93). -/
def Coach.kreg (c : Coach) (i : BitVec 5) : LaneMask := if i = 0 then BitVec.allOnes 32 else vget c.regs.k i.toNat
/-- Write K[i] in the lanes of a mask; a write to k0 is discarded (R93). -/
def Coach.setK (c : Coach) (i : BitVec 5) (m x : LaneMask) : Coach :=
  if i = 0 then c
  else { c with regs := { c.regs with k := vset c.regs.k i.toNat ((x &&& m) ||| (vget c.regs.k i.toNat &&& ~~~m)) } }
/-- GK[i]; gk0 reads true (R93). -/
def Coach.gkreg (c : Coach) (i : BitVec 4) : Bool := i == 0 || c.regs.gk.getLsbD i.toNat
/-- Write GK[i]; a write to gk0 is discarded (R93). -/
def Coach.setGk (c : Coach) (i : BitVec 4) (x : Bool) : Coach :=
  if i = 0 then c
  else
    let bit : BitVec 16 := 1#16 <<< i.toNat
    { c with regs := { c.regs with gk := if x then c.regs.gk ||| bit else c.regs.gk &&& ~~~bit } }

/-! ### Masks, planes and modes (R6, R95) -/

/-- PLANE[L]. -/
def Coach.planeOf (c : Coach) (l : Nat) : BitVec 2 := vget c.masks.plane l
/-- MODE[p] of the issuing plane. -/
def Coach.mode (c : Coach) : Word := vget c.masks.modes c.issue.plane.toNat
/-- Lanes with PLANE[L] = p. -/
def Coach.inPlane (c : Coach) (p : BitVec 2) : LaneMask := laneMask fun l => c.planeOf l == p
/-- GRD of a mode (R95). -/
def modeGrd (m : Word) : BitVec 5 := m.extractLsb' 20 5
/-- GNEG of a mode. -/
def modeNeg (m : Word) : Bool := m.getLsbD 19
/-- TYPE of a mode. -/
def modeType (m : Word) : BitVec 4 := m.extractLsb' 15 4
/-- RM of a mode. -/
def modeRm (m : Word) : BitVec 2 := m.extractLsb' 13 2
/-- SAT of a mode. -/
def modeSat (m : Word) : Bool := m.getLsbD 12
/-- RESP of a mode. -/
def modeResp (m : Word) : BitVec 5 := m.extractLsb' 7 5
/-- RESE of a mode. -/
def modeRese (m : Word) : Bool := m.getLsbD 6
/-- The lanes where the guard of MODE[p] lets the issuing plane act. -/
def Coach.guard (c : Coach) : LaneMask :=
  if modeNeg c.mode then ~~~(c.kreg (modeGrd c.mode)) else c.kreg (modeGrd c.mode)
/-- The lanes a re-execution is limited to (R341), every lane otherwise. -/
def Coach.limit (c : Coach) : LaneMask := c.issue.rex.getD (BitVec.allOnes 32)
/-- The EXM lanes of the issuing plane, whatever the guard (R106). -/
def Coach.planeLanes (c : Coach) : LaneMask := c.masks.exm &&& c.inPlane c.issue.plane
/-- ACTIVE(p) of the issuing plane (R6); in re-execution its lanes of X alone (R341); without the lanes that have trapped
with an error in a register the word reads (R381). -/
def Coach.active (c : Coach) : LaneMask := c.planeLanes &&& c.limit &&& c.guard &&& ~~~maskOf (c.issue.bad.map (·.1))
/-- OCC in ascending order (R6); in re-execution the planes that hold a lane of X (R341). -/
def Coach.occ (c : Coach) : List (BitVec 2) :=
  let e := c.masks.exm &&& c.limit
  if e = 0 then [0] else [0, 1, 2, 3].filter fun p => e &&& c.inPlane p != 0
/-- The EXM lanes of the occupied planes (R28, R100, R106). -/
def Coach.occLanes (c : Coach) : LaneMask := c.masks.exm &&& c.occ.foldl (fun m p => m ||| c.inPlane p) 0
/-- The element type of the issuing plane. -/
def Coach.type (c : Coach) : BitVec 4 := modeType c.mode
/-- The rounding mode of the issuing plane. -/
def Coach.rm (c : Coach) : BitVec 2 := modeRm c.mode

/-- The segment word of a segment: V written as 1 (R329). -/
def Seg.word (g : Seg) : Dword := 1#1 ++ g.plm1 ++ g.lst ++ 0#4 ++ g.base
/-- The segment a segment word names. -/
def Seg.ofWord (w : Dword) : Seg :=
  { base := w.extractLsb' 0 52, plm1 := w.extractLsb' 61 2, lst := w.extractLsb' 56 5 }
/-- Stride of a segment in bytes (R329). -/
def Seg.stride (g : Seg) : Nat := 2 ^ (g.lst.toNat + 8)

/-- The plane vector of a frame or record: lane L in bits [2L+1:2L] (R336). -/
def planeV (p : Vector (BitVec 2) 32) : Dword :=
  (List.range 32).foldl (fun a l => a ||| (BitVec.zeroExtend 64 (vget p l) <<< (2 * l))) 0
/-- The planes of a plane vector. -/
def planesOf (v : Dword) : Vector (BitVec 2) 32 := Vector.ofFn fun i => v.extractLsb' (2 * i.val) 2

end Sys2Proof.Machine
end

