-- ==== Sys2Proof/Machine/Places.lean ====
section
/-! DEFINITION. The abstract machine of R295 to R302: write buffer, snapshot, core points, host copies and homes, for the
coach in focus. -/

namespace Sys2Proof.Machine

/-- The granule that holds a byte (R295). -/
def granule (a : Nat) : Nat := a / 4 * 4

/-- The granules that n bytes from a on touch. -/
def granules (a n : Nat) : List Nat :=
  if n = 0 then [] else (List.range ((a + n - 1) / 4 - a / 4 + 1)).map fun i => granule a + 4 * i

/-- Lay bytes over a granule's word: those of b that fall in granule g, where b starts at a. -/
def overlay (g : Nat) (w : Word) (a : Nat) (b : List Byte) : Word :=
  BitVec.ofNat 32 (leNat ((List.range 4).map fun i =>
    if a ≤ g + i then ((b[g + i - a]?).getD (w.extractLsb' (8 * i) 8)) else w.extractLsb' (8 * i) 8))

/-- Whether two byte ranges overlap. -/
def overlaps (a n a' n' : Nat) : Bool := decide (a < a' + n' ∧ a' < a + n)

/-- The pkg point's copy of a host granule (R295). -/
def State.hostCopy? (s : State) (g : Nat) : Option HostCopy := s.hostCopies.find? fun h => h.addr == g

/-- The word of a granule at its home as the device reads it: a host granule's pkg copy stands for it (R297). -/
def State.homeWord (s : State) (g : Nat) : Word :=
  match s.hostCopy? g with
  | some h => h.word
  | none => BitVec.ofNat 32 (s.rdNat g 4)

/-- A pkg copy of a host granule that an address space fills or writes: it joins the copy's owners (R308, R313). -/
def State.ownCopy (s : State) (o : Nat × BitVec 16) (g : Nat) (w : Word) (dirty : Bool) : State :=
  let owners := match s.hostCopy? g with
    | some h => if h.owners.contains o then h.owners else o :: h.owners
    | none => [o]
  { s with hostCopies :=
      { addr := g, word := w, dirty := dirty, owners := owners } :: s.hostCopies.filter fun h => h.addr != g }

/-- Store bytes into the pkg copies of host granules, marked dirty (R296). A part of a granule is laid over its copy or,
without one, over the host's value: DEDUCED, log 8. A granule written whole is no longer poisoned (R381). -/
def State.wrHostCopy (s : State) (o : Nat × BitVec 16) (a : Nat) (b : List Byte) : State :=
  ((granules a b.length).foldl (fun s g => s.ownCopy o g (overlay g (s.homeWord g) a b) true) s).healed a b.length

/-- A pkg copy's word reaches the host; poison of the granule travels with it (R313, R381). -/
def State.writeBack (s : State) (h : HostCopy) : State :=
  (s.wrNat h.addr 4 h.word.toNat).modDev fun d => { d with poison := s.dev.poison }

/-- The address space of the coach in focus: VF and ASID (R203). -/
def State.owner (s : State) : Nat × BitVec 16 :=
  (((s.haul? s.co.ident.haul).map (·.vf)).getD 0, s.co.special.asid)

/-- A write arriving at the end of its path: the pkg copy for host memory, the home otherwise (R296). -/
def State.arrive (s : State) (a : Nat) (b : List Byte) : State :=
  if isHost a then s.wrHostCopy s.owner a b else s.wr a b

/-- The granule in the coach's snapshot. -/
def Coach.snap? (c : Coach) (g : Nat) : Option Word := (c.snap.find? fun p => p.1 == g).map (·.2)

/-- Snapshot granules that a leaving entry covers take its values (R298). -/
def Coach.patchSnap (c : Coach) (a : Nat) (b : List Byte) : Coach :=
  { c with snap := c.snap.map fun p => (p.1, overlay p.1 p.2 a b) }

/-- The copy of a granule at a core point. -/
def State.corePt? (s : State) (core g : Nat) : Option CoreCopy := s.corePts.find? fun p => p.core == core && p.addr == g

/-- Carry an entry to the end of its path: it leaves the buffer, the snapshot takes its values and the core copy it
placed is dropped (R296, R298). -/
def State.carryEnd (s : State) (e : WEntry) : State :=
  let s := s.arrive e.addr e.bytes
  let c := { s.co with wbuf := s.co.wbuf.filter fun x => x.id != e.id }
  { s with
    co := c.patchSnap e.addr e.bytes
    corePts := s.corePts.filter fun p => !(p.coach == c.ident.id && p.entry == e.id) }

/-- Carry a global entry to the core point, where it waits (R296). -/
def State.carryCore (s : State) (e : WEntry) : State :=
  if e.atCore then s
  else
    let k := s.co.ident.core
    { s with
      co := { s.co with wbuf := s.co.wbuf.map fun x => if x.id = e.id then { x with atCore := true } else x }
      corePts := (granules e.addr e.bytes.length).foldl (fun ps g =>
        let old := match s.corePt? k g with
          | some p => p.word
          | none => s.homeWord g
        { core := k, addr := g, word := overlay g old e.addr e.bytes, coach := s.co.ident.id, entry := e.id } ::
          ps.filter fun p => !(p.core == k && p.addr == g)) s.corePts }

/-- How far a publish at a scope carries an entry (R296, R25): none it stays, some false the core point, some true the
end. -/
def publishTo (scope : Nat) (e : WEntry) : Option Bool :=
  if scope = 0 then none
  else if isScr e.addr then some true
  else if isQm e.addr then (if scope = 1 then none else some true)
  else if scope ≤ 2 then some false
  else if isPod e.addr then (if scope = 5 then some true else some false)
  else some true

/-- PUBL.s (R299). -/
def State.publish (s : State) (scope : Nat) : State :=
  s.co.wbuf.foldl (fun s e =>
    match publishTo scope e with
    | none => s
    | some false => s.carryCore e
    | some true => s.carryEnd e) s

/-- What is left in a buffer that does not outlive its coach travels to its home, as it may at any time (R296, R298). -/
def State.drain (s : State) : State := s.co.wbuf.foldl State.carryEnd s

/-- REFR.s (R299). -/
def State.refresh (s : State) (scope : Nat) : State := if scope = 0 then s else s.modCo fun c => { c with snap := [], sets := [] }

/-- The buffered entries that must travel with those overlapping a range: no older entry that overlaps a carried one is
left behind (R298, R301). -/
def carried (a n : Nat) (buf : List WEntry) : List WEntry :=
  (buf.reverse.foldl (fun acc e =>
    if overlaps a n e.addr e.bytes.length || acc.any fun x => overlaps x.addr x.bytes.length e.addr e.bytes.length
    then e :: acc else acc) [])

/-- Carry the coach's entries that overlap a range to their home (R301 step 1, R302). -/
def State.flushOver (s : State) (a n : Nat) : State :=
  (carried a n s.co.wbuf).foldl (fun s e => s.carryEnd e) s

/-- The youngest buffered byte at an address (R297 step 1; by bytes where an entry covers part of a granule: DEDUCED,
log 8). -/
def bufByte (buf : List WEntry) (a : Nat) : Option Byte :=
  buf.foldl (fun r e => if e.addr ≤ a ∧ a < e.addr + e.bytes.length then e.bytes[a - e.addr]? else r) none

/-- A byte that is known at issue, from the write buffer or the snapshot (R297 steps 1 and 2). -/
def Coach.knownByte (c : Coach) (a : Nat) : Option Byte :=
  match bufByte c.wbuf a with
  | some b => some b
  | none => (c.snap? (granule a)).map fun w => w.extractLsb' (8 * (a % 4)) 8

/-- The bytes of a load that are known at issue. -/
def Coach.known (c : Coach) (a n : Nat) : List (Option Byte) := (List.range n).map fun i => c.knownByte (a + i)

/-- The home whose snapshot granule stands for a granule of a publish set's base range, read since the last refresh: the
slot it had then, whatever PUBLISH has made current (R305, R236). -/
def Coach.staleHome (c : Coach) (name : Nat) : Option Nat :=
  ((c.sets.find? fun p => p.1 == granule name).map (·.2)).filter fun g => (c.snap? g).isSome

/-- The bytes of a load through a set's base range that are known at issue: the write buffer's, a stale granule's, the
snapshot's (R297, R305). -/
def Coach.knownSet (c : Coach) (name a n : Nat) : List (Option Byte) :=
  (List.range n).map fun i =>
    match bufByte c.wbuf (a + i) with
    | some b => some b
    | none => c.knownByte (((c.staleHome (name + i)).getD (granule (a + i))) + (a + i) % 4)

/-- A load through a set's base range: its granules stand in the snapshot for the homes they were read at (R305). -/
def Coach.readSet (c : Coach) (name a n : Nat) : Coach :=
  { c with sets := (granules name n).foldl (fun l g =>
      if (c.staleHome g).isSome then l
      else (g, granule a + (g - granule name)) :: l.filter fun p => p.1 != g) c.sets }

/-- A write through a set's base range goes to the slot that is current: its granules stand for that from now on (R300). -/
def Coach.writeSet (c : Coach) (name n : Nat) : Coach :=
  { c with sets := c.sets.filter fun p => !(granules name n).contains p.1 }

/-- The value a fill of a granule takes now (R297 step 3). -/
def State.fillWord (s : State) (g : Nat) : Word :=
  match if isGlobal g then s.corePt? s.co.ident.core g else none with
  | some p => p.word
  | none => s.homeWord g

/-- Fill a granule into the coach's snapshot (R297 step 3). A fill from the host leaves the pkg point's copy that R308
and R313 speak of: DEDUCED, log 9. -/
def State.fill (s : State) (g : Nat) : State :=
  match s.co.snap? g with
  | some _ => s
  | none =>
    let w := s.fillWord g
    let s := s.modCo fun c => { c with snap := (g, w) :: c.snap }
    if isHost g then
      let h := s.hostCopy? g
      s.ownCopy s.owner g ((h.map (·.word)).getD w) ((h.map (·.dirty)).getD false)
    else s

/-- Whether some byte of a granule is still unknown in a load. -/
def Deferred.needs (g : Nat) : Deferred → Bool
  | .load _ a known _ => (List.range known.length).any fun i => granule (a + i) == g && known[i]? == some none
  | _ => false

/-- The granules a load has still to fill. -/
def Deferred.missing : Deferred → List Nat
  | .load d a known e => (granules a known.length).filter fun g => (Deferred.load d a known e).needs g
  | _ => []

/-- Give a load the bytes of a filled granule. -/
def Deferred.take (g : Nat) (w : Word) : Deferred → Deferred
  | .load d a known e => .load d a ((List.range known.length).map fun i =>
      match (known[i]?).getD none with
      | some b => some b
      | none => if granule (a + i) = g then some (w.extractLsb' (8 * ((a + i) % 4)) 8) else none) e
  | x => x

/-- Fill a granule and hand it to every pending load that waits for it (R297). -/
def State.fillPending (s : State) (g : Nat) : State :=
  let s := s.fill g
  match s.co.snap? g with
  | none => s
  | some w => s.modCo fun c => { c with issue := { c.issue with deferred := c.issue.deferred.map (Deferred.take g w) } }

/-- Record uncorrectable errors for lanes, taken at the park; with none named, for the coach (R106, R117). -/
def Coach.errLanes (c : Coach) (m : LaneMask) (k : Cause) : Coach :=
  { c with traps :=
      if m = 0 then { c.traps with eccBare := some (c.traps.eccBare.getD k) }
      else { c.traps with ecc := c.traps.ecc ++ (lanesOf m).map fun l => (l, k) } }

/-- The lanes that a load's error is charged to (R106, R117). -/
def LoadDest.lanes : LoadDest → LaneMask
  | .lane _ _ l _ => laneBit l
  | .group _ m => m

/-- The pending loads that need a granule meet an uncorrectable error: they keep their destinations, and their lanes report
it at the park (R117, R380, R381). -/
def Coach.failLoads (c : Coach) (g : Nat) : Coach :=
  let c' := c.issue.deferred.foldl (fun c d => match d with
    | .load dest _ _ k => if d.needs g then c.errLanes dest.lanes k else c
    | _ => c) c
  { c' with issue := { c'.issue with deferred := c'.issue.deferred.filter fun d => !d.needs g } }

/-- A granule that a pending load needs takes its value, or its error. -/
def State.settleOne (s : State) (g : Nat) : State :=
  if s.co.issue.deferred.any (Deferred.needs g) then
    if s.poisoned g 4 then s.modCo fun c => c.failLoads g else s.fillPending g
  else s

/-- Fill the pending loads of the granules a younger access to them touches: accesses of one granule take effect in
issue order (R300). -/
def State.settle (s : State) (a n : Nat) : State := (granules a n).foldl State.settleOne s

/-- A store enters the write buffer as one entry (R296). -/
def State.store (s : State) (a : Nat) (b : List Byte) : State :=
  let s := s.settle a b.length
  let e : WEntry := { id := s.nextId, addr := a, bytes := b, atCore := false }
  { s with nextId := s.nextId + 1, co := { s.co with wbuf := s.co.wbuf ++ [e] } }

/-- Carry dirty pkg copies of the granules of a range to the host and drop the copies: an access at the host itself
must not be hidden by them (R301, R302): DEDUCED, log 9. -/
def State.sinkHost (s : State) (a n : Nat) : State :=
  if isHost a then
    let s := (s.hostCopies.filter fun h => h.dirty && overlaps a n h.addr 4).foldl
      State.writeBack s
    { s with hostCopies := s.hostCopies.filter fun h => !overlaps a n h.addr 4 }
  else s

/-- A fresh store: overlapping entries first, then written through to the home (R302). -/
def State.freshStore (s : State) (a : Nat) (b : List Byte) : State :=
  let s := ((s.settle a b.length).flushOver a b.length).sinkHost a b.length
  (s.wr a b).modCo fun c => c.patchSnap a b

/-- Make ready for a fresh load: older loads of its granules have taken their values (R300), and what the device has
written to host memory stands at the host (R209): DEDUCED, log 9. -/
def State.beforeFresh (s : State) (a n : Nat) : State :=
  let s := s.settle a n
  if isHost a then
    let s' := (s.hostCopies.filter fun h => h.dirty && overlaps a n h.addr 4).foldl
      State.writeBack s
    { s' with hostCopies := s'.hostCopies.map fun h => if overlaps a n h.addr 4 then { h with dirty := false } else h }
  else s

/-- Whether a fresh load reads an erroneous byte at the home (R381). -/
def State.freshBad (s : State) (a n : Nat) : Bool :=
  (List.range n).any fun i => (bufByte s.co.wbuf (a + i)).isNone && s.poisoned (a + i) 1

/-- A fresh load: the coach's own buffered bytes, else the home's current value; fills nothing (R209, R302). -/
def State.freshLoad (s : State) (a n : Nat) : List Byte :=
  (List.range n).map fun i =>
    match bufByte s.co.wbuf (a + i) with
    | some b => b
    | none => Memory.get s.mem (a + i)

/-- Make ready for an atomic step at the home: pending loads of its granules fill, the coach's overlapping entries are
carried there, and its snapshot copies are dropped (R300, R301). -/
def State.atHome (s : State) (a n : Nat) : State :=
  let s := ((s.settle a n).flushOver a n).sinkHost a n
  s.modCo fun c => { c with snap := c.snap.filter fun p => !overlaps a n p.1 4 }

/-- HFLUSH's carry: dirty pkg copies of an address space reach the host (R313). -/
def State.flushHost (s : State) (o : Nat × BitVec 16) : State :=
  let s' := (s.hostCopies.filter fun h => h.dirty && h.owners.contains o).foldl
    State.writeBack s
  { s' with hostCopies := s'.hostCopies.map fun h => if h.owners.contains o then { h with dirty := false } else h }

/-- HINV's discard (R313). -/
def State.dropHost (s : State) (o : Nat × BitVec 16) : State :=
  { s with hostCopies := s.hostCopies.filter fun h => !h.owners.contains o }

end Sys2Proof.Machine
end

