-- ==== Sys2Proof/Machine/Causes.lean ====
section
/-! DEFINITION. The trap causes of R111, with the subcode and value that LTCAUSE and LTVAL receive (R110). -/

namespace Sys2Proof.Machine

/-- A cause whose value is a word, not an address. -/
def causeWord (code : BitVec 8) (v : Word) : Cause :=
  { code := code, sub := 0, ahi := 0, val := v, addr := false }
/-- A cause whose value is an address: LTVAL holds its low 32 bits, AHI bits [51:32] (R110, R194). -/
def causeAddr (code : BitVec 8) (a : Int) : Cause :=
  let x := BitVec.ofInt 52 a
  { code := code, sub := 0, ahi := x.extractLsb' 32 20, val := x.extractLsb' 0 32, addr := true }
/-- A cause whose value is a space address: AHI is zero (R194). -/
def causeSpace (code : BitVec 8) (a : Nat) : Cause :=
  { causeWord code (BitVec.ofNat 32 a) with addr := true }
/-- ILL with its subcode (R105). -/
def causeIll (sub : BitVec 4) (v : Word) : Cause :=
  { code := 0x01, sub := sub, ahi := 0, val := v, addr := false }

/-- Subcode FIELD (R105). -/
def subField : BitVec 4 := 3
/-- Subcode TYPE. -/
def subType : BitVec 4 := 4
/-- Subcode SREG. -/
def subSreg : BitVec 4 := 5

def cPalign : BitVec 8 := 0x02
def cPrange : BitVec 8 := 0x03
def cPriv   : BitVec 8 := 0x04
def cMisal  : BitVec 8 := 0x05
def cProt   : BitVec 8 := 0x06
def cNres   : BitVec 8 := 0x07
def cMpart  : BitVec 8 := 0x08
def cGangx  : BitVec 8 := 0x09
def cWinx   : BitVec 8 := 0x0B
def cTstk   : BitVec 8 := 0x0C
def cSysc   : BitVec 8 := 0x0D
def cHvc    : BitVec 8 := 0x0E
def cBkpt   : BitVec 8 := 0x0F
def cEcc    : BitVec 8 := 0x10
def cViewx  : BitVec 8 := 0x11
def cDrayx  : BitVec 8 := 0x12
def cTokx   : BitVec 8 := 0x13
def cSpecw  : BitVec 8 := 0x14

end Sys2Proof.Machine
end

