-- ==== Sys2Proof/Machine/Translate.lean ====
section
/-! DEFINITION. Translation of global addresses: the two-stage walk with its A and D bits, publish-set slots, the TLBs,
the checks of R202 and the connection matrix (R199 to R203, R235, R357, R359). -/

namespace Sys2Proof.Machine

/-- What an access does, for the checks of R202 and R214: a load, a store (an atomic that host memory performs too), a
fetch, a writing step that host memory refuses (the other atomics, AFADD, AFXCLR), a reading step that it refuses (AFXRD,
AFXFLG; log 11). -/
inductive Acc where
  | load | store | fetch | atom | cell
  deriving DecidableEq, Repr

/-- Whether an access writes (R202). -/
def Acc.writes : Acc → Bool
  | .store | .atom => true
  | .load | .fetch | .cell => false

/-- Whether host memory refuses it (R214). -/
def Acc.noHost : Acc → Bool
  | .atom | .cell => true
  | .load | .store | .fetch => false

/-- In whose name an access is translated. -/
structure Ctx where
  vf   : Nat
  pasid : Nat
  asid : BitVec 16
  root : Dword
  user : Bool
  /-- an access of H mode (R362) -/
  hyp  : Bool := false
  port : Nat
  /-- the core whose TLB it looks up first; none for engines and controllers (R17, R203) -/
  core : Option Nat := none
  /-- the sets of a speculative, uncommitted task (R321) -/
  spec : Option (List Nat)
  /-- the shadow slots a SHADOW Dray command chose at its start (R235) -/
  shadow : Option (List (Nat × Option Nat))
  /-- what a view request has read ahead: home and word of each granule, none for an error (R292) -/
  seen : List (Nat × Option Word) := []
  deriving DecidableEq, Repr

/-- The outcome of a translation: refused, a table entry that holds an uncorrectable error (R381), a write outside a speculative
task's sets (R321), mapped but not resident with its leaf and page size in bits, or the home of the byte with leaf and size. -/
inductive Xl where
  | prot
  | ecc
  | specw
  | absent (leaf : Dword) (bits : Nat)
  | found (home : Nat) (leaf : Dword) (bits : Nat)
  deriving DecidableEq, Repr

/-- Size of device memory in bytes (R16). -/
def devBytes : Nat := 384 * 2 ^ 30
/-- The channel group of a device physical address (R16). -/
def groupOf (pa : Nat) : Nat := pa / (6 * 2 ^ 30)
/-- First virtual address of the host window (R45). -/
def winBase : Nat := 2 ^ 52 - 8 * 2 ^ 20
/-- Size of the host window (R45). -/
def winBytes : Nat := 8 * 2 ^ 20

def eV : Nat := 0
def eLeaf : Nat := 1
def eW : Nat := 2
def eX : Nat := 3
def eU : Nat := 4
def eRes : Nat := 5
def eA : Nat := 6
def eD : Nat := 7
def eUrg : Nat := 8

/-- KIND of a leaf (R200). -/
def leafKind (e : Dword) : BitVec 2 := e.extractLsb' 9 2
/-- The address in bits [51:12] of an entry (R200). -/
def entryPa (e : Dword) : Nat := (e.extractLsb' 12 40).toNat * 4096
/-- The levels of a table: shift and width of the index, and the size in bits of a leaf's page, 0 where none (R199). -/
def levels : List (Nat × Nat × Nat) := [(39, 13, 0), (26, 13, 26), (21, 5, 21), (15, 6, 15)]

/-- Whether a valid entry of the first stage is well formed at a level (R200, R201). -/
def entryOk (bits : Nat) (last : Bool) (e : Dword) : Bool :=
  e.extractLsb' 58 6 == 0 && e.getLsbD 11 == false &&
  if e.getLsbD eLeaf then
    bits != 0 && (leafKind e == 2 || e.extractLsb' 52 6 == 0) &&
    (if leafKind e == 3 then e.extractLsb' 28 24 == 0 else entryPa e % 2 ^ bits == 0)
  else !last && e.extractLsb' 52 6 == 0 && e &&& 0xFBC#64 == 0

/-- Set a bit of an entry at its pkg home (R201). -/
def State.setEntryBit (s : State) (pa bit : Nat) : State :=
  let e := s.rdNat pa 8
  if e.testBit bit then s else s.wrNat pa 8 (e ||| 2 ^ bit)

/-- Whether a requester port may reach a channel group (R357). -/
def State.portAllows (s : State) (port pa : Nat) : Bool :=
  let row := vget s.dev.cmxrow port
  let mask := if port < 64 then row &&& (s.vf (s.quad port).vf).memp else row
  pa < devBytes && mask.getLsbD (groupOf pa)

/-- The controller's counter of a VF in the host window (R45): one more at an offset of its 64-byte block. -/
def State.bumpVf (s : State) (vf off : Nat) : State :=
  let a := homeWin (0x1000 + 64 * vf + off)
  s.wrNat a 8 (s.rdNat a 8 + 1)

/-- The VF whose VFMEMP holds a channel group, 0 where none does (R368). -/
def State.ownerOf (s : State) (a : Nat) : Nat :=
  ((List.range 32).find? fun n => (s.vf n).memp.getLsbD (groupOf a)).getD 0

/-- Count a refused access (R357, R368). -/
def State.countRefused (s : State) (a : Nat) : State := s.bumpVf (s.ownerOf a) 8

/-- An access that its port refuses; from ports 64 to 71 it is counted (R357, R368). -/
def State.refusePort (s : State) (port a : Nat) : State := if port < 64 then s else s.countRefused a

/-- A second-stage walk (R359): the leaf, its page size in bits and its address, or why it ends without one. A is set in every
entry used (R201). The walker reads each entry at the requester's port (R357, R367; log 71). -/
def walk2 (port vf gpa : Nat) : List (Nat × Nat × Nat) → Nat → State → State × Except Xl (Dword × Nat × Nat)
  | [], _, s => (s, .error .prot)
  | (sh, wd, bits) :: rest, table, s =>
    let pa := table + 8 * (gpa / 2 ^ sh % 2 ^ wd)
    let e : Dword := BitVec.ofNat 64 (s.rdNat pa 8)
    if devBytes ≤ pa then (s, .error .prot)
    else if !s.portAllows port pa then (s.refusePort port pa, .error .prot)
    else if s.poisoned pa 8 then (s, .error .ecc)
    else if !e.getLsbD eV || !entryOk bits rest.isEmpty e then (s, .error .prot)
    else if e.getLsbD eLeaf then
      let f := entryPa e
      if leafKind e == 0 && e.getLsbD eRes && f < devBytes && (s.vf vf).memp.getLsbD (groupOf f) then
        (s.setEntryBit pa eA, .ok (e, bits, pa))
      else (s, .error .prot)
    else walk2 port vf gpa rest (entryPa e) (s.setEntryBit pa eA)

/-- The device address of a guest physical address, its second-stage leaf, that leaf's address and the page size in
bits, for a requester port (R359). -/
def State.stage2 (s : State) (port vf gpa : Nat) : State × Except Xl (Nat × Dword × Nat × Nat) :=
  match walk2 port vf gpa levels ((s.vf vf).s2base.toNat % 2 ^ 52 / 4096 * 4096) s with
  | (s, .error r) => (s, .error r)
  | (s, .ok (e, bits, pa)) => (s, .ok (entryPa e + gpa % 2 ^ bits, e, pa, bits))

/-- A first-stage walk (R201): leaf, page size in bits, the leaf's device address, and the address of the second-stage
leaf that maps its table page, or why it ends without a leaf. Entries used get A, and a table page so updated gets D in its
second-stage leaf. The walker reads the table at the requester's port (R357, R367; log 71). -/
def walk1 (port vf va : Nat) : List (Nat × Nat × Nat) → Nat → State → State × Except Xl (Dword × Nat × Nat × Nat)
  | [], _, s => (s, .error .prot)
  | (sh, wd, bits) :: rest, table, s =>
    match s.stage2 port vf (table + 8 * (va / 2 ^ sh % 2 ^ wd)) with
    | (s, .error r) => (s, .error r)
    | (s, .ok (pa, e2, pa2, _)) =>
      let e : Dword := BitVec.ofNat 64 (s.rdNat pa 8)
      if !e2.getLsbD eW then (s, .error .prot)
      else if !s.portAllows port pa then (s.refusePort port pa, .error .prot)
      else if s.poisoned pa 8 then (s, .error .ecc)
      else if !e.getLsbD eV || !entryOk bits rest.isEmpty e then (s, .error .prot)
      else
        let s := if e.getLsbD eA then s else (s.setEntryBit pa eA).setEntryBit pa2 eD
        if e.getLsbD eLeaf then (s, .ok (e, bits, pa, pa2)) else walk1 port vf va rest (entryPa e) s

/-- The publish set of a VF (R234). -/
def State.pset? (s : State) (vf id : Nat) : Option PSet := (s.vf vf).psets.find? fun p => p.id == id

/-- The shadow slot of a set (R235). -/
def PSet.shadow (p : PSet) : Option Nat :=
  [(p.cur + 1) % p.nslot, (p.cur + 2) % p.nslot].find? fun n => n != p.cur && !p.pinned.getLsbD n

/-- Where an access through a KIND 3 leaf goes: a guest physical address, or none (R235). -/
def State.slotGpa (s : State) (x : Ctx) (id va : Nat) : Option Nat :=
  match s.pset? x.vf id with
  | none => none
  | some p =>
    if va < p.base ∨ p.length = 0 then none
    else
      let w := (va - p.base) / p.length
      let off := (va - p.base) % p.length
      let slot : Option Nat :=
        if w = 0 then
          match x.shadow with
          | some l => (l.find? fun q => q.1 == id).bind (·.2)
          | none =>
            match x.spec with
            | some sets => if sets.contains id then p.shadow else some p.cur
            | none => some p.cur
        else if w ≤ p.nslot ∧ x.shadow = none then some (w - 1) else none
      slot.bind fun n => (p.slots[n]?).map (· + off)

/-- U, W and X of a leaf, and its KIND, against an access (R202, R214). -/
def leafDenies (x : Ctx) (acc : Acc) (e : Dword) : Bool :=
  (x.user && !e.getLsbD eU) || (acc.writes && !e.getLsbD eW) || (acc == .fetch && !e.getLsbD eX) ||
    (acc.noHost && leafKind e == 1)

/-- Whether a write through a leaf leaves a speculative task's sets (R321). -/
def outsideSets (x : Ctx) (acc : Acc) (e : Dword) : Bool :=
  match x.spec with
  | none => false
  | some sets => acc.writes && !(leafKind e == 3 && sets.contains (e.extractLsb' 12 16).toNat)

/-- W and X of a second-stage leaf against an access (R359). -/
def s2Denies (acc : Acc) (e : Dword) : Bool :=
  (acc.writes && !e.getLsbD eW) || (acc == .fetch && !e.getLsbD eX)

/-! ### The pages of a VF's second-stage table while its interface is locked (R362) -/

/-- Addresses of the table entries that memory lists within n bytes from a on. -/
def entriesIn (mem : List Host.Cell) (a n : Nat) : List Nat :=
  ((mem.filter fun c => decide (a ≤ c.1 ∧ c.1 < a + n)).map fun c => c.1 / 8 * 8).dedup

/-- The tables of a second stage from a level on: address and size. -/
def stageTables (mem : List Host.Cell) : List (Nat × Nat × Nat) → Nat → List (Nat × Nat)
  | [], _ => []
  | (_, wd, _) :: rest, table =>
    (table, 8 * 2 ^ wd) :: (entriesIn mem table (8 * 2 ^ wd)).flatMap fun p =>
      let e : Dword := BitVec.ofNat 64 (leNat (Memory.getAll mem p 8))
      if e.getLsbD eV && !e.getLsbD eLeaf then stageTables mem rest (entryPa e) else []

/-- Whether a store to a home is refused because it falls in a second-stage table page of a locked VF (R362). -/
def State.tableLocked (s : State) (home n : Nat) : Bool :=
  (List.range 32).any fun k =>
    (s.vf k).lock && (stageTables s.mem levels ((s.vf k).s2base.toNat % 2 ^ 52 / 4096 * 4096)).any fun t =>
      overlaps t.1 t.2 home n

/-- Whether an access of H mode writes a locked table (R362). -/
def State.lockDenies (s : State) (x : Ctx) (acc : Acc) (home : Nat) : Bool := acc.writes && x.hyp && s.tableLocked home 1

/-! ### Resolving a leaf -/

/-- Set D where a write passed every check (R201). -/
def State.markDirty (s : State) (acc : Acc) (e : Dword) (pa pa2 : Nat) (s2 : Option (Dword × Nat)) : State :=
  if !acc.writes then s
  else
    let s := match s2 with
      | some (_, p) => s.setEntryBit p eD
      | none => s
    if e.getLsbD eD then s else (s.setEntryBit pa eD).setEntryBit pa2 eD

/-- The home a resident leaf gives, with the second-stage leaf, its address and its page size in bits where there is one;
an error where the second stage, the IOMMU, the port or a locked table refuses it, or the second stage meets an uncorrectable
error (R201, R202, R357, R362, R381). -/
def State.frameOf (s : State) (x : Ctx) (acc : Acc) (va : Nat) (e : Dword) (bits : Nat) :
    State × Except Xl (Nat × Option (Dword × Nat × Nat)) :=
  let off := va % 2 ^ bits
  match (leafKind e).toNat with
  | 1 =>
    let a := entryPa e + off
    (s, if Config.iommuAllows x.pasid a acc.writes then .ok (homeHost x.pasid a, none) else .error .prot)
  | 2 => (s, .ok (homePod (e.extractLsb' 52 6).toNat (entryPa e + off), none))
  | k =>
    match if k = 3 then s.slotGpa x (e.extractLsb' 12 16).toNat va else some (entryPa e + off) with
    | none => (s, .error .prot)
    | some g =>
      match s.stage2 x.port x.vf g with
      | (s, .error r) => (s, .error r)
      | (s, .ok (da, e2, p2, b2)) =>
        if s2Denies acc e2 || s.lockDenies x acc da then (s, .error .prot)
        else if !s.portAllows x.port da then (s.refusePort x.port da, .error .prot)
        else (s, .ok (da, some (e2, p2, b2)))

/-! ### The TLBs (R17, R203) -/

/-- Entries of a core's TLB and of a die's last-level TLB (R17). -/
def TlbUnit.entries : TlbUnit → Nat
  | .core _ => 64
  | .die _ => 8192

/-- The die of a requester port (R20). -/
def portDie (port : Nat) : Nat := if port < 64 then port / 16 else (port - 64) / 2

/-- The newest n entries of a TLB, and every entry of the others. -/
def keepNewest (u : TlbUnit) : Nat → List TlbEntry → List TlbEntry
  | _, [] => []
  | 0, t :: ts => if t.unit = u then keepNewest u 0 ts else t :: keepNewest u 0 ts
  | n + 1, t :: ts => if t.unit = u then t :: keepNewest u n ts else t :: keepNewest u (n + 1) ts

/-- A TLB takes an entry, in place of one for the same page; when it is full its oldest entry goes: DESIGN CHOICE, log 5. -/
def State.tlbTake (s : State) (t : TlbEntry) : State :=
  let others := s.tlb.filter fun u => !(u.unit == t.unit && u.vf == t.vf && u.asid == t.asid && u.page == t.page)
  { s with tlb := t :: keepNewest t.unit (t.unit.entries - 1) others }

/-- The core's TLB takes an entry that the die's holds. -/
def State.coreTakes (s : State) (x : Ctx) (t : TlbEntry) : State :=
  match x.core with
  | none => s
  | some n => s.tlbTake { t with unit := .core n }

/-- What a walk leaves in the requester's TLBs: the part of the page that one frame of both stages maps (R203). -/
def entryOf (x : Ctx) (acc : Acc) (va home : Nat) (e : Dword) (bits : Nat) (s2 : Option (Dword × Nat × Nat)) : TlbEntry :=
  let own := match s2 with
    | some (_, _, b2) => if leafKind e = 0 then min bits b2 else bits
    | none => bits
  let w (b : Nat) : Bool := match s2 with
    | some (e2, _, _) => leafKind e != 0 || e2.getLsbD b
    | none => true
  { unit := .die (portDie x.port), vf := x.vf, asid := x.asid, page := va - va % 2 ^ own, bits := own, pbits := bits
    leaf := if acc.writes then e ||| 0x80#64 else e
    frame := if leafKind e = 0 then home - va % 2 ^ own else 0
    s2w := w eW, s2x := w eX, s2d := acc.writes || w eD }

/-- Resolve a resident leaf to a home (R201, R202, R357), leaving it in the TLBs. -/
def State.resolve (s : State) (x : Ctx) (acc : Acc) (va : Nat) (e : Dword) (bits pa pa2 : Nat) : State × Xl :=
  match s.frameOf x acc va e bits with
  | (s, .error r) => (s, r)
  | (s, .ok (home, s2)) =>
    if outsideSets x acc e then (s, .specw)
    else
      let t := entryOf x acc va home e bits s2
      (((s.markDirty acc e pa pa2 (s2.map fun q => (q.1, q.2.1))).tlbTake t).coreTakes x t, .found home e bits)

/-- The walk and checks of R201 and R202, without the TLBs. -/
def State.translateWalk (s : State) (x : Ctx) (acc : Acc) (va : Nat) : State × Xl :=
  match walk1 x.port x.vf va levels (x.root.toNat % 2 ^ 52 / 4096 * 4096) s with
  | (s, .error r) => (s, r)
  | (s, .ok (e, bits, pa, pa2)) =>
    if leafDenies x acc e then (s, .prot)
    else if !e.getLsbD eRes then (if outsideSets x acc e then (s, .specw) else (s, .absent e bits))
    else s.resolve x acc va e bits pa pa2

/-- A number for a page of a TLB, to which the free value of log 5 is applied. -/
def TlbEntry.key (t : TlbEntry) : Nat :=
  (match t.unit with
    | .core n => n
    | .die d => 256 + d) * 2 ^ 52 + t.page

/-- The entry of one TLB for an access, while that TLB keeps it: free value, log 5 (R203). A write through an entry whose D
is 0 at either stage walks again, to set it (R201). -/
def State.tlbIn (s : State) (u : TlbUnit) (x : Ctx) (acc : Acc) (va : Nat) : Option TlbEntry :=
  (s.tlb.find? fun t => t.unit == u && t.vf == x.vf && t.asid == x.asid &&
    decide (t.page ≤ va ∧ va < t.page + 2 ^ t.bits)).filter fun t =>
      Config.tlbKeeps s.fresh t.key && !(acc.writes && !(t.leaf.getLsbD eD && t.s2d))

/-- A held entry for an address: the core TLB's first, then the last-level TLB's (R203). -/
def State.tlbHit (s : State) (x : Ctx) (acc : Acc) (va : Nat) : Option TlbEntry :=
  (x.core.bind fun n => s.tlbIn (.core n) x acc va).or (s.tlbIn (.die (portDie x.port)) x acc va)

/-- The home a TLB entry gives: the frame it was made with; the IOMMU, the owning device or the publish set are asked at
each access (R201, R203). -/
def State.translateHit (s : State) (x : Ctx) (acc : Acc) (va : Nat) (t : TlbEntry) : State × Xl :=
  if leafDenies x acc t.leaf then (s, .prot)
  else if leafKind t.leaf = 0 then
    let da := t.frame + va % 2 ^ t.bits
    if (acc.writes && !t.s2w) || (acc == .fetch && !t.s2x) || s.lockDenies x acc da then (s, .prot)
    else if !s.portAllows x.port da then (s.refusePort x.port da, .prot)
    else if outsideSets x acc t.leaf then (s, .specw)
    else (s, .found da t.leaf t.pbits)
  else
    match s.frameOf x acc va t.leaf t.pbits with
    | (s, .error r) => (s, r)
    | (s, .ok (home, s2)) =>
      if outsideSets x acc t.leaf then (s, .specw)
      else (s.markDirty acc t.leaf 0 0 (s2.map fun q => (q.1, q.2.1)), .found home t.leaf t.pbits)

/-- Translate a global address for an access (R199 to R203, R357). The host window has its fixed mapping (R45). -/
def State.translate (s : State) (x : Ctx) (acc : Acc) (va : Nat) : State × Xl :=
  if 2 ^ 52 ≤ va then (s, .prot)
  else if winBase ≤ va then
    if acc.writes ∧ va - winBase < 65536 then (s, .prot)
    else if acc.writes ∧ x.spec.isSome then (s, .specw)
    else (s, .found (homeWin (va - winBase)) 0x3F#64 23)
  else
    match s.tlbHit x acc va with
    | some t => (s.coreTakes x t).translateHit x acc va t
    | none => s.translateWalk x acc va

/-- The translation context of the coach in focus: its haul's VF and PASID, its own ASID and PTBASE (R55, R107). -/
def State.ctx (s : State) : Ctx :=
  let c := s.co
  let h := s.haul? c.ident.haul
  { vf := (h.map (·.vf)).getD 0
    pasid := (h.map (·.pasid)).getD 0
    asid := c.special.asid
    root := c.special.ptbase
    user := c.traps.mode == .u
    hyp := c.traps.mode == .h
    port := c.ident.core / 4
    core := some c.ident.core
    spec := h.bind fun h => if h.spec && !h.committed then some h.psets else none
    shadow := none }

/-- The name of an address of a publish set's base range, by the leaf that maps it: set and offset (R234, R235). -/
def State.setName (s : State) (x : Ctx) (e : Dword) (va : Nat) : Option Nat :=
  if leafKind e = 3 then
    let id := (e.extractLsb' 12 16).toNat
    (s.pset? x.vf id).bind fun p =>
      if p.base ≤ va ∧ va < p.base + p.length then some (id * 2 ^ 52 + (va - p.base)) else none
  else none

/-- The checks of an access of n bytes by the coach in focus, ranked MISAL, PROT, SPECW, NRES (R194 to R196, R202,
R206), ECC for a table entry in error (R381): the cause, or the home of its first byte with its name in a publish set; a page that is not resident is told apart
for the caller. -/
def State.accessNamed (s : State) (acc : Acc) (a : Int) (n : Nat) : State × Except Cause (Option (Nat × Option Nat)) :=
  if a % n ≠ 0 then (s, .error (causeAddr cMisal a))
  else if a < 0 then (s, .error (causeAddr cProt a))
  else
    match s.translate s.ctx acc a.toNat with
    | (s, .prot) => (s, .error (causeAddr cProt a))
    | (s, .ecc) => (s, .error (causeAddr cEcc a))
    | (s, .specw) => (s, .error (causeAddr cSpecw a))
    | (s, .absent _ _) => (s, .ok none)
    | (s, .found h e _) => (s, .ok (some (h, s.setName s.ctx e a.toNat)))

/-- The same for an access that reads no snapshot. Where it writes, what the snapshot held for a granule of a set's base range
stands for it no more; one that only reads refreshes nothing (R232, R301, R305). -/
def State.access (s : State) (acc : Acc) (a : Int) (n : Nat) : State × Except Cause (Option Nat) :=
  match s.accessNamed acc a n with
  | (s, .error k) => (s, .error k)
  | (s, .ok none) => (s, .ok none)
  | (s, .ok (some (h, none))) => (s, .ok (some h))
  | (s, .ok (some (h, some name))) => (if acc.writes then s.modCo fun c => c.writeSet name n else s, .ok (some h))

end Sys2Proof.Machine
end

