-- ==== Sys2Proof/Machine/Ops.lean ====
section
/-! DEFINITION. The operations every instruction shares: recording causes, deferring results, ending a word, an offset
and a run, the park, taking a trap and returning from one (R106, R112 to R117, R332 to R341). -/

namespace Sys2Proof.Machine

/-! ### Recording causes (R106) -/

/-- Record causes for lanes; a lane keeps the first recorded at the offset (R106). -/
def Coach.raise (c : Coach) (l : List (Nat × Cause)) : Coach :=
  { c with issue := { c.issue with traps := l.foldl (fun ts p =>
      if ts.any (fun q => q.1 == p.1) then ts else ts ++ [p]) c.issue.traps } }

/-- Record a cause for every lane of a mask; with an empty mask, for the offset alone (R106). -/
def Coach.raiseMask (c : Coach) (m : LaneMask) (k : Cause) : Coach :=
  if m = 0 then { c with issue := { c.issue with bare := some (c.issue.bare.getD k) } }
  else c.raise ((lanesOf m).map fun l => (l, k))

/-- A coach-once word traps for EXMSET (R106, R121). -/
def State.trapAll (s : State) (k : Cause) : State := s.modCo fun c => c.raiseMask c.masks.exm k

/-- A word of one plane traps for the EXM lanes of that plane (R106). -/
def State.trapPlane (s : State) (k : Cause) : State := s.modCo fun c => c.raiseMask c.planeLanes k

/-- A fetch fault or a coach-once word that fails decoding traps for the EXM lanes of the occupied planes (R28, R100,
R106). -/
def State.trapOcc (s : State) (k : Cause) : State := s.modCo fun c => c.raiseMask c.occLanes k

/-- Lanes trap, each with its own cause. -/
def State.trapLanes (s : State) (l : List (Nat × Cause)) : State := s.modCo fun c => c.raise l

/-! ### Results -/

/-- Defer a result to the park (R116). -/
def Coach.defer (c : Coach) (d : Deferred) : Coach :=
  { c with issue := { c.issue with deferred := c.issue.deferred ++ [d] } }

/-- Set sticky flags (R170). -/
def Coach.flag (c : Coach) (f : BitVec 5) : Coach :=
  { c with special := { c.special with fflags := c.special.fflags ||| f } }

/-- End the run after this offset, with what the coach then waits for (R112). -/
def Coach.endRun (c : Coach) (w : Wait) : Coach := { c with issue := { c.issue with ends := true, wait := w } }

/-- Continue issue at another offset (R113, R121). -/
def Coach.jump (c : Coach) (t : Int) : Coach := { c with issue := { c.issue with next := t } }

/-! ### Landing deferred results (R116, R117) -/

/-- A loaded value of n bytes in a lane's register: sign or zero extended (R208). -/
def extendTo32 (n x : Nat) (sx : Bool) : Word :=
  if n < 4 ∧ sx ∧ 2 ^ (8 * n - 1) ≤ x then BitVec.ofInt 32 ((x : Int) - 2 ^ (8 * n)) else BitVec.ofNat 32 x

/-- Whether an uncorrectable error waits to be taken at the park (R117). -/
def Coach.hasErr (c : Coach) : Bool := c.traps.ecc != [] || c.traps.eccBare.isSome

/-- Write one deferred result over whatever its destination holds (R116). A load whose data hold an uncorrectable error
keeps its destination and records the lanes (R117); where an earlier result of the park has been written there, that result stays:
DESIGN CHOICE, log 80. -/
def State.landOne (s : State) (d : Deferred) : State :=
  match d with
  | .vreg p m x f => s.modCo fun c => (c.setPhys p m x).flag f
  | .greg g x => s.modCo fun c => c.setG g x
  | .pred k m x => s.modCo fun c => c.setK k m x
  | .flags p m => s.modCo fun c => c.setPhys p m (laneVec fun _ => BitVec.zeroExtend 32 c.special.fflags)
  | .row _ _ _ _ _ _ none => s
  | .row _ lo hi m _ _ (some (x, y, f)) => s.modCo fun c => ((c.setPhys lo m x).setPhys hi m y).flag f
  | .load dest a known ecc =>
    if (List.range known.length).any fun i =>
        known[i]? == some none && (s.co.snap? (granule (a + i))).isNone && s.poisoned (a + i) 1 then
      s.modCo fun c => c.errLanes dest.lanes ecc
    else
      let miss := d.missing
      let s := miss.foldl (fun s g => s.fill g) s
      let b := (List.range known.length).map fun i =>
        match (known[i]?).getD none with
        | some b => b
        | none =>
          match s.co.snap? (granule (a + i)) with
          | some w => w.extractLsb' (8 * ((a + i) % 4)) 8
          | none => 0
      match dest with
      | .group g _ => s.modCo fun c => c.setG g (BitVec.ofNat 64 (leNat b))
      | .lane lo hi l sx =>
        let n := b.length
        let put (p : Nat) (w : Word) (c : Coach) : Coach := c.setPhys p (laneBit l) (laneVec fun _ => w)
        if n = 8 then s.modCo fun c => put hi (BitVec.ofNat 32 (leNat (b.drop 4))) (put lo (BitVec.ofNat 32 (leNat b)) c)
        else s.modCo (put lo (extendTo32 n (leNat b) sx))

/-- Write every deferred result in the order of issue (R116). -/
def State.landAll (s : State) : State :=
  let s' := s.co.issue.deferred.foldl State.landOne s
  s'.modCo fun c => { c with issue := { c.issue with deferred := [] } }

/-- Whether a deferred row has not been read from the array yet (R242). -/
def Deferred.unread : Deferred → Bool
  | .row _ _ _ _ _ _ none => true
  | _ => false

/-- The 1,024 bytes of a group: 8 registers in ascending order, lane 0 first (R138). -/
def Coach.groupBytes (c : Coach) (g : Nat) : List Byte :=
  (List.range 8).flatMap fun i => (List.range 32).flatMap fun l => wordBytes (vget (vget c.regs.v (8 * g + i)) l)

/-- A register's lanes from 128 bytes. -/
def vecOfBytes (b : List Byte) : LaneVec := laneVec fun l => BitVec.ofNat 32 (leNat ((b.drop (4 * l)).take 4))

/-- Fill a group's registers from 1,024 bytes (R140). -/
def Coach.setGroup (c : Coach) (g : Nat) (b : List Byte) : Coach :=
  (List.range 8).foldl (fun c i => c.setPhys (8 * g + i) (BitVec.allOnes 32) (vecOfBytes (b.drop (128 * i)))) c

/-- Registers and lanes of a group, with their places in its 1,024 bytes (R138). -/
def groupPlaces (g : Nat) : List (Nat × Nat × Nat) :=
  (List.range 8).flatMap fun i => (List.range 32).map fun l => (8 * g + i, l, 128 * i + 4 * l)

/-- Spill a group to its home; a word that holds an error keeps it there (R141, R381). -/
def State.spillGroup (s : State) (g home : Nat) : State :=
  let s' := s.wr home (s.co.groupBytes g)
  if s.co.regs.bad = [] then s'
  else s'.poisonAll (((groupPlaces g).filter fun p => s.co.regs.bad.contains (p.1, p.2.1)).map fun p => home + p.2.2)

/-- Refill a group from its home; a poisoned word keeps its error (R141, R381). -/
def State.refillGroup (s : State) (g home : Nat) : State :=
  let b := s.rd home 1024
  let bad := if s.poisoned home 1024 then
      ((groupPlaces g).filter fun p => s.poisoned (home + p.2.2) 4).map fun p => (p.1, p.2.1)
    else []
  s.modCo fun c =>
    let c := c.setGroup g b
    { c with regs := { c.regs with bad := c.regs.bad ++ bad } }

/-- Perform the spill or refill of the run's last word, at the core home (R141). -/
def State.moveGroups (s : State) : State :=
  let i := s.co.issue
  let s := i.spill.foldl (fun s p => s.spillGroup p.1 p.2) s
  let s := i.refill.foldl (fun s p => s.refillGroup p.1 p.2) s
  s.modCo fun c => { c with issue := { c.issue with spill := [], refill := [] } }

/-! ### Taking a trap (R332 to R338) -/

/-- Whether a code is a call cause (R333). -/
def isCall (k : BitVec 8) : Bool := k == cSysc || k == cHvc || k == cBkpt

/-- Where a cause goes by the mode it was raised in: 1 S, 2 H, 3 halt (R334). -/
def routeOf (m : Mode) (k : BitVec 8) : Nat :=
  if k = cSysc ∨ k = cBkpt then (if m = .h then 2 else 1)
  else if k = cHvc then 2
  else match m with
    | .u => 1
    | .s => 2
    | .h => 3

/-- The code of a mode (R328). -/
def Mode.code : Mode → BitVec 2
  | .u => 0
  | .s => 1
  | .h => 2

/-- The mode of a code; code 3 never arises (R328). -/
def Mode.ofCode (x : BitVec 2) : Mode := if x = 0 then .u else if x = 1 then .s else .h

/-- Every trap cause at this park: those of the offset, then those of deferred results (R332). -/
def Coach.causes (c : Coach) : List (Nat × Cause) :=
  c.traps.ecc.foldl (fun ts p => if ts.any (fun q => q.1 == p.1) then ts else ts ++ [p]) c.issue.traps

/-- The cause of the lowest-numbered trapping lane, or of the offset (R335). -/
def Coach.firstCause (c : Coach) : Cause :=
  match (List.range 32).findSome? fun l => (c.causes.find? fun p => p.1 == l).map (·.2) with
  | some k => k
  | none => (c.issue.bare.or c.traps.eccBare).getD (causeWord 0 0)

/-- TMASK (R332). -/
def Coach.trapMask (c : Coach) : LaneMask := maskOf (c.causes.map (·.1))

/-- The target of the trap by its causes and mode (R334): the highest of its lanes' targets. -/
def Coach.route (c : Coach) : Nat :=
  (c.causes.map fun p => routeOf c.traps.mode p.2.code).foldl max
    (if c.causes = [] then routeOf c.traps.mode c.firstCause.code else 1)

/-- The target after the valid bits of the vectors: S without SVEC.V goes to H, H without HVEC.V halts (R334). -/
def State.target (s : State) : Nat :=
  let t := s.co.route
  let t := if t = 1 ∧ !s.co.special.svec.getLsbD 63 then 2 else t
  if t = 2 ∧ !s.dev.hvec.getLsbD 63 then 3 else t

/-- LTCAUSE of a cause (R110). -/
def Cause.word (k : Cause) : Word := k.ahi ++ k.sub ++ k.code

/-- Record LTCAUSE and LTVAL of the trapping lanes, of lane 0 for an empty set (R337). -/
def Coach.recordCauses (c : Coach) (l : List (Nat × Cause)) (k0 : Cause) : Coach :=
  let l := if l = [] then [(0, k0)] else l
  { c with traps := { c.traps with
      ltcause := l.foldl (fun v p => vset v p.1 p.2.word) c.traps.ltcause
      ltval := l.foldl (fun v p => vset v p.1 p.2.val) c.traps.ltval } }

/-- The issue state at the start of a run: ready since now (R73, R74). -/
def Issue.fresh (i : Issue) (now : Nat) : Issue :=
  { i with
    phase := .ready, wait := .none, open_ := false, plane := 0, todo := [], count := 0, marked := false, ends := false,
    traps := [], bare := none, rex := none, bad := [], spill := [], refill := [], since := now, yielded := false }

/-- Begin at a handler: EXM the trapping lanes, every lane in plane 0, every mode reset, the vector's segment with its
limit, offset 0 (R337, R330). A coach that has yielded still has (R123). -/
def Coach.enter (c : Coach) (now : Nat) (tmask : LaneMask) (m : Mode) (vec : Dword) : Coach :=
  let g := Seg.ofWord vec
  { c with
    masks := { c.masks with
      exm := tmask, plane := Vector.replicate 32 0, modes := Vector.replicate 4 modeReset }
    segs := { c.segs with seg := g, lim := g.stride / 4 }
    traps := { c.traps with mode := m, held := false, ecc := [], eccBare := none }
    issue := { c.issue.fresh now with off := 0, next := 0, yielded := c.issue.yielded } }

/-- The DETAIL of a FAULT record (R373). -/
def Coach.detail (c : Coach) (code : BitVec 8) : Word :=
  BitVec.ofNat 32 (code.toNat + c.traps.mode.code.toNat * 2 ^ 8 + (c.ident.core / 4) * 2 ^ 16 + c.ident.slot * 2 ^ 22)

/-- A haul ends otherwise than by its last EXIT: its status is kept and issue stops in every resident coach of it, which leaves the
latch of its core; a trap that a clock change holds is never taken (R87 step 1, R343, R374). -/
def State.stopHaul (s : State) (haul status : Nat) (detail : Word) (faddr : Dword) : State :=
  let stop (c : Coach) : Coach :=
    if c.ident.haul = haul ∧ c.present then
      { c with issue := { c.issue with phase := .halted }, traps := { c.traps with held := false } }
    else c
  let mine := (s.allCoaches.filter fun c => c.ident.haul == haul).map (·.ident.id)
  let s := s.modHaul haul fun h => { h with ended := some (h.ended.getD (status, detail, faddr)) }
  { s with
    co := stop s.co
    coaches := s.coaches.map stop
    cores := s.cores.map fun (p : Nat × Core) =>
      (p.1, { p.2 with latch := p.2.latch.filter fun l => !mine.contains l.coach }) }

/-- The coach halts and its haul ends with FAULT (R334, R373). -/
def State.halt (s : State) (k : Cause) : State :=
  let faddr : Dword := if k.addr then 0#12 ++ k.ahi ++ k.val else 0
  let s' := s.stopHaul s.co.ident.haul 6 (s.co.detail k.code) faddr
  s'.modCo fun c => { c with issue := { c.issue with phase := .halted } }

/-- The frame a trap pushes (R336). -/
def Coach.frame (c : Coach) (resume : Word) (rx : Bool) : Frame where
  saveExm := c.masks.exm
  tmask := c.trapMask
  saveOff := resume
  mode := c.traps.mode
  rx := rx
  saveSeg := c.segs.seg.word
  planes := c.masks.plane
  modes := c.masks.modes

/-- HCAUSE of an entry into H (R335). -/
def hcauseOf (m : Mode) (orig cause : BitVec 8) : Dword := 0#46 ++ m.code ++ orig ++ cause

/-- Where the interrupted code resumes, and whether with re-execution (R333). An error reported at a park alone resumes
at the next run, nothing re-executed (R117). -/
def Coach.resume (c : Coach) : Word × Bool :=
  if c.issue.traps = [] ∧ c.issue.bare = none then (BitVec.ofInt 32 c.issue.off, false)
  else if (c.causes.all fun p => isCall p.2.code) && (c.issue.bare.all fun k => isCall k.code) then
    (BitVec.ofInt 32 (c.issue.off + 1), false)
  else (BitVec.ofInt 32 c.issue.off, true)

/-- TAKING A TRAP: the entry of R337, the double fault of R338, or the halt of R334, on the causes recorded. -/
def State.takeTrap (s : State) : State :=
  let c := s.co
  let k := c.firstCause
  let t := s.target
  if t = 3 then s.halt k
  else if c.traps.frames.length ≥ 4 then
    if c.traps.mode = .h ∨ !s.dev.hvec.getLsbD 63 then s.halt (causeWord cTstk (BitVec.zeroExtend 32 k.code))
    else
      let stk (k : Cause) : Cause := causeWord cTstk (BitVec.zeroExtend 32 k.code)
      let c' := c.recordCauses (c.causes.map fun p => (p.1, stk p.2)) (stk k)
      let c' := { c' with special := { c'.special with hcause := hcauseOf c.traps.mode k.code cTstk } }
      { s with co := c'.enter s.fresh c.trapMask .h s.dev.hvec }
  else
    let c' := c.recordCauses c.causes k
    let c' := { c' with traps := { c'.traps with frames := c.frame c.resume.1 c.resume.2 :: c.traps.frames } }
    if t = 1 then { s with co := c'.enter s.fresh c.trapMask .s c.special.svec }
    else
      let c' := { c' with special := { c'.special with hcause := hcauseOf c.traps.mode 0 k.code } }
      { s with co := c'.enter s.fresh c.trapMask .h s.dev.hvec }

/-- A trap at a park is taken at once, or held while the quad's clock changes (R342). -/
def State.enterTrap (s : State) : State :=
  if (s.quad (s.co.ident.core / 4)).changing then
    s.modCo fun c => { c with traps := { c.traps with held := true }, issue := { c.issue with phase := .parked } }
  else s.takeTrap

/-- The fetch limit of a segment returned to (R330). -/
def Segs.limOf (g : Segs) (x : Seg) : Nat := if x = g.home then g.homeLen else x.stride / 4

/-- RETURNING FROM A TRAP (R340): the newest frame is restored; without a frame nothing happens. A coach that is to re-execute
an offset has not come to its save point (R341, R350): DEDUCED, log 20. -/
def State.trapReturn (s : State) : State :=
  match s.co.traps.frames with
  | [] => s.modCo fun c => { c with issue := c.issue.fresh s.fresh }
  | f :: rest =>
    s.modCo fun c =>
      let exm := f.saveExm &&& c.masks.live
      let x := f.tmask &&& exm
      let g := Seg.ofWord f.saveSeg
      let off : Int := f.saveOff.toNat
      let off := if f.rx ∧ x = 0 then off + 1 else off
      { c with
        masks := { c.masks with exm := exm, plane := f.planes, modes := f.modes }
        segs := { c.segs with seg := g, lim := c.segs.limOf g }
        traps := { c.traps with mode := f.mode, frames := rest }
        issue := { c.issue.fresh s.fresh with
          off := off, next := off, rex := if f.rx ∧ x ≠ 0 then some x else none }
        preempt := if f.rx ∧ x ≠ 0 then { c.preempt with atSave := false } else c.preempt }

/-! ### The park (R112, R117, R141) -/

/-- A coach that a request has found waiting, or that has waited since, comes to its save point, in full, when the park ends or the trap
it was to take first has been entered (R343, R350; log 59). One still to re-execute an offset does not (log 20). -/
def Coach.toSave (c : Coach) : Coach :=
  if c.preempt.pending ∧ c.ident.level = 0 ∧ !c.preempt.atSave ∧ c.issue.rex = none ∧ !c.traps.held ∧
      (c.issue.phase = .ready ∨ c.issue.phase = .waiting) then
    { c with preempt := { c.preempt with atSave := true, full := true } }
  else c

/-- The coach is ready for its next run, or takes the trap that an error in a deferred result reports (R117). One that waits at its
save point takes no trap (R350): it is ready and takes it when it is chosen next (log 72). -/
def State.endWait (s : State) : State :=
  if s.co.hasErr ∧ ¬ (s.co.issue.phase = .waiting ∧ s.co.preempt.atSave) then s.enterTrap
  else s.modCo fun c => { c with issue := { c.issue.fresh s.fresh with yielded := c.issue.yielded, rex := c.issue.rex } }

/-- End a coach's wait, at its park when it has not come to it yet. -/
def State.releaseWait (s : State) (coach : Nat) : State :=
  s.within coach fun s =>
    if s.co.ident.id = coach then
      if s.co.issue.phase = .waiting then s.endWait
      else s.modCo fun c => { c with issue := { c.issue with wait := .none } }
    else s

/-- Drop the coach's segment from its core's instruction cache; the coach fetches no word older than this (R307, R312). -/
def State.dropSegment (s : State) : State :=
  let g := s.co.segs.seg
  let s := s.modCo fun c => { c with issue := { c.issue with codeSince := s.fresh } }
  s.modCore s.co.ident.core fun k => { k with
    icache := k.icache.filter fun e =>
      !(g.base.toNat ≤ e.1 && e.1 < g.base.toNat + (g.plm1.toNat + 1) * g.stride) }

/-- The coach waits (R73); with a pre-emption pending that is its save point (R350). -/
def State.beginWait (s : State) : State :=
  s.modCo fun c => ({ c with issue := { c.issue with phase := .waiting } }).toSave

/-- What follows the results of a run: the trap recorded, the return, or the coach's wait. A SLEEP whose time has passed makes an
ordinary park (R347). With a wait to come, an error in a result is taken when the wait is over, at the end of the park (R117): DESIGN
CHOICE, log 72. An error in a result of the run that EXIT ends is discarded with the results: DESIGN CHOICE, log 80. -/
def State.afterResults (s : State) : State :=
  if s.co.issue.traps ≠ [] ∨ s.co.issue.bare ≠ none then s.enterTrap
  else match s.co.issue.wait with
    | .none => s.endWait
    | .ifence => s.dropSegment.endWait
    | .tret => if s.co.hasErr then s.trapReturn.enterTrap else s.trapReturn
    | .exit => s.modCo fun c => { c with issue := { c.issue with phase := .retiring } }
    | .sleep t => if t.toNat ≤ s.dev.time.toNat then s.endWait else s.beginWait
    | _ => s.beginWait

/-- End a park: deferred results land in order, then a spill or refill; then what follows them (R112, R116, R141, R332). It lasts
while an accumulator row has not been read. A coach that has waited in it for results comes to its save point with a pre-emption
pending (R73, R350; log 59). -/
def State.park (s : State) : State :=
  if s.co.issue.deferred.any Deferred.unread then s.modCo fun c => { c with issue := { c.issue with phase := .parked } }
  else
    let t := s.landAll.moveGroups.afterResults
    if s.co.issue.deferred = [] then t else t.modCo Coach.toSave

/-! ### Ending a word and an offset (R94, R100, R112, R119) -/

/-- Writes of ASID, PTBASE and S2BASE at the offset come into force (R349). -/
def State.commitBases (s : State) : State :=
  let i := s.co.issue
  let s := i.newS2.foldl (fun s p => s.modVf p.1 fun v => { v with s2base := p.2 }) s
  s.modCo fun c => { c with
    special := { c.special with asid := i.newAsid.getD c.special.asid, ptbase := i.newRoot.getD c.special.ptbase }
    issue := { c.issue with newAsid := none, newRoot := none, newS2 := [] } }

/-- A run ends: the coach parks, and a park with no result outstanding ends at once (R73, R74, R112, R120). -/
def State.endOfRun (s : State) : State :=
  if s.co.issue.deferred = [] then s.park else s.modCo fun c => { c with issue := { c.issue with phase := .parked } }

/-- The offset has issued whole: a trap recorded is taken at once; a marked or run-ending offset ends the run; otherwise issue goes on at NEXT (R112, R332). -/
def State.endOffset (s : State) : State :=
  let s := s.commitBases
  let s := s.modCo fun c => { c with issue := { c.issue with open_ := false, count := c.issue.count + 1 } }
  let i := s.co.issue
  if i.traps ≠ [] ∨ i.bare ≠ none then s.park
  else
    let s := s.modCo fun c => { c with issue := { c.issue with off := i.next, next := i.next, rex := none } }
    if i.wait = .tret then s.park
    else if i.marked ∨ i.ends then s.endOfRun else s

/-- The lanes of EXMSET whose guard under their own plane's mode is true (R287). -/
def Coach.viewLanes (c : Coach) : List Nat :=
  (lanesOf c.masks.exm).filter fun l =>
    let m := vget c.masks.modes (c.planeOf l).toNat
    (c.kreg (modeGrd m)).getLsbD l != modeNeg m

/-- The lanes that a word would read an erroneous register for, each with its cause: for a coach-once word the lanes of
EXMSET (those of VL under VIEWL), otherwise those of ACTIVE(p). A word that exchanges lanes is charged to every one of them (R381): DEDUCED, log 39. -/
def Coach.badReads (c : Coach) (w : Word) : List (Nat × Cause) :=
  match decode w with
  | .error _ => []
  | .ok i =>
    let lanes := match i with
      | .viewl _ _ _ _ => c.viewLanes
      | _ => lanesOf (if coachOnce w then c.masks.exm else c.active)
    let cause (p l : Nat) : Cause := causeSpace cEcc (c.poolAddr p l)
    let srcs := i.vsrcs.map fun r => c.phys r.toNat
    if i.exchanges then
      match c.regs.bad.find? fun q => srcs.contains q.1 with
      | none => []
      | some q => lanes.map fun l => (l, cause q.1 q.2)
    else lanes.filterMap fun l => (srcs.find? fun p => c.regs.bad.contains (p, l)).map fun p => (l, cause p l)

/-- The word of the issuing plane is due: the lanes that read an erroneous register are told apart (R381). -/
def Coach.wordDue (c : Coach) : Coach :=
  let c := { c with issue := { c.issue with bad := [] } }
  if c.regs.bad = [] then c
  else { c with issue := { c.issue with bad := c.badReads (vget c.issue.words c.issue.plane.toNat) } }

/-- A word has issued: its lanes that read an erroneous register record it; then the next occupied plane's word is due, or
the offset ends (R100, R106, R119). A coach whose own word has stopped its haul issues nothing further (R87 step 1, R360). -/
def State.finishWord (m : Bool) (s : State) : State :=
  if s.co.issue.phase = .halted then s
  else
  let s := s.modCo fun c =>
    let c := c.raise c.issue.bad
    { c with issue := { c.issue with marked := c.issue.marked || m, bad := [] } }
  match s.co.issue.todo with
  | p :: ps => s.modCo fun c => ({ c with issue := { c.issue with plane := p, todo := ps } }).wordDue
  | [] => s.endOffset

/-- The outcome of a word with effect f. -/
def word (m : Bool) (s : State) (f : State → State) : Host.Outcome State Fault Refusal := .next ((f s).finishWord m)

/-- The outcome of a word that needs S mode or higher: below it the word traps with PRIV for the lanes given, its value
the word (R103, R106). -/
def wordS (i : Instr) (m : Bool) (s : State) (trap : State → Cause → State) (f : State → State) :
    Host.Outcome State Fault Refusal :=
  word m s fun s => if s.co.traps.mode = .u then trap s (causeWord cPriv i.word) else f s

end Sys2Proof.Machine
end

