-- ==== Sys2Proof/Machine/Fetch.lean ====
section
/-! DEFINITION. Fetching the words of an offset and the checks of R100; the step that moves the coach in focus when
nothing else is scheduled; placing an instruction for the next step to fetch. -/

namespace Sys2Proof.Machine

/-- The address of the word at an offset of a plane, exactly: none lies at or above 2^52 (R27, R194). -/
def Coach.addrAt (c : Coach) (p : BitVec 2) (off : Nat) : Nat :=
  c.segs.seg.base.toNat + p.toNat * c.segs.seg.stride + 4 * off

/-- The address of the word at the offset that is to issue. -/
def Coach.wordAddr (c : Coach) (p : BitVec 2) : Nat := c.addrAt p c.issue.off.toNat

/-- Words that a core's instruction cache of 128 KiB holds (R22). -/
def icacheWords : Nat := 32768

/-- A word that the core's instruction cache holds for an address, read no earlier than the coach's start or last IFENCE, when the fetch hits: free
value, log 4 (R307). -/
def State.cached (s : State) (va home : Nat) : Option Word :=
  match (s.core s.co.ident.core).icache.filter fun e =>
    e.1 == va && e.2.1 == home && decide (s.co.issue.codeSince ≤ e.2.2.2) with
  | [] => none
  | l => (l[Config.icachePick s.fresh va]?).map (·.2.2.1)

/-- The cache of a core takes words in, newest first, up to its size (R22). -/
def Core.takeCode (k : Core) (l : List (Nat × Nat × Word × Nat)) : Core :=
  { k with icache := (l ++ k.icache).take icacheWords, warm := true }

/-- What a core's cache fetches ahead in a step, each word as the pkg point has it now, none with an uncorrectable error (R307,
R381). -/
def State.prefetched (s : State) (n : Nat) (k : Core) : Core :=
  if k.warm then
    k.takeCode (((Config.prefetch s.fresh n).filter fun p => !s.poisoned p.2 4).map fun p =>
      (p.1, p.2, s.homeWord p.2, s.fresh))
  else k

/-- Fetch the word of one plane: the word, or the cause of R28. -/
def State.fetchWord (s : State) (p : BitVec 2) : State × Except Cause Word :=
  let va := s.co.wordAddr p
  match s.translate s.ctx .fetch va with
  | (s, .found home _ _) =>
    match s.cached va home with
    | some w => (s, .ok w)
    | none =>
      if s.poisoned home 4 then (s, .error (causeAddr cEcc va))
      else
        let w := s.homeWord home
        (s.modCore s.co.ident.core fun k => k.takeCode [(va, home, w, s.fresh)], .ok w)
  | (s, .absent _ _) => (s, .error (causeAddr cNres va))
  | (s, .ecc) => (s, .error (causeAddr cEcc va))
  | (s, _) => (s, .error (causeWord cProt (BitVec.ofInt 32 s.co.issue.off)))

/-- Fetch the words of the planes given, in ascending order, the first failure ending it (R100 step 1). Where the fetches of several
planes fail, the cause is the lowest failing plane's: DESIGN CHOICE, log 80. -/
def State.fetchAll : List (BitVec 2) → State → State × Except Cause (List (BitVec 2 × Word))
  | [], s => (s, .ok [])
  | p :: ps, s =>
    match s.fetchWord p with
    | (s, .error k) => (s, .error k)
    | (s, .ok w) =>
      match State.fetchAll ps s with
      | (s, .error k) => (s, .error k)
      | (s, .ok l) => (s, .ok ((p, w) :: l))

/-- The words of the coach's offset, or the fetch cause (R28, R100 step 1, R330). -/
def State.fetchOffset (s : State) : State × Except Cause (List (BitVec 2 × Word)) :=
  if s.co.issue.off < 0 ∨ (s.co.segs.lim : Int) ≤ s.co.issue.off then
    (s, .error (causeWord cProt (BitVec.ofInt 32 s.co.issue.off)))
  else State.fetchAll s.co.occ s

/-- The words of an offset do not agree although one of them is coach-once (R100 step 2). -/
def misaligned (l : List (BitVec 2 × Word)) : Bool :=
  l.any (fun p => coachOnce p.2) && l.any fun p => l.any fun q => p.2 != q.2

/-- The words are identical and coach-once (R100 step 3). -/
def once (l : List (BitVec 2 × Word)) : Bool := l.all fun p => coachOnce p.2

/-- The offset's words stand ready, the first of them due: a coach-once word for the lowest occupied plane alone, otherwise
each plane's word in ascending order (R100 steps 3 and 4). -/
def Coach.openWith (c : Coach) (l : List (BitVec 2 × Word)) : Coach :=
  let ps := l.map (·.1)
  let c : Coach := { c with issue := { c.issue with
      open_ := true
      words := l.foldl (fun v p => vset v p.1.toNat p.2) c.issue.words
      plane := ps.headD 0
      todo := if once l then [] else ps.tail
      next := c.issue.off + 1 } }
  c.wordDue

/-- PALIGN for every EXM lane of the occupied planes, each lane's value its own plane's word (R100 step 2, R111). -/
def State.palign (s : State) (l : List (BitVec 2 × Word)) : State :=
  let wordOf (p : BitVec 2) : Word := ((l.find? fun q => q.1 == p).map (·.2)).getD 0
  let s := s.trapLanes ((lanesOf s.co.occLanes).map fun n => (n, causeWord cPalign (wordOf (s.co.planeOf n))))
  s.endOffset

/-- Open the coach's offset: fetch and check its words (R100). The second part is the event to run when the fetch
fails. -/
def State.openOffset (s : State) : State × Bool :=
  match s.fetchOffset with
  | (s, .error _) => (s, false)
  | (s, .ok l) => if misaligned l then (s.palign l, true) else (s.modCo fun c => c.openWith l, true)

/-- A fetch fault: no word of the offset takes effect; the EXM lanes of the occupied planes trap (R28, R100 step 1). A core whose quad's
clock changes pauses (R376). -/
def execFetchFault (s : State) : Host.Outcome State Fault Refusal :=
  .next (if (s.quad (s.co.ident.core / 4)).changing then s
    else match s.fetchOffset with
      | (s, .error k) => (s.trapOcc k).endOffset
      | (s, .ok _) => s)

/-- A word that fails decoding traps with ILL and its subcode, for the EXM lanes of every occupied plane when it names a
coach-once instruction, for its own plane's otherwise (R100, R105). -/
def execIllegalEncoding (w : BitVec 32) (s : State) : Host.Outcome State Fault Refusal :=
  match decode w with
  | .ok _ => .next s
  | .error sub =>
    let k := causeIll sub.code w
    word (marked w) s fun s => if coachOnce w then s.trapOcc k else s.trapPlane k

/-- The word the coach in focus is to issue, as an instruction (R105). -/
def Coach.current (c : Coach) : Instr :=
  let w := vget c.issue.words c.issue.plane.toNat
  match decode w with
  | .ok i => i
  | .error _ => .illegalEncoding w

/-- Bring the coach that has been out of focus longest into focus. -/
def State.rotate (s : State) : State :=
  match s.coaches with
  | [] => s
  | c :: rest => { s with co := c, coaches := if s.co.present then rest ++ [s.co] else rest }

/-- The step that may end the wait of the coach in focus. -/
def State.release (s : State) : Option Instr :=
  let c := s.co
  match c.issue.wait with
  | .none | .ifence | .tret | .exit => none
  | .barrier b => some (.barrierGenerationComplete c.ident.id b)
  | .rearrive b _ => some (.barrierGenerationComplete c.ident.id b)
  | .vwait _ _ => some (.ticketCommit c.ident.id)
  | .view _ _ _ => some (.ticketCommit c.ident.id)
  | .evwait _ => some (.evwaitRelease c.ident.id)
  | .dwait _ _ _ => some (.dwaitRelease c.ident.id)
  | .sleep _ => some (.sleepWake c.ident.id)
  | .token => some (.tokenGrant c.ident.core)
  | .malloc _ _ => some (.mallocGrant c.ident.core)
  | .latch => some (.gangRendezvous c.ident.core)
  | .tdone =>
    if (s.quad (c.ident.core / 4)).events.length < 256 then some (.eventRecordPost (c.ident.core / 4))
    else some (.eventQueueRead (c.ident.core / 4))
  | .recorded k _ =>
    if k = 2 then some (.ticketCommit c.ident.id)
    else if k = 3 then some (.evwaitRelease c.ident.id)
    else if k = 4 then some (.dwaitRelease c.ident.id)
    else some (.sleepWake c.ident.id)

/-- The instruction a restored coach whose operands no image names waits in: the word before OFF in its lowest occupied plane, at its home (R41, R353; log
15). -/
def State.waitInstr (s : State) : State × Option Instr :=
  let c := s.co
  if c.issue.off ≤ 0 then (s, none)
  else
    match s.translate s.ctx .fetch (c.addrAt (c.occ.headD 0) (c.issue.off.toNat - 1)) with
    | (s, .found home _ _) => (s, (decode (s.homeWord home)).toOption)
    | (s, _) => (s, none)

/-- The word or step due for an open offset: MWAIT gives way to the array while an operation of the coach is queued
(R258). -/
def State.due (s : State) : Instr :=
  let i := s.co.current
  match i with
  | .mwait _ =>
    if (s.core s.co.ident.core).queue.any fun op => op.isQueue && op.owners.contains s.co.ident.id then
      .arrayOperationComplete s.co.ident.core
    else i
  | _ => i

/-- What the coach in focus does when nothing is scheduled: the instruction or step, and the state it starts from; none
when another coach comes into focus instead. -/
def State.auto (s : State) : Option Instr × State :=
  if (s.quad (s.co.ident.core / 4)).changing ∧ s.co.present then (none, s.rotate)
  else match s.co.issue.phase with
  | .issuing =>
    if s.co.issue.open_ then (some s.due, s)
    else if 24 ≤ s.co.issue.count then (some .runLimit, s)
    else
      match s.openOffset with
      | (_, false) => (some .fetchFault, s)
      | (s, true) => if s.co.issue.open_ then (some s.due, s) else (none, s)
  | .parked =>
    if s.co.traps.held then (some (.trapEntry s.co.ident.id), s)
    else if s.co.issue.deferred.any Deferred.unread then (some (.arrayOperationComplete s.co.ident.core), s)
    else (some .parkEnd, s)
  | .ready => if s.fresh % 2 = 0 then (some (.coachSelect s.co.ident.core s.co.ident.port), s) else (none, s.rotate)
  | .waiting => if s.fresh % 2 = 0 then (s.release, s) else (none, s.rotate)
  | .retiring => if s.fresh % 2 = 0 then (some (.coachRetire s.co.ident.id), s) else (none, s.rotate)
  | .halted => (some (.haulRetire s.co.ident.haul), s)
  | .absent | .saved => (none, s.rotate)

/-! ### The journal (R64) -/

/-- What the acting leader has in its journal: queues with their packets, deferred lists, commands, held completions. -/
def State.journalItems (s : State) : List JItem :=
  (s.queues.map fun q => .queue { q with reading := none }) ++
  ((s.vfs.filter fun p => p.2.deferred != []).map fun p => .deferred p.1 p.2.deferred) ++
  s.commands.map .command ++ s.dev.heldCompletions.map .held

/-- The acting leader's entries stand for what it has done; entries of other epochs stay as they are (R64). -/
def State.keepJournal (s : State) : State :=
  match s.dev.leader with
  | none => s
  | some (e, _) => s.modDev fun d => { d with
      journal := (s.journalItems.map fun i => { epoch := e, item := i }) ++ d.journal.filter fun j => j.epoch != e }

/-- What a view request reads of its scene in a step before its traversal ends; its engine pauses while the quad's clock changes
(R292, R376; log 81). -/
def State.readsAhead (s : State) (v : ViewReq) : ViewReq :=
  if v.traversed ∨ (s.quad v.quad).changing then v
  else { v with seen := v.seen ++ (Config.viewReads s.fresh v.id).map fun g =>
    (granule g, if s.poisoned (granule g) 4 then none else some (s.homeWord (granule g))) }

/-- Time passes with every step: the reference clock and the core clock of the coach in focus (R21), by free amounts,
log 1, the latter only while the clock is stable (R342, R376); the instruction caches fetch ahead (R307, log 4), and
view requests read their scenes (R292, log 81); the free-value counter moves on. -/
def State.tick (s : State) : State :=
  let s := { s.keepJournal with
    cores := s.cores.map fun (p : Nat × Core) => (p.1, s.prefetched p.1 p.2)
    views := s.views.map s.readsAhead
    fresh := s.fresh + 1
    dev := { s.dev with time := s.dev.time + BitVec.ofNat 64 (Config.ticks s.fresh) } }
  if (s.quad (s.co.ident.core / 4)).changing then s
  else s.modCore s.co.ident.core fun k => { k with cycle := k.cycle + BitVec.ofNat 64 (Config.cycles s.fresh) }

/-- Whether an instruction is a word of the opcode map; the others are steps of the device. -/
def Instr.isWord (i : Instr) : Bool := (encode i).isSome

/-! ### Placing an instruction for the next step (used by State.withFetchWord) -/

/-- Offset in the host window of the code that withFetchWord places. -/
def placeAt : Nat := 0x10000

/-- A coach as R35 starts it, alone in rake 0 of a haul, all 32 lanes live, on core 0; its code lies in the host window,
which every mode may fetch from and which has its fixed mapping (R45, R202). -/
def placedCoach (id haul : Nat) : Coach :=
  let g : Seg := { base := BitVec.ofNat 52 (winBase + placeAt), plm1 := 0, lst := 0 }
  { coachNone with
    ident := { coachNone.ident with id := id, haul := haul }
    masks := { coachNone.masks with exm := BitVec.allOnes 32, live := BitVec.allOnes 32 }
    regs := { coachNone.regs with v := vset coachNone.regs.v 0 (laneVec fun l => BitVec.ofNat 32 l) }
    window := { coachNone.window with
      rsp := 0x400, rspBase := 0x400, rspEnd := 0x480, sps := 0x480, spsBase := 0x480, spsEnd := 0x880,
      scrBase := 0x40000, scrSize := 0x880, scrProg := 0x400, regPool := List.range 8, qmSize := 0x1000 }
    segs := { seg := g, lim := 64, home := g, homeLen := 64 }
    issue := { coachNone.issue with phase := .issuing } }

/-- The header of the haul that coach belongs to (R32). -/
def placedHeader : Header where
  kind := 0
  plcnt := 1
  prio := 0
  segb := winBase + placeAt
  seglen := 64
  entry := 0
  args := 0
  rakes := 1
  lanes := 32
  pregs := 64
  part := 0x881#32
  scrb := 0x400
  qmb := 0x1000
  spill := 0x400
  rstk := 0x80
  nbound := 1
  slice := 0
  deadline := 0
  watchdog := 0
  next := 0
  lifts := 0
  rtab := 0
  nrec := 0
  compat := 0

/-- A haul with that header, launched by nobody, on VF 0. -/
def placedHaul (id : Nat) : Haul where
  id := id
  vf := 0
  pasid := 0
  asid := 0
  ptroot := 0
  prio := 0
  image := 0
  record := 0
  signal := 0
  packet := none
  qno := none
  tcb := none
  spec := false
  committed := false
  psets := []
  hdr := placedHeader
  lifts := []
  launchNo := 0
  tAccept := 0
  nextRake := 1
  saved := []
  rakesDone := 0
  ended := none
  silent := false
  released := false
  heldRelease := false
  retired := false
  watch := 0
  watchFrom := none
  tEnd := 0
  last := (0, 0)
  dies := [(0, 0)]
  gone := []
  waits := []
  promoted := []
  saving := none

/-- With no coach in focus, the placed coach comes to be, with its haul and rake. -/
def State.ensureCoach (s : State) : State :=
  if s.co.present then s
  else
    let id := s.nextId
    { s with
      co := placedCoach id (id + 1)
      hauls := placedHaul (id + 1) :: s.hauls
      rakes := { haul := id + 1, rake := 0, quad := 0, rot := 0, since := s.dev.time, qmBase := 0,
                 scr := [0x40000, 0x40000, 0x40000, 0x40000] } :: s.rakes
      quads := tset s.quads 0 { s.quad 0 with haul := some (id + 1) }
      nextId := id + 2 }

/-- Point the coach in focus at the placed code: at offset 0 of a fresh run, in one plane, the words at bytes from
placeAt on. -/
def State.pointAt (s : State) (b : List Byte) : State :=
  let g : Seg := { base := BitVec.ofNat 52 (winBase + placeAt), plm1 := 0, lst := 0 }
  let s := s.wr (homeWin placeAt) b
  let s := s.modCore s.co.ident.core fun k => { k with icache := [], warm := false }
  let s := s.modQuad (s.co.ident.core / 4) fun q => { q with changing := false }
  s.modCo fun c =>
    { c with
      masks := { c.masks with plane := Vector.replicate 32 0 }
      segs := { c.segs with seg := g, lim := 64 }
      issue := { c.issue.fresh s.fresh with phase := .issuing, off := 0, next := 0, deferred := [] } }

end Sys2Proof.Machine
end

