-- ==== Sys2Proof/Machine/Operands.lean ====
section
/-! DEFINITION. Operand forms: lane-class, plane-group and coach-once shapes of instruction, immediates, and addresses
(R91, R92, R99, R114, R194, R208 to R213). -/

namespace Sys2Proof.Machine

/-! ### Immediates (R92, R104) -/

/-- An immediate sign-extended to a word. -/
def sext32 {n : Nat} (x : BitVec n) : Word := x.signExtend 32
/-- An immediate zero-extended to a word. -/
def zext32 {n : Nat} (x : BitVec n) : Word := x.zeroExtend 32
/-- An immediate sign-extended to a dword. -/
def sext64 {n : Nat} (x : BitVec n) : Dword := x.signExtend 64
/-- A value zero-extended to a dword. -/
def zext64 {n : Nat} (x : BitVec n) : Dword := x.zeroExtend 64

/-! ### Lane class (R99): results for the lanes of ACTIVE(p) -/

/-- V[d][L] ← f L for each active lane, fixed latency (R114). -/
def State.lane (s : State) (d : BitVec 6) (f : Coach → Nat → Word) : State :=
  s.modCo fun c => c.setVec d.toNat c.active (laneVec (f c))

/-- V[d][L] ← the first part of f L and FFLAGS gathers the second part over the active lanes (R170). -/
def State.laneF (s : State) (d : BitVec 6) (f : Coach → Nat → Word × BitVec 5) : State :=
  s.modCo fun c =>
    (c.setVec d.toNat c.active (laneVec fun l => (f c l).1)).flag
      ((lanesOf c.active).foldl (fun a l => a ||| (f c l).2) 0)

/-- The same, deferred to the park (R115, R116). -/
def State.laneD (s : State) (d : BitVec 6) (f : Coach → Nat → Word × BitVec 5) : State :=
  s.modCo fun c =>
    c.defer (.vreg (c.phys d.toNat) c.active (laneVec fun l => (f c l).1)
      ((lanesOf c.active).foldl (fun a l => a ||| (f c l).2) 0))

/-- K[d][L] ← f L for each active lane (R114). -/
def State.lanePred (s : State) (d : BitVec 5) (f : Coach → Nat → Bool) : State :=
  s.modCo fun c => c.setK d c.active (laneMask (f c))

/-- The same with flags. -/
def State.lanePredF (s : State) (d : BitVec 5) (f : Coach → Nat → Bool × BitVec 5) : State :=
  s.modCo fun c => (c.setK d c.active (laneMask fun l => (f c l).1)).flag
    ((lanesOf c.active).foldl (fun a l => a ||| (f c l).2) 0)

/-! ### Group results -/

/-- G[d] ← f, fixed latency. -/
def State.group (s : State) (d : BitVec 6) (f : Coach → Dword) : State := s.modCo fun c => c.setG d (f c)
/-- G[d] ← f, deferred to the park (R115). -/
def State.groupD (s : State) (d : BitVec 6) (f : Coach → Dword) : State := s.modCo fun c => c.defer (.greg d (f c))
/-- GK[d] ← f. -/
def State.groupPred (s : State) (d : BitVec 4) (f : Coach → Bool) : State := s.modCo fun c => c.setGk d (f c)

/-! ### Addresses (R194, R208 to R213) -/

/-- G[a] + V[b][L], the offset signed or unsigned (R208, R213). -/
def Coach.laneAddr (c : Coach) (a b : BitVec 6) (signed : Bool) (l : Nat) : Int :=
  (c.greg a).toNat + (if signed then (c.vreg b.toNat l).toInt else ((c.vreg b.toNat l).toNat : Int))

/-- G[a] + 16 × V[b][L]: the address of a sum cell (R216). -/
def Coach.cellAddr (c : Coach) (a b : BitVec 6) (l : Nat) : Int := (c.greg a).toNat + 16 * ((c.vreg b.toNat l).toNat : Int)

/-- G[a] + 8 × sext(imm13) (R210). -/
def Coach.groupAddr (c : Coach) (a : BitVec 6) (i : BitVec 13) : Int := (c.greg a).toNat + 8 * i.toInt

/-- zext(V[a][L]) + G[b]: a scratchpad or quad-memory address (R211). -/
def Coach.spaceAddr (c : Coach) (a b : BitVec 6) (l : Nat) : Nat := (c.vreg a.toNat l).toNat + (c.greg b).toNat

/-- The bytes a size code names (R207). -/
def sizeOf' (z : BitVec 2) : Nat := 2 ^ z.toNat

/-- The home of a scratchpad (false) or quad-memory (true) access of n bytes, or its cause (R194, R195, R211). -/
def Coach.space (c : Coach) (quad : Bool) (a n : Nat) : Except Cause Nat :=
  let size := if quad then c.window.qmSize else c.window.scrSize
  if a % n ≠ 0 then .error (causeSpace cMisal a)
  else if size < a + n then .error (causeSpace cProt a)
  else .ok (if quad then homeQm (c.ident.core / 4) (c.window.qmBase + a) else homeScr c.ident.core (c.window.scrBase + a))

/-- The relative target of a branch (R92, R132). -/
def Coach.relative {n : Nat} (c : Coach) (o : BitVec n) : Int := c.issue.off + o.toInt

end Sys2Proof.Machine
end

