-- ==== Sys2Proof/Machine/Control.lean ====
section
/-! DEFINITION. The control words: NOP to IDS, branches and jumps, calls and returns, masks, planes and modes
(R121 to R143). -/

namespace Sys2Proof.Machine

/-- The zero word: ILL, subcode ZERO, for the EXM lanes of the plane (R105). -/
def execZeroWordTrap (m : Bool) (x : BitVec 18) (s : State) : Host.Outcome State Fault Refusal :=
  word m s fun s => s.trapPlane (causeIll 0 (Instr.zeroWordTrap m x).word)

/-- NOP (R122). -/
def execNop (m : Bool) (s : State) : Host.Outcome State Fault Refusal := word m s fun s => s

/-- EXIT: ends the run; the coach retires after its park (R124). -/
def execExit (m : Bool) (s : State) : Host.Outcome State Fault Refusal := word m s fun s => s.modCo fun c => c.endRun .exit

/-- YIELD (R123). -/
def execYield (m : Bool) (s : State) : Host.Outcome State Fault Refusal :=
  word m s fun s => s.modCo fun c => { c.endRun .none with issue := { (c.endRun .none).issue with yielded := true } }

/-- Set the mode of the issuing plane. -/
def Coach.setMode (c : Coach) (x : Word) : Coach :=
  { c with masks := { c.masks with modes := vset c.masks.modes c.issue.plane.toNat x } }

/-- MODE (R125): TYPE 9 to 15 traps; bits [5:0] are checked by the decoder. -/
def execMode (m : Bool) (g : BitVec 5) (n : BitVec 1) (t : BitVec 4) (r : BitVec 2) (s : BitVec 1) (p : BitVec 5)
    (e : BitVec 1) (st : State) : Host.Outcome State Fault Refusal :=
  word m st fun st =>
    if 9 ≤ t.toNat then st.trapPlane (causeIll subType (Instr.mode m g n t r s p e).word)
    else st.modCo fun c => c.setMode (0#7 ++ g ++ n ++ t ++ r ++ s ++ p ++ e ++ 0#6)

/-- The check of a mode value from a register: none, or the ILL subcode (R126, R97). -/
def modeBad (x : Dword) : Option (BitVec 4) :=
  if x.extractLsb' 25 39 ≠ 0 ∨ x.extractLsb' 0 6 ≠ 0 then some subField
  else if 9 ≤ (x.extractLsb' 15 4).toNat then some subType else none

/-- MODEG (R126). -/
def execModeg (m : Bool) (a : BitVec 6) (s : State) : Host.Outcome State Fault Refusal :=
  word m s fun s =>
    let x := s.co.greg a
    match modeBad x with
    | some sub => s.trapPlane (causeIll sub (Instr.modeg m a).word)
    | none => s.modCo fun c => c.setMode (x.extractLsb' 0 32)

/-- MODER (R126). -/
def execModer (m : Bool) (d : BitVec 6) (s : State) : Host.Outcome State Fault Refusal :=
  word m s fun s => s.group d fun c => zext64 c.mode

/-- Set EXM, lanes outside LIVE left out (R127). -/
def Coach.setExm (c : Coach) (x : LaneMask) : Coach := { c with masks := { c.masks with exm := x &&& c.masks.live } }

/-- EXMS (R127). -/
def execExms (m : Bool) (a : BitVec 6) (s : State) : Host.Outcome State Fault Refusal :=
  word m s fun s => s.modCo fun c => c.setExm ((c.greg a).extractLsb' 0 32)

/-- EXMG (R127). -/
def execExmg (m : Bool) (d : BitVec 6) (s : State) : Host.Outcome State Fault Refusal :=
  word m s fun s => s.group d fun c => zext64 c.masks.exm

/-- EXMA (R127). -/
def execExma (m : Bool) (a : BitVec 6) (s : State) : Host.Outcome State Fault Refusal :=
  word m s fun s => s.modCo fun c =>
    { c with masks := { c.masks with exm := c.masks.exm &&& (c.greg a).extractLsb' 0 32 } }

/-- Move the EXM lanes to the planes f names; a plane at or above PLCNT traps its lane with PRANGE (R128). A lane whose register
holds an uncorrectable error stays where it is (R381). -/
def State.switch (s : State) (f : Coach → Nat → Word) : State :=
  let c := s.co
  let n := c.segs.seg.plm1.toNat + 1
  let lanes := (lanesOf c.masks.exm).filter fun l => c.issue.bad.all fun q => q.1 != l
  let good := lanes.filter fun l => (f c l).toNat < n
  let bad := lanes.filter fun l => n ≤ (f c l).toNat
  let s := s.modCo fun c => { c with masks := { c.masks with
    plane := good.foldl (fun v l => vset v l ((f s.co l).extractLsb' 0 2)) c.masks.plane } }
  s.trapLanes (bad.map fun l => (l, causeWord cPrange (f c l)))

/-- PSW (R128). -/
def execPsw (m : Bool) (a : BitVec 6) (s : State) : Host.Outcome State Fault Refusal :=
  word m s fun s => s.switch fun c l => c.vreg a.toNat l

/-- PSWI (R128). -/
def execPswi (m : Bool) (p : BitVec 2) (s : State) : Host.Outcome State Fault Refusal :=
  word m s fun s => s.switch fun _ _ => zext32 p

/-- PLQ: the occupied planes, and the lanes of plane p whatever their EXM bit (R129). -/
def execPlq (m : Bool) (d : BitVec 6) (p : BitVec 2) (s : State) : Host.Outcome State Fault Refusal :=
  word m s fun s => s.group d fun c =>
    let occ : Word := c.occ.foldl (fun a q => a ||| (1#32 <<< q.toNat)) 0
    let lanes : LaneMask := if c.segs.seg.plm1.toNat < p.toNat then 0 else c.inPlane p
    occ ++ lanes

/-- LANEID (R130). -/
def execLaneid (m : Bool) (d : BitVec 6) (s : State) : Host.Outcome State Fault Refusal :=
  word m s fun s => s.lane d fun _ l => BitVec.ofNat 32 l

/-- The value of an IDS selector (R131); a shading coach's 0 and 1 are those its view gives it (R283). -/
def State.idsValue (s : State) (sel : Nat) : Dword :=
  let i := s.co.ident
  BitVec.ofNat 64 (match sel with
    | 0 => i.cidx
    | 1 => i.rake
    | 2 => ((s.haul? i.haul).map (·.launchNo.toNat)).getD 0
    | 3 => i.core
    | 4 => i.core / 4
    | 5 => i.core / 64
    | 6 => i.level
    | _ => i.slot + 32 * i.port)

/-- IDS (R131). -/
def execIds (m : Bool) (d s : BitVec 6) (st : State) : Host.Outcome State Fault Refusal :=
  word m st fun st =>
    if 8 ≤ s.toNat then st.trapPlane (causeIll subField (Instr.ids m d s).word)
    else st.group d fun _ => st.idsValue s.toNat

/-! ### Branches and jumps (R132 to R136) -/

/-- BR (R133). -/
def execBr (m : Bool) (g : BitVec 4) (o : BitVec 21) (s : State) : Host.Outcome State Fault Refusal :=
  word m s fun s => s.modCo fun c => if c.gkreg g then c.jump (c.relative o) else c

/-- BRN (R133). -/
def execBrn (m : Bool) (g : BitVec 4) (o : BitVec 21) (s : State) : Host.Outcome State Fault Refusal :=
  word m s fun s => s.modCo fun c => if c.gkreg g then c else c.jump (c.relative o)

/-- JMP (R133). -/
def execJmp (m : Bool) (o : BitVec 25) (s : State) : Host.Outcome State Fault Refusal :=
  word m s fun s => s.modCo fun c => c.jump (c.relative o)

/-- JI (R134). -/
def execJi (m : Bool) (a : BitVec 6) (s : State) : Host.Outcome State Fault Refusal :=
  word m s fun s => s.modCo fun c => c.jump (c.greg a).toNat

/-- Whether some EXM lane has a predicate set (R135). -/
def Coach.anyLane (c : Coach) (k : BitVec 5) : Bool := c.masks.exm &&& c.kreg k != 0

/-- BRZ (R135). -/
def execBrz (m : Bool) (k : BitVec 5) (o : BitVec 20) (s : State) : Host.Outcome State Fault Refusal :=
  word m s fun s => s.modCo fun c => if c.anyLane k then c else c.jump (c.relative o)

/-- BRNZ (R135). -/
def execBrnz (m : Bool) (k : BitVec 5) (o : BitVec 20) (s : State) : Host.Outcome State Fault Refusal :=
  word m s fun s => s.modCo fun c => if c.anyLane k then c.jump (c.relative o) else c

/-- DBNZ (R136): g = 0 is refused by the decoder. -/
def execDbnz (m : Bool) (g : BitVec 6) (o : BitVec 19) (s : State) : Host.Outcome State Fault Refusal :=
  word m s fun s => s.modCo fun c =>
    let x := c.greg g - 1
    let c := c.setG g x
    if x = 0 then c else c.jump (c.relative o)

/-! ### Calls and returns (R137 to R141) -/

/-- GR, the groups of the vector file (R137). -/
def Coach.groups (c : Coach) : Nat := c.regs.preg / 8

/-- A call to a target with slide f (R139). The groups that spill and their places are resolved here; the park moves
them (R141). -/
def State.call (s : State) (f : BitVec 3) (target : Int) : State :=
  let c := s.co
  let w := c.window
  let gr := c.groups
  let f := f.toNat
  let n := 8 + w.hr + f - gr
  if w.rspEnd < w.rsp + 8 then s.trapAll (causeSpace cProt w.rsp)
  else if w.spsEnd < w.sps + 1024 * n then s.trapAll (causeSpace cWinx w.sps)
  else
    let at_ (a : Nat) : Nat := homeScr c.ident.core (w.scrBase + a)
    let s := s.wrNat (at_ w.rsp) 8 ((c.issue.off + 1).toNat % 2 ^ 32 + f * 2 ^ 32)
    s.modCo fun c =>
      let c := { c with window := { w with
        hr := w.hr + f - n, win := (w.win + f) % gr, rsp := w.rsp + 8, sps := w.sps + 1024 * n } }
      let c := c.jump target
      if n = 0 then c
      else { c.endRun .none with issue := { (c.endRun .none).issue with
        spill := (List.range n).map fun j => ((w.win + gr * w.hr - w.hr + j) % gr, at_ (w.sps + 1024 * j)) } }

/-- CALL (R139). -/
def execCall (m : Bool) (f : BitVec 3) (o : BitVec 22) (s : State) : Host.Outcome State Fault Refusal :=
  word m s fun s => s.call f (s.co.relative o)

/-- CALLI (R139). -/
def execCalli (m : Bool) (f : BitVec 3) (a : BitVec 6) (s : State) : Host.Outcome State Fault Refusal :=
  word m s fun s => s.call f (s.co.greg a).toNat

/-- RET (R140); an entry that holds an uncorrectable error traps (R381). -/
def State.ret (s : State) : State :=
  let c := s.co
  let w := c.window
  let gr := c.groups
  if w.rsp ≤ w.rspBase then s.trapAll (causeSpace cProt w.rsp)
  else
    let at_ (a : Nat) : Nat := homeScr c.ident.core (w.scrBase + a)
    if s.poisoned (at_ (w.rsp - 8)) 8 then s.trapAll (causeSpace cEcc (w.rsp - 8))
    else
      let e := s.rdNat (at_ (w.rsp - 8)) 8
      let f := e / 2 ^ 32 % 8
      let n := f - w.hr
      if w.sps < w.spsBase + 1024 * n then s.trapAll (causeSpace cWinx w.sps)
      else
        s.modCo fun c =>
          let c := { c with window := { w with
            hr := w.hr - f, win := (w.win + gr * f - f) % gr, rsp := w.rsp - 8, sps := w.sps - 1024 * n } }
          let c := c.jump (e % 2 ^ 32 : Nat)
          if n = 0 then c
          else { c.endRun .none with issue := { (c.endRun .none).issue with
            refill := (List.range n).map fun j =>
              ((w.win + gr * (w.hr + 1 + j) - (w.hr + 1 + j)) % gr, at_ (w.sps - 1024 * (j + 1))) } }

/-- RET (R140). -/
def execRet (m : Bool) (s : State) : Host.Outcome State Fault Refusal := word m s State.ret

/-! ### Run boundaries -/

/-- RUN_LIMIT: the 24th offset of a run has issued, and the run ends as if marked (R112); a core whose quad's clock changes pauses
(R376). -/
def execRunLimit (s : State) : Host.Outcome State Fault Refusal :=
  if s.co.issue.phase = .issuing ∧ !s.co.issue.open_ ∧ 24 ≤ s.co.issue.count ∧ !(s.quad (s.co.ident.core / 4)).changing then
    .next s.endOfRun
  else .next s

/-- PARK_END (R112, R116, R117, R141); while the quad's clock changes replies are held at its boundary (R376). -/
def execParkEnd (s : State) : Host.Outcome State Fault Refusal :=
  if s.co.issue.phase = .parked ∧ !s.co.traps.held ∧ !(s.quad (s.co.ident.core / 4)).changing then .next s.park else .next s

/-- TRAP_ENTRY: a trap held through a clock change is taken once the clock is stable (R342); a coach that has been stopped
takes none (R343). With a pre-emption pending it is then saved in its handler (R350). -/
def execTrapEntry (coach : Nat) (s : State) : Host.Outcome State Fault Refusal :=
  .next (s.within coach fun s =>
    if s.co.ident.id = coach ∧ s.co.issue.phase = .parked ∧ s.co.traps.held ∧ !(s.quad (s.co.ident.core / 4)).changing then
      s.takeTrap.modCo Coach.toSave
    else s)

end Sys2Proof.Machine
end

