-- ==== Sys2Proof/Machine/Float.lean ====
section
/-! DEFINITION. Floating-point formats and FROUND (R166 to R169): every result is formed from the exact value, held as a
fraction of naturals with a sign, and rounded once. An element is a natural below 2^32 (F32) or 2^16 (BF16); a format is
its number of fraction bits, 23 or 7. Flags are [0] NV, [1] DZ, [2] OF, [3] UF, [4] NX (R107). -/

namespace Sys2Proof.Machine

/-- Sticky flags. -/
abbrev Flags := BitVec 5

def flagNV : Flags := 0b00001#5
def flagDZ : Flags := 0b00010#5
def flagOF : Flags := 0b00100#5
def flagUF : Flags := 0b01000#5
def flagNX : Flags := 0b10000#5

/-- The value of an encoding (R166): sign and magnitude m × 2^e for finite values. -/
inductive FVal where
  | nan (signalling : Bool)
  | inf (neg : Bool)
  | fin (neg : Bool) (m : Nat) (e : Int)
  deriving DecidableEq, Repr

/-- Read an element of the format with f fraction bits (R166). -/
def unpack (f x : Nat) : FVal :=
  let neg := x / 2 ^ (f + 8) % 2 == 1
  let ex := x / 2 ^ f % 256
  let fr := x % 2 ^ f
  if ex = 255 then (if fr = 0 then .inf neg else .nan (fr / 2 ^ (f - 1) % 2 == 0))
  else if ex = 0 then .fin neg fr (-126 - f)
  else .fin neg (2 ^ f + fr) (ex - 127 - f)

/-- The sign bit in place. -/
def signBits (f : Nat) (neg : Bool) : Nat := bif neg then 2 ^ (f + 8) else 0
/-- The canonical NaN (R168). -/
def nanBits (f : Nat) : Nat := 255 * 2 ^ f + 2 ^ (f - 1)
/-- A signed infinity. -/
def infBits (f : Nat) (neg : Bool) : Nat := signBits f neg + 255 * 2 ^ f
/-- The largest finite value, signed. -/
def maxBits (f : Nat) (neg : Bool) : Nat := signBits f neg + (255 * 2 ^ f - 1)

/-- 2^e as a factor of a numerator (e ≥ 0) -/
def up2 (e : Int) : Nat := 2 ^ e.toNat

/-- floor (log2 (n / d)) for n, d > 0. -/
def ilog2 (n d : Nat) : Int :=
  let e : Int := (Nat.log2 n : Int) - (Nat.log2 d : Int)
  if n * up2 (-e) < d * up2 e then e - 1 else e

/-- Whether a truncated magnitude is stepped up: mode, sign, odd, remainder r of divisor d (R169). -/
def roundUp (rm : BitVec 2) (neg odd : Bool) (r d : Nat) : Bool :=
  match rm.toNat with
  | 0 => d < 2 * r || (2 * r == d && odd)
  | 1 => false
  | 2 => neg && r != 0
  | _ => !neg && r != 0

/-- n/d in units of 2^q, rounded: the integer and whether it is inexact. -/
def roundAt (rm : BitVec 2) (neg : Bool) (n d : Nat) (q : Int) : Nat × Bool :=
  let a := n * up2 (-q)
  let b := d * up2 q
  let t := a / b
  let r := a % b
  (bif roundUp rm neg (t % 2 == 1) r b then t + 1 else t, r != 0)

/-- FROUND of a nonzero finite magnitude n/d (R169): bits and flags. -/
def froundMag (f : Nat) (rm : BitVec 2) (neg : Bool) (n d : Nat) : Nat × Flags :=
  let e := ilog2 n d
  let q : Int := max (e - f) (-126 - f)
  let (t, inexact) := roundAt rm neg n d q
  let bits := (q + 126 + f).toNat * 2 ^ f + t
  if 255 * 2 ^ f ≤ bits then
    let keep := match rm.toNat with
      | 0 => false
      | 1 => true
      | 2 => !neg
      | _ => neg
    (bif keep then maxBits f neg else infBits f neg, flagOF ||| flagNX)
  else
    let free := (roundAt rm neg n d (e - f)).1
    let tiny := e < -127 || (e == -127 && free != 2 ^ (f + 1))
    (signBits f neg + bits, (bif inexact then flagNX else 0) ||| (bif inexact && tiny then flagUF else 0))

/-- FROUND of a signed magnitude n/d, with the sign a zero takes. -/
def fround (f : Nat) (rm : BitVec 2) (neg : Bool) (n d : Nat) : Nat × Flags :=
  if n = 0 then (signBits f neg, 0) else froundMag f rm neg n d

/-- The magnitude m × 2^e as a fraction. -/
def fracOf (m : Nat) (e : Int) : Nat × Nat := (m * up2 e, up2 (-e))

/-- A signed integer multiple of 2^e, rounded; an exact zero takes the sign zneg. -/
def froundInt (f : Nat) (rm : BitVec 2) (x : Int) (e : Int) (zneg : Bool) : Nat × Flags :=
  let (n, d) := fracOf x.natAbs e
  fround f rm (if x = 0 then zneg else x < 0) n d

/-- The value of a finite element as an integer multiple of 2^e0, for e0 at or below its exponent. -/
def scaled (neg : Bool) (m : Nat) (e e0 : Int) : Int :=
  let v : Int := m * up2 (e - e0)
  bif neg then -v else v

/-- NV for a signalling NaN operand (R168). -/
def sigFlag : FVal → Flags
  | .nan true => flagNV
  | _ => 0

def FVal.isNan : FVal → Bool
  | .nan _ => true
  | _ => false

/-- The sign of an exact zero sum of the two signed terms (R169): kept when they agree, else + except under RDN. -/
def zeroSign (rm : BitVec 2) (a b : Bool) : Bool := if a = b then a else rm == 2#2

/-- The sum of two finite or infinite terms (R169, R171). -/
def faddVal (f : Nat) (rm : BitVec 2) : FVal → FVal → Nat × Flags
  | .nan a, y => (nanBits f, sigFlag (.nan a) ||| sigFlag y)
  | x, .nan b => (nanBits f, sigFlag x ||| sigFlag (.nan b))
  | .inf a, .inf b => if a = b then (infBits f a, 0) else (nanBits f, flagNV)
  | .inf a, _ => (infBits f a, 0)
  | _, .inf b => (infBits f b, 0)
  | .fin a m e, .fin b n e' =>
    let e0 := min e e'
    froundInt f rm (scaled a m e e0 + scaled b n e' e0) e0 (zeroSign rm a b)

/-- The same value with its sign inverted. -/
def FVal.negate : FVal → FVal
  | .nan s => .nan s
  | .inf a => .inf !a
  | .fin a m e => .fin (!a) m e

/-- ADD (R171). -/
def fadd (f : Nat) (rm : BitVec 2) (x y : Nat) : Nat × Flags := faddVal f rm (unpack f x) (unpack f y)
/-- SUB (R171). -/
def fsub (f : Nat) (rm : BitVec 2) (x y : Nat) : Nat × Flags := faddVal f rm (unpack f x) (unpack f y).negate

/-- The exact product of two operands that are not NaN; none for 0 × ∞. -/
def prodVal : FVal → FVal → Option FVal
  | .inf a, .inf b => some (.inf (a != b))
  | .inf a, .fin b n _ => if n = 0 then none else some (.inf (a != b))
  | .fin a m _, .inf b => if m = 0 then none else some (.inf (a != b))
  | .fin a m e, .fin b n e' => some (.fin (a != b) (m * n) (e + e'))
  | _, _ => none

/-- MUL (R171). -/
def fmul (f : Nat) (rm : BitVec 2) (x y : Nat) : Nat × Flags :=
  let a := unpack f x
  let b := unpack f y
  if a.isNan || b.isNan then (nanBits f, sigFlag a ||| sigFlag b)
  else match prodVal a b with
    | some (.fin s m e) =>
      let (n, d) := fracOf m e
      fround f rm s n d
    | some (.inf s) => (infBits f s, 0)
    | _ => (nanBits f, flagNV)

/-- MAD and MADN: x × y + z, or −(x × y) + z, rounded once (R171). -/
def fmad (f : Nat) (rm : BitVec 2) (neg : Bool) (x y z : Nat) : Nat × Flags :=
  let a := unpack f x
  let b := unpack f y
  let c := unpack f z
  let sig := sigFlag a ||| sigFlag b ||| sigFlag c
  if a.isNan || b.isNan then (nanBits f, sig)
  else match prodVal a b with
    | none => (nanBits f, flagNV ||| sig)
    | some p => faddVal f rm (bif neg then p.negate else p) c

/-- DIV, F32 only (R171). -/
def fdiv (f : Nat) (rm : BitVec 2) (x y : Nat) : Nat × Flags :=
  let a := unpack f x
  let b := unpack f y
  if a.isNan || b.isNan then (nanBits f, sigFlag a ||| sigFlag b)
  else match a, b with
    | .inf _, .inf _ => (nanBits f, flagNV)
    | .inf s, .fin t _ _ => (infBits f (s != t), 0)
    | .fin s _ _, .inf t => (signBits f (s != t), 0)
    | .fin s m e, .fin t n e' =>
      if n = 0 then (if m = 0 then (nanBits f, flagNV) else (infBits f (s != t), flagDZ))
      else fround f rm (s != t) (m * up2 (e - e')) (n * up2 (e' - e))
    | _, _ => (nanBits f, 0)

/-- The order of two values that are not NaN, −0 = +0 (R174). -/
def fcmpVal : FVal → FVal → Ordering
  | .inf a, .inf b => compare b.toNat a.toNat
  | .inf a, _ => if a then .lt else .gt
  | _, .inf b => if b then .gt else .lt
  | .fin a m e, .fin b n e' =>
    let e0 := min e e'
    compare (scaled a m e e0) (scaled b n e' e0)
  | _, _ => .eq

/-- MIN and MAX (R172): less says which order keeps x. -/
def fminmax (f : Nat) (isMax : Bool) (x y : Nat) : Nat × Flags :=
  let a := unpack f x
  let b := unpack f y
  let sig := sigFlag a ||| sigFlag b
  if a.isNan && b.isNan then (nanBits f, sig)
  else if a.isNan then (y, sig)
  else if b.isNan then (x, sig)
  else
    let xneg := x / 2 ^ (f + 8) % 2 == 1
    let below := match fcmpVal a b with
      | .lt => true
      | .gt => false
      | .eq => xneg
    (bif below != isMax then x else y, sig)

/-- ABS and NEG (R173). -/
def fsign (f : Nat) (isNeg : Bool) (x : Nat) : Nat × Flags :=
  let s := 2 ^ (f + 8)
  match unpack f x with
  | .nan sg => (nanBits f, sigFlag (.nan sg))
  | _ => (bif isNeg then (x + s) % (2 * s) else x % s, 0)

/-- CMP of two elements under the condition codes 0-7 (R154, R174). -/
def fcmp (f : Nat) (cc : BitVec 3) (x y : Nat) : Bool × Flags :=
  let a := unpack f x
  let b := unpack f y
  let un := a.isNan || b.isNan
  let sig := sigFlag a ||| sigFlag b
  let o := fcmpVal a b
  let quiet (r : Bool) : Bool × Flags := (!un && r, bif un then flagNV else 0)
  match cc.toNat with
  | 0 => (!un && o == .eq, sig)
  | 1 => (un || o != .eq, sig)
  | 2 => quiet (o == .lt)
  | 3 => quiet (o != .gt)
  | 4 => quiet (o == .gt)
  | 5 => quiet (o != .lt)
  | 6 => (!un, sig)
  | _ => (un, sig)

/-- A float of format f read and rounded to format f' (R176). -/
def fconv (f f' : Nat) (rm : BitVec 2) (x : Nat) : Nat × Flags :=
  match unpack f x with
  | .nan s => (nanBits f', sigFlag (.nan s))
  | .inf s => (infBits f' s, 0)
  | .fin s m e =>
    let (n, d) := fracOf m e
    fround f' rm s n d

/-- An exact integer rounded to format f (R176). -/
def fofInt (f : Nat) (rm : BitVec 2) (x : Int) : Nat × Flags := froundInt f rm x 0 false

/-- A float rounded to an integer under rm, clamped to [lo, hi]; NaN gives 0 (R176). -/
def ftoInt (f : Nat) (rm : BitVec 2) (lo hi : Int) (x : Nat) : Int × Flags :=
  match unpack f x with
  | .nan _ => (0, flagNV)
  | .inf s => (if s then lo else hi, flagNV)
  | .fin s m e =>
    let (n, d) := fracOf m e
    let (t, inexact) := roundAt rm s n d 0
    let v : Int := if s then -(t : Int) else t
    if v < lo then (lo, flagNV) else if hi < v then (hi, flagNV)
    else (v, bif inexact then flagNX else 0)

/-- ROUND: the nearest integral value, sign kept (R182). -/
def froundInteger (f : Nat) (rm : BitVec 2) (x : Nat) : Nat × Flags :=
  match unpack f x with
  | .nan s => (nanBits f, sigFlag (.nan s))
  | .inf _ => (x, 0)
  | .fin s m e =>
    if m = 0 then (x, 0) else
    let (n, d) := fracOf m e
    ((fround f 0 s (roundAt rm s n d 0).1 1).1, 0)

/-- FLDEXP: x × 2^n (R183). Beyond ±600 every n gives the overflow or the tiny value that 600 gives. -/
def fldexp (f : Nat) (rm : BitVec 2) (x : Nat) (n : Int) : Nat × Flags :=
  match unpack f x with
  | .nan s => (nanBits f, sigFlag (.nan s))
  | .inf _ => (x, 0)
  | .fin s m e =>
    if m = 0 then (x, 0) else
    let (a, d) := fracOf m (e + max (-600) (min 600 n))
    fround f rm s a d

/-- FCLASS: the one-hot class mask (R181). -/
def fclass (f x : Nat) : Nat :=
  match unpack f x with
  | .nan s => bif s then 2 ^ 8 else 2 ^ 9
  | .inf s => bif s then 2 ^ 0 else 2 ^ 7
  | .fin s m _ =>
    if m = 0 then (bif s then 2 ^ 3 else 2 ^ 4)
    else if m < 2 ^ f then (bif s then 2 ^ 2 else 2 ^ 5)
    else (bif s then 2 ^ 1 else 2 ^ 6)

/-- floor of the square root of n, bit by bit from bit k down. -/
def isqrtFrom (n : Nat) : Nat → Nat → Nat
  | 0, r => r
  | k + 1, r => let r' := r + 2 ^ k; isqrtFrom n k (if r' * r' ≤ n then r' else r)

/-- floor (√n). -/
def isqrt (n : Nat) : Nat := isqrtFrom n (Nat.log2 n / 2 + 1) 0

/-- A fraction that rounds as √(a/b) does: floor (√(a/b) × 2^k) with a half added when inexact, over 2^k. -/
def sqrtFrac (a b k : Nat) : Nat × Nat :=
  let s := isqrt (a * 4 ^ k / b)
  (2 * s + (if s * s * b = a * 4 ^ k then 0 else 1), 2 * 2 ^ k)

/-- FRCP (R179). -/
def frcp (f : Nat) (rm : BitVec 2) (x : Nat) : Nat × Flags :=
  match unpack f x with
  | .nan s => (nanBits f, sigFlag (.nan s))
  | .inf s => (signBits f s, 0)
  | .fin s m e =>
    if m = 0 then (infBits f s, flagDZ)
    else fround f rm s (up2 (-e)) (m * up2 e)

/-- FSQRT (R179). -/
def fsqrt (f : Nat) (rm : BitVec 2) (x : Nat) : Nat × Flags :=
  match unpack f x with
  | .nan s => (nanBits f, sigFlag (.nan s))
  | .inf s => if s then (nanBits f, flagNV) else (x, 0)
  | .fin s m e =>
    if m = 0 then (x, 0) else if s then (nanBits f, flagNV) else
    let (n, d) := fracOf m e
    let (a, b) := sqrtFrac n d 160
    fround f rm false a b

/-- FRSQ, under RNE whatever RM (R179). -/
def frsq (f x : Nat) : Nat × Flags :=
  match unpack f x with
  | .nan s => (nanBits f, sigFlag (.nan s))
  | .inf s => if s then (nanBits f, flagNV) else (0, 0)
  | .fin s m e =>
    if m = 0 then (infBits f s, flagDZ) else if s then (nanBits f, flagNV) else
    let (n, d) := fracOf m e
    let (a, b) := sqrtFrac d n 160
    fround f 0 false a b

end Sys2Proof.Machine
end

