-- ==== Sys2Proof/Machine/Transc.lean ====
section
/-! DEFINITION. FEX2, FLG2, FSINT and FCOST (R179, R180). The exact values are irrational but for the listed cases, so
each is formed in fixed point with 320 fraction bits, far finer than any rounding boundary of F32 or BF16 lies from an
irrational value, and rounded once under RNE (DEDUCED, log 10). -/

namespace Sys2Proof.Machine

/-- 2^320: the unit of the fixed-point values here. -/
def fxOne : Nat := 2 ^ 320

/-- The sum of z^(2k+1)/(2k+1) for k below n, with t the current power and q = z², all in fixed point: artanh z. -/
def fxArtanh (q : Nat) : Nat → Nat → Nat → Nat
  | 0, _, _ => 0
  | n + 1, k, t => t / (2 * k + 1) + fxArtanh q n (k + 1) (t * q / fxOne)

/-- ln y for y = a/b in [1, 2]: twice artanh ((y − 1)/(y + 1)). -/
def fxLn (a b : Nat) : Nat :=
  let z := (a - b) * fxOne / (a + b)
  2 * fxArtanh (z * z / fxOne) 110 0 z

/-- ln 2. -/
def fxLn2 : Nat := fxLn 2 1

/-- The sum of t, t·u/(k+1), t·u²/((k+1)(k+2)), …: with t = 1 and k = 0 the exponential of u. -/
def fxExp (u : Nat) : Nat → Nat → Nat → Nat
  | 0, _, _ => 0
  | n + 1, k, t => t + fxExp u n (k + 1) (t * u / fxOne / (k + 1))

/-- The alternating sum t − t·q/((k+1)(k+2)) + …: with t = θ, k = 1 the sine of θ, with t = 1, k = 0 its cosine. -/
def fxAlt (q : Nat) : Nat → Nat → Nat → Int
  | 0, _, _ => 0
  | n + 1, k, t => t - fxAlt q n (k + 2) (t * q / fxOne / ((k + 1) * (k + 2)))

/-- The sum of the alternating series of arctan (1/m). -/
def fxArctan (m : Nat) : Nat → Nat → Nat → Int
  | 0, _, _ => 0
  | n + 1, k, t => (t / (2 * k + 1) : Nat) - fxArctan m n (k + 1) (t / (m * m))

/-- 2π, by 16 arctan (1/5) − 4 arctan (1/239) for π. -/
def fxTwoPi : Nat := (32 * fxArctan 5 80 0 (fxOne / 5) - 8 * fxArctan 239 30 0 (fxOne / 239)).toNat

/-- A fixed-point value rounded under RNE, as one that is inexact. -/
def fxRound (f : Nat) (v : Int) : Nat × Flags := froundInt f 0 v (-320) false

/-- FEX2 (R179): 2^i times the exponential of the fraction. -/
def fex2 (f x : Nat) : Nat × Flags :=
  match unpack f x with
  | .nan s => (nanBits f, sigFlag (.nan s))
  | .inf s => (if s then 0 else infBits f false, 0)
  | .fin s m e =>
    let v : Int := scaled s m e (-160)
    let v := max (-(700 * 2 ^ 160)) (min (700 * 2 ^ 160) v)
    let i := v / 2 ^ 160
    let fr := (v % 2 ^ 160).toNat
    let p := if fr = 0 then fxOne else fxExp (fr * 2 ^ 160 * fxLn2 / fxOne) 90 0 fxOne
    froundInt f 0 p (i - 320) false

/-- FLG2 (R179). -/
def flg2 (f x : Nat) : Nat × Flags :=
  match unpack f x with
  | .nan s => (nanBits f, sigFlag (.nan s))
  | .inf s => if s then (nanBits f, flagNV) else (infBits f false, 0)
  | .fin s m e =>
    if m = 0 then (infBits f true, flagDZ)
    else if s then (nanBits f, flagNV)
    else
      let n := Nat.log2 m
      let k : Int := e + n
      if m = 2 ^ n then froundInt f 0 k 0 false
      else fxRound f (k * fxOne + (fxLn m (2 ^ n) * fxOne / fxLn2 : Nat))

/-- sin (2πx) for x = r/2^320 turns, r below 2^320: none where it is exactly 0, with the sign otherwise. -/
def fxSinTurns (r : Nat) : Int :=
  let quad := r * 4 / fxOne
  let t := r * 4 % fxOne / 4
  let th := t * fxTwoPi / fxOne
  let q := th * th / fxOne
  let sn := fxAlt q 60 1 th
  let cs := fxAlt q 60 0 fxOne
  match quad with
  | 0 => sn
  | 1 => cs
  | 2 => -sn
  | _ => -cs

/-- Turns of x modulo one, in fixed point. -/
def fxTurns (s : Bool) (m : Nat) (e : Int) : Nat := (scaled s m e (-320) % (fxOne : Int)).toNat

/-- FSINT (R180). -/
def fsint (f x : Nat) : Nat × Flags :=
  match unpack f x with
  | .nan s => (nanBits f, sigFlag (.nan s))
  | .inf _ => (nanBits f, flagNV)
  | .fin s m e => if m = 0 then (signBits f s, 0) else fxRound f (fxSinTurns (fxTurns s m e))

/-- FCOST: the sine a quarter turn on (R180). -/
def fcost (f x : Nat) : Nat × Flags :=
  match unpack f x with
  | .nan s => (nanBits f, sigFlag (.nan s))
  | .inf _ => (nanBits f, flagNV)
  | .fin s m e => fxRound f (fxSinTurns ((fxTurns s m e + fxOne / 4) % fxOne))

end Sys2Proof.Machine
end

