-- ==== Sys2Proof/Machine/Flags.lean ====
section
/-! DEFINITION. Values under the element types and the sticky flags their instructions raise: IN and OUT of the integer
types (R144), elements of the float types (R167, R170), and the typed operations of the lane ALU (R146 to R149, R171 to
R174), CVT (R175 to R177) and the packed formats (R185, R186). Every operation answers a value and its flags. -/

namespace Sys2Proof.Machine

/-! ### Integer types (R144) -/

/-- Width of an integer type. -/
def typeWidth (t : BitVec 4) : Nat := if t.toNat < 2 then 32 else if t.toNat < 4 then 16 else 8
/-- Whether an integer type is signed. -/
def typeSigned (t : BitVec 4) : Bool := !t.getLsbD 0
/-- Lowest value of an integer type. -/
def typeLow (t : BitVec 4) : Int := if typeSigned t then -(2 ^ (typeWidth t - 1)) else 0
/-- Highest value of an integer type. -/
def typeHigh (t : BitVec 4) : Int := if typeSigned t then 2 ^ (typeWidth t - 1) - 1 else 2 ^ typeWidth t - 1

/-- The value of y's range congruent to y modulo 2^w, or y clamped, as 32 bits (OUT of R144). -/
def intOut (sat : Bool) (t : BitVec 4) (y : Int) : Word :=
  if sat then BitVec.ofInt 32 (min (max y (typeLow t)) (typeHigh t))
  else
    let w := 2 ^ typeWidth t
    let r := y % w
    BitVec.ofInt 32 (if typeSigned t ∧ (w : Int) / 2 ≤ r then r - w else r)

/-- The integer a register holds under a type (IN of R144). -/
def intIn (t : BitVec 4) (x : Word) : Int :=
  let w := typeWidth t
  let r : Int := (x.toNat % 2 ^ w : Nat)
  if typeSigned t ∧ (2 ^ w : Int) / 2 ≤ r then r - 2 ^ w else r

/-! ### Elements of the float types (R167) -/

/-- Apply an operation of one element to each element of a register. -/
def elem1 (t : BitVec 4) (op : Nat → Nat → Nat × Flags) (x : Word) : Word × Flags :=
  if t = 6 then
    let r := op 23 x.toNat
    (BitVec.ofNat 32 r.1, r.2)
  else
    let r := op 7 (x.toNat % 65536)
    if t = 7 then (BitVec.ofNat 32 r.1, r.2)
    else
      let q := op 7 (x.toNat / 65536)
      (BitVec.ofNat 32 (r.1 % 65536 + 65536 * q.1), r.2 ||| q.2)

/-- The operation on the corresponding elements of two registers. -/
def elem2 (t : BitVec 4) (op : Nat → Nat → Nat → Nat × Flags) (x y : Word) : Word × Flags :=
  if t = 6 then
    let r := op 23 x.toNat y.toNat
    (BitVec.ofNat 32 r.1, r.2)
  else
    let r := op 7 (x.toNat % 65536) (y.toNat % 65536)
    if t = 7 then (BitVec.ofNat 32 r.1, r.2)
    else
      let q := op 7 (x.toNat / 65536) (y.toNat / 65536)
      (BitVec.ofNat 32 (r.1 % 65536 + 65536 * q.1), r.2 ||| q.2)

/-- The operation on the corresponding elements of three registers. -/
def elem3 (t : BitVec 4) (op : Nat → Nat → Nat → Nat → Nat × Flags) (x y z : Word) : Word × Flags :=
  if t = 6 then
    let r := op 23 x.toNat y.toNat z.toNat
    (BitVec.ofNat 32 r.1, r.2)
  else
    let r := op 7 (x.toNat % 65536) (y.toNat % 65536) (z.toNat % 65536)
    if t = 7 then (BitVec.ofNat 32 r.1, r.2)
    else
      let q := op 7 (x.toNat / 65536) (y.toNat / 65536) (z.toNat / 65536)
      (BitVec.ofNat 32 (r.1 % 65536 + 65536 * q.1), r.2 ||| q.2)

/-! ### Typed operations of the lane ALU -/

/-- A mode's type, rounding and saturation. -/
structure Typing where
  t : BitVec 4
  rm : BitVec 2
  sat : Bool
  deriving DecidableEq, Repr

/-- Those of the issuing plane. -/
def Coach.typing (c : Coach) : Typing := { t := c.type, rm := c.rm, sat := modeSat c.mode }

/-- An operation of one operand under any type: on integers (R147), on float elements (R173). -/
def Typing.un (y : Typing) (iop : Int → Int) (fop : Nat → Nat → Nat × Flags) (x : Word) : Word × Flags :=
  if y.t.toNat < 6 then (intOut y.sat y.t (iop (intIn y.t x)), 0) else elem1 y.t fop x

/-- An operation of two operands under any type (R147, R171, R172). -/
def Typing.bin (y : Typing) (iop : Int → Int → Int) (fop : Nat → BitVec 2 → Nat → Nat → Nat × Flags) (a b : Word) :
    Word × Flags :=
  if y.t.toNat < 6 then (intOut y.sat y.t (iop (intIn y.t a) (intIn y.t b)), 0)
  else elem2 y.t (fun f => fop f y.rm) a b

/-- MAD and MADN under any type (R149, R171). -/
def Typing.mad (y : Typing) (neg : Bool) (a b c : Word) : Word × Flags :=
  if y.t.toNat < 6 then
    let p := intIn y.t a * intIn y.t b
    (intOut y.sat y.t ((if neg then -p else p) + intIn y.t c), 0)
  else elem3 y.t (fun f => fmad f y.rm neg) a b c

/-- DIV under an integer type (R148). -/
def intDiv (t : BitVec 4) (x y : Int) : Int :=
  if y = 0 then (if typeSigned t then -1 else 2 ^ typeWidth t - 1) else x.tdiv y

/-- REM under an integer type (R148). -/
def intRem (x y : Int) : Int := if y = 0 then x else x - x.tdiv y * y

/-- MULH under an integer type (R147). -/
def intMulh (t : BitVec 4) (x y : Int) : Int := x * y / 2 ^ typeWidth t

/-- A condition code of CMP and CMPI on exact integers, codes 0 to 5 (R154). -/
def intCond (cc : BitVec 3) (x y : Int) : Bool :=
  match cc.toNat with
  | 0 => x == y
  | 1 => x != y
  | 2 => decide (x < y)
  | 3 => decide (x ≤ y)
  | 4 => decide (y < x)
  | _ => decide (y ≤ x)

/-! ### Conversions (R176, R177) -/

/-- Fraction bits of a float type. -/
def typeFrac (t : BitVec 4) : Nat := if t = 6 then 23 else 7

/-- Convert one value from type st to type dt, neither of them BF16X2 (R176). -/
def convert (st dt : BitVec 4) (rm : BitVec 2) (sat : Bool) (x : Word) : Word × Flags :=
  let xf := if st = 6 then x.toNat else x.toNat % 65536
  if st.toNat < 6 then
    if dt.toNat < 6 then (intOut sat dt (intIn st x), 0)
    else
      let r := fofInt (typeFrac dt) rm (intIn st x)
      (BitVec.ofNat 32 r.1, r.2)
  else if dt.toNat < 6 then
    let r := ftoInt (typeFrac st) rm (typeLow dt) (typeHigh dt) xf
    (BitVec.ofInt 32 r.1, r.2)
  else
    let r := fconv (typeFrac st) (typeFrac dt) rm xf
    (BitVec.ofNat 32 r.1, r.2)

/-- Pack two values into BF16X2 (R177). -/
def convertPack (st : BitVec 4) (rm : BitVec 2) (sat : Bool) (x y : Word) : Word × Flags :=
  let a := convert st 7 rm sat x
  let b := convert st 7 rm sat y
  (BitVec.ofNat 32 (a.1.toNat % 65536 + 65536 * b.1.toNat), a.2 ||| b.2)

/-- BF16X2 to itself: each NaN made canonical (R177). -/
def convertX2 (x : Word) : Word × Flags :=
  elem1 8 (fun f v => if (unpack f v).isNan then (nanBits f, sigFlag (unpack f v)) else (v, 0)) x

/-! ### RGB9E5 (R185, R186) -/

/-- A channel of PACKE as a fraction over 2^149, with its flags: clamped to 0 and 65,408. -/
def packChannel (x : Word) : Nat × Flags :=
  let top := 65408 * 2 ^ 149
  match unpack 23 x.toNat with
  | .nan _ => (0, flagNV)
  | .inf s => if s then (0, flagNX) else (top, flagOF ||| flagNX)
  | .fin s m e =>
    let v := m * up2 (e + 149)
    if s then (0, if m = 0 then 0 else flagNX)
    else if top < v then (top, flagOF ||| flagNX) else (v, 0)

/-- The mantissas of three channels at shared exponent E. -/
def packAt (rm : BitVec 2) (e : Nat) (xs : List Nat) : List (Nat × Bool) :=
  xs.map fun v => roundAt rm false v (2 ^ 149) ((e : Int) - 24)

/-- PACKE of one lane (R186). -/
def packe (rm : BitVec 2) (r g b : Word) : Word × Flags :=
  let cs := [packChannel r, packChannel g, packChannel b]
  let xs := cs.map (·.1)
  let mx := xs.foldl max 0
  let e : Nat := if mx = 0 then 0 else (max 0 (ilog2 mx (2 ^ 149) + 16)).toNat
  let ms := packAt rm e xs
  let up := ms.any fun p => p.1 == 512
  let e := if up then e + 1 else e
  let ms := if up then packAt rm e xs else ms
  let fl := cs.foldl (fun a p => a ||| p.2) (if ms.any (·.2) then flagNX else 0)
  (BitVec.ofNat 32 (leNatRadix ms + e * 2 ^ 27), fl)
where
  /-- Mantissas at 9 bits each. -/
  leNatRadix : List (Nat × Bool) → Nat
    | [] => 0
    | p :: t => p.1 + 512 * leNatRadix t

/-- Channel c of UNPKE: exact (R186). -/
def unpke (x : Word) (c : Nat) : Word :=
  let (n, d) := fracOf (x.toNat / 2 ^ (9 * c) % 512) ((x.toNat / 2 ^ 27 : Nat) - 24)
  BitVec.ofNat 32 (fround 23 0 false n d).1

end Sys2Proof.Machine
end

