-- ==== Sys2Proof/Machine/Integer.lean ====
section
/-! DEFINITION. Lane arithmetic, bits and shifts, immediates, MAD, compares and SEL under every type (R144 to R155, R171
to R174). -/

namespace Sys2Proof.Machine

/-- A typed instruction: ILL, subcode TYPE, when the plane's type is not below n, the effect otherwise (R98, R105). -/
def State.typed (s : State) (i : Instr) (n : Nat) (f : State → State) : State :=
  if n ≤ s.co.type.toNat then s.trapPlane (causeIll subType i.word) else f s

/-- A typed operation of two registers. -/
def State.arith2 (s : State) (d a b : BitVec 6) (iop : Int → Int → Int)
    (fop : Nat → BitVec 2 → Nat → Nat → Nat × Flags) : State :=
  s.laneF d fun c l => c.typing.bin iop fop (c.vreg a.toNat l) (c.vreg b.toNat l)

/-- An operation on the 32 bits of two registers (R150). -/
def State.bits2 (s : State) (d a b : BitVec 6) (f : Word → Word → Word) : State :=
  s.lane d fun c l => f (c.vreg a.toNat l) (c.vreg b.toNat l)

/-- An operation on the 32 bits of one register (R150). -/
def State.bits1 (s : State) (d a : BitVec 6) (f : Word → Word) : State := s.lane d fun c l => f (c.vreg a.toNat l)

/-- ADD (R147, R171). -/
def execAdd (m : Bool) (d a b : BitVec 6) (s : State) : Host.Outcome State Fault Refusal :=
  word m s fun s => s.typed (.add m d a b) 9 fun s => s.arith2 d a b (· + ·) fadd

/-- SUB (R147, R171). -/
def execSub (m : Bool) (d a b : BitVec 6) (s : State) : Host.Outcome State Fault Refusal :=
  word m s fun s => s.typed (.sub m d a b) 9 fun s => s.arith2 d a b (· - ·) fsub

/-- MUL (R147, R171). -/
def execMul (m : Bool) (d a b : BitVec 6) (s : State) : Host.Outcome State Fault Refusal :=
  word m s fun s => s.typed (.mul m d a b) 9 fun s => s.arith2 d a b (· * ·) fmul

/-- MULH (R147): types 0 to 5. -/
def execMulh (m : Bool) (d a b : BitVec 6) (s : State) : Host.Outcome State Fault Refusal :=
  word m s fun s => s.typed (.mulh m d a b) 6 fun s =>
    s.lane d fun c l =>
      let y := c.typing
      intOut y.sat y.t (intMulh y.t (intIn y.t (c.vreg a.toNat l)) (intIn y.t (c.vreg b.toNat l)))

/-- MIN (R147, R172). -/
def execMin (m : Bool) (d a b : BitVec 6) (s : State) : Host.Outcome State Fault Refusal :=
  word m s fun s => s.typed (.min m d a b) 9 fun s => s.arith2 d a b min fun f _ => fminmax f false

/-- MAX (R147, R172). -/
def execMax (m : Bool) (d a b : BitVec 6) (s : State) : Host.Outcome State Fault Refusal :=
  word m s fun s => s.typed (.max m d a b) 9 fun s => s.arith2 d a b max fun f _ => fminmax f true

/-- ABS (R147, R173). -/
def execAbs (m : Bool) (d a : BitVec 6) (s : State) : Host.Outcome State Fault Refusal :=
  word m s fun s => s.typed (.abs m d a) 9 fun s =>
    s.laneF d fun c l => c.typing.un (fun x => x.natAbs) (fun f => fsign f false) (c.vreg a.toNat l)

/-- NEG (R147, R173). -/
def execNeg (m : Bool) (d a : BitVec 6) (s : State) : Host.Outcome State Fault Refusal :=
  word m s fun s => s.typed (.neg m d a) 9 fun s =>
    s.laneF d fun c l => c.typing.un (fun x => -x) (fun f => fsign f true) (c.vreg a.toNat l)

/-- DIV: types 0 to 6, deferred (R148, R171). -/
def execDiv (m : Bool) (d a b : BitVec 6) (s : State) : Host.Outcome State Fault Refusal :=
  word m s fun s => s.typed (.div m d a b) 7 fun s =>
    s.laneD d fun c l => c.typing.bin (intDiv c.type) fdiv (c.vreg a.toNat l) (c.vreg b.toNat l)

/-- REM: types 0 to 5, deferred (R148). -/
def execRem (m : Bool) (d a b : BitVec 6) (s : State) : Host.Outcome State Fault Refusal :=
  word m s fun s => s.typed (.rem m d a b) 6 fun s =>
    s.laneD d fun c l =>
      let y := c.typing
      (intOut y.sat y.t (intRem (intIn y.t (c.vreg a.toNat l)) (intIn y.t (c.vreg b.toNat l))), 0)

/-- MAD (R149, R171). -/
def execMad (m : Bool) (d a b c : BitVec 6) (s : State) : Host.Outcome State Fault Refusal :=
  word m s fun s => s.typed (.mad m d a b c) 9 fun s =>
    s.laneF d fun k l => k.typing.mad false (k.vreg a.toNat l) (k.vreg b.toNat l) (k.vreg c.toNat l)

/-- MADN (R149, R171). -/
def execMadn (m : Bool) (d a b c : BitVec 6) (s : State) : Host.Outcome State Fault Refusal :=
  word m s fun s => s.typed (.madn m d a b c) 9 fun s =>
    s.laneF d fun k l => k.typing.mad true (k.vreg a.toNat l) (k.vreg b.toNat l) (k.vreg c.toNat l)

/-! ### Bits, shifts and fields (R150, R151) -/

/-- AND (R150). -/
def execAnd (m : Bool) (d a b : BitVec 6) (s : State) : Host.Outcome State Fault Refusal :=
  word m s fun s => s.bits2 d a b (· &&& ·)

/-- OR (R150). -/
def execOr (m : Bool) (d a b : BitVec 6) (s : State) : Host.Outcome State Fault Refusal :=
  word m s fun s => s.bits2 d a b (· ||| ·)

/-- XOR (R150). -/
def execXor (m : Bool) (d a b : BitVec 6) (s : State) : Host.Outcome State Fault Refusal :=
  word m s fun s => s.bits2 d a b (· ^^^ ·)

/-- ANDN (R150). -/
def execAndn (m : Bool) (d a b : BitVec 6) (s : State) : Host.Outcome State Fault Refusal :=
  word m s fun s => s.bits2 d a b fun x y => x &&& ~~~y

/-- NOT (R150). -/
def execNot (m : Bool) (d a : BitVec 6) (s : State) : Host.Outcome State Fault Refusal :=
  word m s fun s => s.bits1 d a fun x => ~~~x

/-- A shift of a word by kind: SHL, SHR, SAR, ROTL (R104, R150). -/
def shift32 (kind : BitVec 2) (x : Word) (n : Nat) : Word :=
  match kind.toNat with
  | 0 => x <<< n
  | 1 => x >>> n
  | 2 => x.sshiftRight n
  | _ => x.rotateLeft n

/-- SHL (R150). -/
def execShl (m : Bool) (d a b : BitVec 6) (s : State) : Host.Outcome State Fault Refusal :=
  word m s fun s => s.bits2 d a b fun x y => shift32 0 x (y.toNat % 32)

/-- SHR (R150). -/
def execShr (m : Bool) (d a b : BitVec 6) (s : State) : Host.Outcome State Fault Refusal :=
  word m s fun s => s.bits2 d a b fun x y => shift32 1 x (y.toNat % 32)

/-- SAR (R150). -/
def execSar (m : Bool) (d a b : BitVec 6) (s : State) : Host.Outcome State Fault Refusal :=
  word m s fun s => s.bits2 d a b fun x y => shift32 2 x (y.toNat % 32)

/-- ROTL (R150). -/
def execRotl (m : Bool) (d a b : BitVec 6) (s : State) : Host.Outcome State Fault Refusal :=
  word m s fun s => s.bits2 d a b fun x y => shift32 3 x (y.toNat % 32)

/-- Set bits of a value. -/
def popCount {n : Nat} (x : BitVec n) : Nat := (List.range n).countP fun i => x.getLsbD i

/-- Leading zero bits of a value, its width for 0. -/
def leadingZeros {n : Nat} (x : BitVec n) : Nat := ((List.range n).takeWhile fun i => !x.getMsbD i).length

/-- CLZ (R150). -/
def execClz (m : Bool) (d a : BitVec 6) (s : State) : Host.Outcome State Fault Refusal :=
  word m s fun s => s.bits1 d a fun x => BitVec.ofNat 32 (leadingZeros x)

/-- POPC (R150). -/
def execPopc (m : Bool) (d a : BitVec 6) (s : State) : Host.Outcome State Fault Refusal :=
  word m s fun s => s.bits1 d a fun x => BitVec.ofNat 32 (popCount x)

/-- BREV (R150). -/
def execBrev (m : Bool) (d a : BitVec 6) (s : State) : Host.Outcome State Fault Refusal :=
  word m s fun s => s.bits1 d a fun x => laneMask fun i => x.getMsbD i

/-- The number of bits a field of BFX and BFI covers (R151). -/
def fieldLen (y : Word) : Nat := min (min (y.toNat / 256 % 64) 32) (32 - y.toNat % 32)

/-- BFX of one lane (R151). -/
def bfx (x y : Word) : Word :=
  let n := fieldLen y
  let f := x.toNat / 2 ^ (y.toNat % 32) % 2 ^ n
  if n = 0 then 0
  else if y.getLsbD 16 ∧ 2 ^ (n - 1) ≤ f then BitVec.ofInt 32 ((f : Int) - 2 ^ n) else BitVec.ofNat 32 f

/-- BFI of one lane: old with the field replaced (R151). -/
def bfi (old x y : Word) : Word :=
  let pos := y.toNat % 32
  let mask : Word := BitVec.ofNat 32 ((2 ^ fieldLen y - 1) * 2 ^ pos)
  (old &&& ~~~mask) ||| ((x <<< pos) &&& mask)

/-- BFX (R151). -/
def execBfx (m : Bool) (d a b : BitVec 6) (s : State) : Host.Outcome State Fault Refusal :=
  word m s fun s => s.bits2 d a b bfx

/-- BFI (R151). -/
def execBfi (m : Bool) (d a b : BitVec 6) (s : State) : Host.Outcome State Fault Refusal :=
  word m s fun s => s.lane d fun c l => bfi (c.vreg d.toNat l) (c.vreg a.toNat l) (c.vreg b.toNat l)

/-- MOV (R150). -/
def execMov (m : Bool) (d a : BitVec 6) (s : State) : Host.Outcome State Fault Refusal :=
  word m s fun s => s.bits1 d a fun x => x

/-! ### Immediates (R152, R153) -/

/-- ADDI: types 0 to 5 (R153). -/
def execAddi (m : Bool) (d a : BitVec 6) (i : BitVec 13) (s : State) : Host.Outcome State Fault Refusal :=
  word m s fun s => s.typed (.addi m d a i) 6 fun s =>
    s.lane d fun c l =>
      let y := c.typing
      intOut y.sat y.t (intIn y.t (c.vreg a.toNat l) + i.toInt)

/-- ANDI (R153). -/
def execAndi (m : Bool) (d a : BitVec 6) (i : BitVec 13) (s : State) : Host.Outcome State Fault Refusal :=
  word m s fun s => s.bits1 d a fun x => x &&& zext32 i

/-- ORI (R153). -/
def execOri (m : Bool) (d a : BitVec 6) (i : BitVec 13) (s : State) : Host.Outcome State Fault Refusal :=
  word m s fun s => s.bits1 d a fun x => x ||| zext32 i

/-- XORI (R153). -/
def execXori (m : Bool) (d a : BitVec 6) (i : BitVec 13) (s : State) : Host.Outcome State Fault Refusal :=
  word m s fun s => s.bits1 d a fun x => x ^^^ zext32 i

/-- SHI (R104, R153). -/
def execShi (m : Bool) (d a : BitVec 6) (k : BitVec 2) (n : BitVec 5) (s : State) : Host.Outcome State Fault Refusal :=
  word m s fun s => s.bits1 d a fun x => shift32 k x n.toNat

/-- MOVI (R153). -/
def execMovi (m : Bool) (d : BitVec 6) (i : BitVec 19) (s : State) : Host.Outcome State Fault Refusal :=
  word m s fun s => s.lane d fun _ _ => sext32 i

/-- MOVHI (R153). -/
def execMovhi (m : Bool) (d : BitVec 6) (i : BitVec 19) (s : State) : Host.Outcome State Fault Refusal :=
  word m s fun s => s.lane d fun _ _ => i ++ 0#13

/-! ### Compare and select (R154, R155, R174) -/

/-- CMP: types 0 to 7; ORD and UNO under 6 and 7 alone (R98, R154, R174). With d = k0 it has no effect beyond its traps
(R93). -/
def execCmp (m : Bool) (d : BitVec 5) (a b : BitVec 6) (c : BitVec 3) (s : State) : Host.Outcome State Fault Refusal :=
  word m s fun s =>
    let i := Instr.cmp m d a b c
    if 6 ≤ c.toNat ∧ s.co.type.toNat < 6 then s.trapPlane (causeIll subType i.word)
    else s.typed i 8 fun s => if d = 0 then s else s.lanePredF d fun k l =>
      let x := k.vreg a.toNat l
      let y := k.vreg b.toNat l
      if k.type.toNat < 6 then (intCond c (intIn k.type x) (intIn k.type y), 0)
      else if k.type = 6 then fcmp 23 c x.toNat y.toNat
      else fcmp 7 c (x.toNat % 65536) (y.toNat % 65536)

/-- CMPI: types 0 to 5, conditions 0 to 5 (R98, R154). -/
def execCmpi (m : Bool) (d : BitVec 5) (a : BitVec 6) (c : BitVec 3) (i : BitVec 10) (s : State) :
    Host.Outcome State Fault Refusal :=
  word m s fun s =>
    let w := Instr.cmpi m d a c i
    if 6 ≤ c.toNat then s.trapPlane (causeIll subType w.word)
    else s.typed w 6 fun s => s.lanePred d fun k l => intCond c (intIn k.type (k.vreg a.toNat l)) i.toInt

/-- SEL (R155). -/
def execSel (m : Bool) (d a b : BitVec 6) (c : BitVec 5) (s : State) : Host.Outcome State Fault Refusal :=
  word m s fun s => s.lane d fun k l => if (k.kreg c).getLsbD l then k.vreg a.toNat l else k.vreg b.toNat l

end Sys2Proof.Machine
end

