-- ==== Sys2Proof/Machine/MemoryOps.lean ====
section
/-! DEFINITION. Loads, stores, atomics, sum cells and page requests (R190 to R192, R205 to R220). -/

namespace Sys2Proof.Machine

/-! ### Checked accesses -/

/-- An access's checks (R196, R202, R206), a page that is not resident being NRES. -/
def State.residentAccess (s : State) (acc : Acc) (a : Int) (n : Nat) : State × Except Cause Nat :=
  match s.access acc a n with
  | (s, .error k) => (s, .error k)
  | (s, .ok none) => (s, .error (causeAddr cNres a))
  | (s, .ok (some h)) => (s, .ok h)

/-- A store's checks. -/
def State.storeAccess (s : State) (a : Int) (n : Nat) : State × Except Cause Nat := s.residentAccess .store a n

/-! ### LD and ST (R207 to R209) -/

/-- Record an uncorrectable error for a lane, taken at the park (R117, R381). -/
def State.eccLane (s : State) (l : Nat) (k : Cause) : State := s.modCo fun c => c.errLanes (laneBit l) k

/-- The bytes of a plain load that are known at issue, by its place in a publish set where it has one; its granules of the
set are noted (R297, R305). -/
def State.plainLoad (s : State) (h : Nat) (name : Option Nat) (n : Nat) : State × List (Option Byte) :=
  match name with
  | none => (s, s.co.known h n)
  | some q => (s.modCo fun c => c.readSet q h n, s.co.knownSet q h n)

/-- One lane of LD: none when it traps, some true when its page is not resident and RESE lets it receive 0. A fresh load
takes its value at issue, or reports an error at its home (R209, R381). -/
def State.ldLane (s : State) (d a b : BitVec 6) (n : Nat) (so sx fresh : Bool) (l : Nat) : State × Option Bool :=
  let c := s.co
  let addr := c.laneAddr a b so l
  let dest : LoadDest := .lane (c.phys d.toNat) (c.phys (d.toNat + 1)) l sx
  let ecc := causeAddr cEcc addr
  match s.accessNamed .load addr n with
  | (s, .error k) => (s.trapLanes [(l, k)], none)
  | (s, .ok none) => if modeRese c.mode then (s, some true) else (s.trapLanes [(l, causeAddr cNres addr)], none)
  | (s, .ok (some (h, name))) =>
    if fresh then
      let s := s.beforeFresh h n
      if s.freshBad h n then (s.eccLane l ecc, some false)
      else (s.modCo fun c => c.defer (.load dest h ((s.freshLoad h n).map some) ecc), some false)
    else
      let r := s.plainLoad h name n
      (r.1.modCo fun c => c.defer (.load dest h r.2 ecc), some false)

/-- LD over the lanes given: the lanes that did not trap and those whose page is not resident. -/
def State.ldLanes (s : State) (d a b : BitVec 6) (n : Nat) (so sx fresh : Bool) : List Nat → State × List Nat × List Nat
  | [] => (s, [], [])
  | l :: ls =>
    let r := s.ldLane d a b n so sx fresh l
    let q := State.ldLanes r.1 d a b n so sx fresh ls
    match r.2 with
    | none => q
    | some out => (q.1, l :: q.2.1, if out then l :: q.2.2 else q.2.2)

/-- LD (R206, R208). -/
def execLd (m : Bool) (d a b : BitVec 6) (h : BitVec 2) (o x : BitVec 1) (z : BitVec 2) (f : BitVec 1) (s : State) :
    Host.Outcome State Fault Refusal :=
  word m s fun s =>
    let n := sizeOf' z
    let _ := h
    let r := s.ldLanes d a b n (o == 1) (x == 1) (f == 1) (lanesOf s.co.active)
    let out := maskOf r.2.2
    r.1.modCo fun c =>
      let c := if out = 0 then c else c.defer (.vreg (c.phys d.toNat) out (laneVec fun _ => 0) 0)
      let c := if out = 0 ∨ n ≠ 8 then c else c.defer (.vreg (c.phys (d.toNat + 1)) out (laneVec fun _ => 0) 0)
      if modeRese c.mode then c.defer (.pred (modeResp c.mode) (maskOf r.2.1) out) else c

/-- The bytes a lane stores: n bytes of V[d+1]:V[d] (R208). -/
def Coach.storeBytes (c : Coach) (d : BitVec 6) (n l : Nat) : List Byte :=
  leBytes n ((c.vreg d.toNat l).toNat + 2 ^ 32 * (c.vreg (d.toNat + 1) l).toNat)

/-- One lane of ST. -/
def State.stLane (d a b : BitVec 6) (n : Nat) (so fresh : Bool) (s : State) (l : Nat) : State :=
  match s.storeAccess (s.co.laneAddr a b so l) n with
  | (s, .error k) => s.trapLanes [(l, k)]
  | (s, .ok h) => if fresh then s.freshStore h (s.co.storeBytes d n l) else s.store h (s.co.storeBytes d n l)

/-- ST (R208, R209). -/
def execSt (m : Bool) (d a b : BitVec 6) (h : BitVec 2) (o : BitVec 1) (z : BitVec 2) (f : BitVec 1) (s : State) :
    Host.Outcome State Fault Refusal :=
  word m s fun s =>
    let _ := h
    (lanesOf s.co.active).foldl (State.stLane d a b (sizeOf' z) (o == 1) (f == 1)) s

/-! ### GLD and GST (R210) -/

/-- GLD (R210). -/
def execGld (m : Bool) (d a : BitVec 6) (i : BitVec 13) (s : State) : Host.Outcome State Fault Refusal :=
  word m s fun s =>
    let addr := s.co.groupAddr a i
    match s.accessNamed .load addr 8 with
    | (s, .error k) => s.trapPlane k
    | (s, .ok none) => s.trapPlane (causeAddr cNres addr)
    | (s, .ok (some (h, name))) =>
      let r := s.plainLoad h name 8
      r.1.modCo fun c => c.defer (.load (.group d c.planeLanes) h r.2 (causeAddr cEcc addr))

/-- GST (R210). -/
def execGst (m : Bool) (d a : BitVec 6) (i : BitVec 13) (s : State) : Host.Outcome State Fault Refusal :=
  word m s fun s =>
    match s.storeAccess (s.co.groupAddr a i) 8 with
    | (s, .error k) => s.trapPlane k
    | (s, .ok h) => s.store h (leBytes 8 (s.co.greg d).toNat)

/-! ### Scratchpad and quad memory (R211) -/

/-- One lane of SLD or QLD. -/
def State.spaceLdLane (quad : Bool) (d a b : BitVec 6) (n : Nat) (sx : Bool) (s : State) (l : Nat) : State :=
  let c := s.co
  let addr := c.spaceAddr a b l
  match c.space quad addr n with
  | .error k => s.trapLanes [(l, k)]
  | .ok h =>
    s.modCo fun c => c.defer
      (.load (.lane (c.phys d.toNat) (c.phys (d.toNat + 1)) l sx) h (c.known h n) (causeSpace cEcc addr))

/-- One lane of SST or QST. -/
def State.spaceStLane (quad : Bool) (d a b : BitVec 6) (n : Nat) (s : State) (l : Nat) : State :=
  match s.co.space quad (s.co.spaceAddr a b l) n with
  | .error k => s.trapLanes [(l, k)]
  | .ok h => s.store h (s.co.storeBytes d n l)

/-- SLD (R211). -/
def execSld (m : Bool) (d a b : BitVec 6) (z : BitVec 2) (x : BitVec 1) (s : State) : Host.Outcome State Fault Refusal :=
  word m s fun s => (lanesOf s.co.active).foldl (State.spaceLdLane false d a b (sizeOf' z) (x == 1)) s

/-- SST (R211). -/
def execSst (m : Bool) (d a b : BitVec 6) (z : BitVec 2) (s : State) : Host.Outcome State Fault Refusal :=
  word m s fun s => (lanesOf s.co.active).foldl (State.spaceStLane false d a b (sizeOf' z)) s

/-- QLD (R211). -/
def execQld (m : Bool) (d a b : BitVec 6) (z : BitVec 2) (x : BitVec 1) (s : State) : Host.Outcome State Fault Refusal :=
  word m s fun s => (lanesOf s.co.active).foldl (State.spaceLdLane true d a b (sizeOf' z) (x == 1)) s

/-- QST (R211). -/
def execQst (m : Bool) (d a b : BitVec 6) (z : BitVec 2) (s : State) : Host.Outcome State Fault Refusal :=
  word m s fun s => (lanesOf s.co.active).foldl (State.spaceStLane true d a b (sizeOf' z)) s

/-! ### Atomics (R212 to R214) -/

/-- The new word of an atomic: operation, old word, operand, CAS's replacement (R213). -/
def atomNew (op : Nat) (old x y : Word) : Word :=
  match op with
  | 0 => old + x
  | 1 => if old.slt x then old else x
  | 2 => if old.slt x then x else old
  | 3 => if old.ult x then old else x
  | 4 => if old.ult x then x else old
  | 5 => old &&& x
  | 6 => old ||| x
  | 7 => old ^^^ x
  | 8 => x
  | 9 => if old = x then y else old
  | _ => BitVec.ofNat 32 (fadd 23 0 old.toNat x.toNat).1

/-- The home of one lane's atomic, or its cause; host memory takes ADD, XCHG and CAS alone (R213, R214). -/
def State.atomHome (s : State) (p : BitVec 2) (op : Nat) (addr : Int) : State × Except Cause Nat :=
  if p = 0 then s.residentAccess (if [0, 8, 9].contains op then .store else .atom) addr 4
  else (s, s.co.space (p == 1) addr.toNat 4)

/-- The cause of an error at an address of a space (R110). -/
def eccCause (glob : Bool) (addr : Int) : Cause := if glob then causeAddr cEcc addr else causeSpace cEcc addr.toNat

/-- One lane of ATOM: the read-modify-write at the home, and the value from just before it when it returns (R213, R198).
A poisoned word is left as it is and reported at the park. -/
def State.atomLane (ret : Bool) (d a b : BitVec 6) (p : BitVec 2) (op : Nat) (s : State) (l : Nat) : State :=
  let c := s.co
  let addr := c.laneAddr a b false l
  match s.atomHome p op addr with
  | (s, .error k) => s.trapLanes [(l, k)]
  | (s, .ok h) =>
    let s := s.atHome h 4
    if s.poisoned h 4 then s.eccLane l (eccCause (p == 0) addr)
    else
      let old : Word := BitVec.ofNat 32 (s.rdNat h 4)
      let s := s.wrNat h 4 (atomNew op old (c.vreg d.toNat l) (c.vreg (d.toNat + 1) l)).toNat
      if ret then s.modCo fun c => c.defer (.vreg (c.phys d.toNat) (laneBit l) (laneVec fun _ => old) 0) else s

/-- ATOM, returning (R213). -/
def execAtom (m : Bool) (d a b : BitVec 6) (p : BitVec 2) (o : BitVec 4) (s : State) : Host.Outcome State Fault Refusal :=
  word m s fun s => (lanesOf s.co.active).foldl (State.atomLane true d a b p o.toNat) s

/-- ATOMN, not returning (R213). -/
def execAtomn (m : Bool) (d a b : BitVec 6) (p : BitVec 2) (o : BitVec 4) (s : State) : Host.Outcome State Fault Refusal :=
  word m s fun s => (lanesOf s.co.active).foldl (State.atomLane false d a b p o.toNat) s

/-! ### Sum cells (R190 to R192, R215, R216) -/

/-- VAL of a cell (R190). -/
def cellVal (x : BitVec 128) : Int := (x.extractLsb' 0 119).toInt
/-- F of a cell. -/
def cellF (x : BitVec 128) : Nat := (x.extractLsb' 119 7).toNat
/-- A cell of VAL, F and stickies. -/
def cellOf (v : Int) (f : Nat) (ovf inx : Bool) : BitVec 128 :=
  BitVec.ofBool inx ++ BitVec.ofBool ovf ++ BitVec.ofNat 7 f ++ BitVec.ofInt 119 v

/-- Add an F32 value to a cell (R191). -/
def cellAdd (x : BitVec 128) (v : Word) : BitVec 128 :=
  let f := cellF x
  let inx := x.getLsbD 127
  let ovf := x.getLsbD 126
  let top : Int := 2 ^ 118 - 1
  match unpack 23 v.toNat with
  | .nan _ => cellOf (cellVal x) f true inx
  | .inf neg => cellOf (if neg then -(2 ^ 118) else top) f true inx
  | .fin neg m e =>
    let n : Int := (if neg then -(m : Int) else m) * up2 (e + f)
    let d : Int := up2 (-(e + f))
    let sum := cellVal x + n / d
    let inx := inx || n % d != 0
    if top < sum then cellOf top f true inx
    else if sum < -(2 ^ 118) then cellOf (-(2 ^ 118)) f true inx
    else cellOf sum f ovf inx

/-- Read a cell as F32 under RNE (R192). -/
def cellRead (x : BitVec 128) : Word := BitVec.ofNat 32 (froundInt 23 0 (cellVal x) (-(cellF x : Int)) false).1

/-- The cell AFXCLR leaves (R216). -/
def cellClear (v : Word) : BitVec 128 := cellOf 0 (v.extractLsb' 0 7).toNat false false

/-- What AFXFLG reads (R216). -/
def cellFlags (x : BitVec 128) : Word :=
  0#23 ++ BitVec.ofBool (x.getLsbD 127) ++ BitVec.ofBool (x.getLsbD 126) ++ x.extractLsb' 119 7

/-- A step on the cell of one lane at its home, for a writing or a reading instruction (R216). Host memory takes no such step
(R214): DEDUCED, log 11. A poisoned cell is reported at the park. -/
def State.cellLane (write : Bool) (a b : BitVec 6) (f : Nat → Nat → State → BitVec 128 → State) (s : State) (l : Nat) :
    State :=
  let addr := s.co.cellAddr a b l
  match s.residentAccess (if write then .atom else .cell) addr 16 with
  | (s, .error k) => s.trapLanes [(l, k)]
  | (s, .ok h) =>
    let s := s.atHome h 16
    if s.poisoned h 16 then s.eccLane l (causeAddr cEcc addr) else f h l s (BitVec.ofNat 128 (s.rdNat h 16))

/-- AFADD (R216). -/
def execAfadd (m : Bool) (d a b : BitVec 6) (s : State) : Host.Outcome State Fault Refusal :=
  word m s fun s => (lanesOf s.co.active).foldl (State.cellLane true a b fun h l s x =>
    s.wrNat h 16 (cellAdd x (s.co.vreg d.toNat l)).toNat) s

/-- AFXRD, deferred (R216). -/
def execAfxrd (m : Bool) (d a b : BitVec 6) (s : State) : Host.Outcome State Fault Refusal :=
  word m s fun s => (lanesOf s.co.active).foldl (State.cellLane false a b fun _ l s x =>
    s.modCo fun c => c.defer (.vreg (c.phys d.toNat) (laneBit l) (laneVec fun _ => cellRead x) 0)) s

/-- AFXCLR (R216). -/
def execAfxclr (m : Bool) (d a b : BitVec 6) (s : State) : Host.Outcome State Fault Refusal :=
  word m s fun s => (lanesOf s.co.active).foldl (State.cellLane true a b fun h l s _ =>
    s.wrNat h 16 (cellClear (s.co.vreg d.toNat l)).toNat) s

/-- AFXFLG, deferred (R216). -/
def execAfxflg (m : Bool) (d a b : BitVec 6) (s : State) : Host.Outcome State Fault Refusal :=
  word m s fun s => (lanesOf s.co.active).foldl (State.cellLane false a b fun _ l s x =>
    s.modCo fun c => c.defer (.vreg (c.phys d.toNat) (laneBit l) (laneVec fun _ => cellFlags x) 0)) s

/-! ### Page requests (R217 to R220) -/

/-- The TAG of a page request by the coach in focus (R219). -/
def State.pageTag (s : State) : Dword :=
  let i := s.co.ident
  let launch := ((s.haul? i.haul).map (·.launchNo)).getD 0
  if i.level = 0 then launch ++ 0#3 ++ BitVec.ofNat 5 i.cidx ++ BitVec.ofNat 24 i.rake
  else launch ++ BitVec.ofNat 3 i.level ++ BitVec.ofNat 5 i.shade ++ 0#18 ++ BitVec.ofNat 6 (i.core / 4)

/-- The size code of a page (R219). -/
def pageCode (bits : Nat) : BitVec 2 := if bits = 15 then 0 else if bits = 21 then 1 else 2

/-- Translate without the TLBs (R218). -/
def State.probe (s : State) (a : Int) : State × Xl :=
  if a < 0 ∨ 2 ^ 52 ≤ a then (s, .prot)
  else if winBase ≤ a.toNat then (s, .found (homeWin (a.toNat - winBase)) 0x3F#64 23)
  else s.translateWalk s.ctx .load a.toNat

/-- One lane of PGREQ: it traps, or adds its page to the list when the page is mapped and not resident. -/
def State.pgLane (a b : BitVec 6) (r : State × List (Nat × Nat)) (l : Nat) : State × List (Nat × Nat) :=
  let addr := r.1.co.laneAddr a b false l
  match r.1.probe addr with
  | (s, .absent _ bits) =>
    let p := addr.toNat / 2 ^ bits * 2 ^ bits
    (s, if r.2.any fun q => q.1 == p then r.2 else r.2 ++ [(p, bits)])
  | (s, .found _ _ _) => (s, r.2)
  | (s, .ecc) => (s.trapLanes [(l, causeAddr cEcc addr)], r.2)
  | (s, _) => (s.trapLanes [(l, causeAddr cProt addr)], r.2)

/-- PGREQ: one request for each distinct page; the die controller holds it until it is posted (R218, R219). -/
def execPgreq (m : Bool) (d a b : BitVec 6) (s : State) : Host.Outcome State Fault Refusal :=
  word m s fun s =>
    let r := (lanesOf s.co.active).foldl (State.pgLane a b) (s, [])
    let s := r.1
    let tag := s.pageTag
    let asid := s.co.special.asid
    let s := s.modVf s.ctx.vf fun v => { v with requests := v.requests ++ r.2.map fun p =>
      { asid := asid, va := p.1, tag := tag, size := pageCode p.2 } }
    s.modCo fun c =>
      let n := c.special.posted + BitVec.ofNat 64 r.2.length
      ({ c with special := { c.special with posted := n } }).setG d n

/-- One lane of RESQ: it traps, or counts as resident. -/
def State.resLane (a b : BitVec 6) (r : State × LaneMask) (l : Nat) : State × LaneMask :=
  let addr := r.1.co.laneAddr a b false l
  match r.1.probe addr with
  | (s, .absent _ _) => (s, r.2)
  | (s, .found _ _ _) => (s, r.2 ||| laneBit l)
  | (s, .ecc) => (s.trapLanes [(l, causeAddr cEcc addr)], r.2)
  | (s, _) => (s.trapLanes [(l, causeAddr cProt addr)], r.2)

/-- RESQ, deferred (R220). -/
def execResq (m : Bool) (d a b : BitVec 6) (s : State) : Host.Outcome State Fault Refusal :=
  word m s fun s =>
    let r := (lanesOf s.co.active).foldl (State.resLane a b) (s, 0)
    r.1.groupD d fun _ => zext64 r.2

/-- PFETCH: translations come into the TLBs; nothing visible changes and nothing traps (R220). That the walk leaves no A
bit is DEDUCED, log 12. -/
def execPfetch (m : Bool) (a b : BitVec 6) (s : State) : Host.Outcome State Fault Refusal :=
  word m s fun s =>
    let r := (lanesOf s.co.active).foldl (fun t l => (t.probe (t.co.laneAddr a b false l)).1) s
    { s with tlb := r.tlb }

end Sys2Proof.Machine
end

