-- ==== Sys2Proof/Machine/Engine.lean ====
section
/-! DEFINITION. Accesses of engines and controllers, which have no write buffer and no snapshot (R304), and the publish
sets (R234 to R237). -/

namespace Sys2Proof.Machine

/-- The requester port of a die's controller; die 0's shares the host's (R20). -/
def ctrlPort (die : Nat) : Nat := 65 + 2 * die

/-- The die of the controller that holds the lease (R61). -/
def State.leaderDie (s : State) : Nat := (s.dev.leader.map (·.2)).getD 0

/-- n bytes at a home as the device reads them: a host granule's pkg copy stands for it (R297, R304). -/
def State.peek (s : State) (a n : Nat) : List Byte :=
  if isHost a then (List.range n).map fun i => (s.homeWord (granule (a + i))).extractLsb' (8 * ((a + i) % 4)) 8
  else s.rd a n

/-- The same as a number. -/
def State.peekNat (s : State) (a n : Nat) : Nat := leNat (s.peek a n)

/-- Bytes an engine writes at a home: host memory takes them in the pkg point's copy, in the name of an address space (R308). -/
def State.poke (s : State) (o : Nat × BitVec 16) (a : Nat) (b : List Byte) : State :=
  if isHost a then s.wrHostCopy o a b else s.wr a b

/-- One atomic action at a home of n bytes: what f makes of the old value (R301). An object that holds an uncorrectable error
is left as it is (R381). -/
def State.atomicAt (s : State) (a n : Nat) (f : Nat → Nat) : State :=
  let s := s.sinkHost a n
  if s.poisoned a n then s else s.wrNat a n (f (s.rdNat a n))

/-- Whether a requester port reaches a home: device memory by its mask, every other home whatever it is (R357). -/
def State.portSees (s : State) (port home : Nat) : Bool := decide (homeSpan ≤ home) || s.portAllows port home

/-- An access of a port that names a home by its device address: f where the port reaches it, else refused (R357, R368; log
79). -/
def State.atPort (s : State) (port home : Nat) (f : State → State) : State :=
  if s.portSees port home then f s else s.refusePort port home

/-- How an access of an engine or controller came out. -/
inductive Got where
  | ok (b : List Byte)
  | prot
  | absent
  | ecc
  deriving DecidableEq, Repr

/-- The pieces of n bytes from a on that lie in one aligned 64-byte block each, and so in one page. -/
def spans (a n : Nat) : List (Nat × Nat) :=
  ((List.range ((a % 64 + n + 63) / 64)).map fun i =>
    let lo := max a (a / 64 * 64 + 64 * i)
    (lo, min (a + n) (a / 64 * 64 + 64 * i + 64) - lo)).filter fun p => p.2 != 0

/-- Read virtual addresses piece by piece; the first failure ends it (R230, R284, R34). -/
def State.readSpans (x : Ctx) : List (Nat × Nat) → State → State × Got
  | [], s => (s, .ok [])
  | (a, n) :: ps, s =>
    match s.translate x .load a with
    | (s, .found h _ _) =>
      if s.poisoned h n then (s, .ecc)
      else
        let b := s.peek h n
        match State.readSpans x ps s with
        | (s, .ok l) => (s, .ok (b ++ l))
        | r => r
    | (s, .absent _ _) => (s, .absent)
    | (s, .ecc) => (s, .ecc)
    | (s, _) => (s, .prot)

/-- Read n bytes from a virtual address on. -/
def State.readVa (s : State) (x : Ctx) (a n : Nat) : State × Got := State.readSpans x (spans a n) s

/-- The homes of pieces that are to be written, with their lengths; the first failure ends it. -/
def State.writeHomes (x : Ctx) : List (Nat × Nat) → State → State × Except Got (List (Nat × Nat))
  | [], s => (s, .ok [])
  | (a, n) :: ps, s =>
    match s.translate x .store a with
    | (s, .found h _ _) =>
      match State.writeHomes x ps s with
      | (s, .ok l) => (s, .ok ((h, n) :: l))
      | r => r
    | (s, .absent _ _) => (s, .error .absent)
    | (s, .ecc) => (s, .error .ecc)
    | (s, _) => (s, .error .prot)

/-- Write bytes at the homes found for them. -/
def State.pokeAll (s : State) (o : Nat × BitVec 16) : List (Nat × Nat) → List Byte → State
  | [], _ => s
  | (h, n) :: ps, b => State.pokeAll (s.poke o h (b.take n)) o ps (b.drop n)

/-- Write bytes from a virtual address on: all of them, or none where a page refuses its part (R230, R400). -/
def State.writeVa (s : State) (x : Ctx) (a : Nat) (b : List Byte) : State × Got :=
  match State.writeHomes x (spans a b.length) s with
  | (s, .ok l) => (s.pokeAll (x.vf, x.asid) l b, .ok [])
  | (s, .error g) => (s, g)

/-- One atomic action on an aligned object of n bytes at a virtual address; false where the access fails, on an uncorrectable
error too (R52, R381, R400). At a host home one of 64 bits, a signal's or a Dray counter's, is one action there: DESIGN CHOICE, log
78. -/
def State.atomicVa (s : State) (x : Ctx) (a n : Nat) (f : Nat → Nat) : State × Bool :=
  match s.translate x .store a with
  | (s, .found h _ _) => if s.poisoned h n then (s, false) else (s.atomicAt h n f, true)
  | (s, _) => (s, false)

/-- A controller's access at a guest physical address of a VF: its home through the second stage, none where that or the
controller's port refuses it (R357, R359, R368). -/
def State.gpaHome (s : State) (vf gpa : Nat) (write : Bool) : State × Option Nat :=
  let port := ctrlPort s.leaderDie
  match s.stage2 port vf gpa with
  | (s, .error _) => (s, none)
  | (s, .ok (da, e, p, _)) =>
    if write && !e.getLsbD eW then (s, none)
    else if !s.portAllows port da then (s.refusePort port da, none)
    else (if write then s.setEntryBit p eD else s, some da)

/-- Read a dword-sized or smaller object at a guest physical address (R57, R219). -/
def State.readGpa (s : State) (vf gpa n : Nat) : State × Option (List Byte) :=
  match s.gpaHome vf gpa false with
  | (s, none) => (s, none)
  | (s, some h) => (s, some (s.rd h n))

/-! ### Publish sets (R234 to R236) -/

/-- Change a registered set and write its device-written fields at the entry's pkg home: one point in the pkg order, at
which every selector array changes with it (R236, R305). -/
def State.modSet (s : State) (vf : Nat) (p : PSet) : State :=
  let s := s.modVf vf fun v => { v with psets := v.psets.map fun q => if q.id = p.id then p else q }
  let s := s.wr (p.entry + 0x12) [BitVec.ofNat 8 p.cur, p.pinned.zeroExtend 8]
  let s := s.wrNat (p.entry + 0x14) 4 p.refused.toNat
  s.wrNat (p.entry + 0x18) 8 p.gen.toNat

/-- PUBLISH on a set (R236). -/
def PSet.publish (p : PSet) : PSet :=
  match p.shadow with
  | none => { p with refused := p.refused + 1 }
  | some n => { p with cur := n, gen := p.gen + 1 }

/-- PUBLISH on the set with this id, when it is registered (R236, R320). -/
def State.publishSet (s : State) (vf id : Nat) : State :=
  match s.pset? vf id with
  | none => s
  | some p => s.modSet vf p.publish

/-- The slot a pin operand names: CUR for 3, else itself (R236). -/
def PSet.slotOf (p : PSet) (b : Dword) : Nat := if b.extractLsb' 0 2 = 3 then p.cur else (b.extractLsb' 0 2).toNat

/-- Whether a pin operand is refused (R236). -/
def PSet.pinBad (p : PSet) (b : Dword) : Bool :=
  b.extractLsb' 2 62 != 0 || (b.extractLsb' 0 2 != 3 && decide (p.nslot ≤ (b.extractLsb' 0 2).toNat))

/-- An instruction on the set that G[a] names: DRAYX for EXMSET where the set, or what bad says of it, is refused; PROT where the
port of the coach's quad does not reach the set's entry (R236, R357; log 79). -/
def State.onSet (s : State) (a : BitVec 6) (bad : PSet → Bool) (f : PSet → PSet) : State :=
  let x := s.co.greg a
  let trap := s.trapAll (causeWord cDrayx (x.extractLsb' 0 32))
  if x.extractLsb' 16 48 ≠ 0 then trap
  else
    match s.pset? s.ctx.vf x.toNat with
    | none => trap
    | some p =>
      if bad p then trap
      else if !s.portSees s.ctx.port p.entry then s.trapAll (causeAddr cProt p.entry)
      else s.modSet s.ctx.vf (f p)

/-- PUBLISH (R236). -/
def execPublish (m : Bool) (a : BitVec 6) (s : State) : Host.Outcome State Fault Refusal :=
  word m s fun s => s.onSet a (fun _ => false) PSet.publish

/-- PPIN (R236). -/
def execPpin (m : Bool) (a b : BitVec 6) (s : State) : Host.Outcome State Fault Refusal :=
  word m s fun s =>
    let y := s.co.greg b
    s.onSet a (fun p => p.pinBad y) fun p => { p with pinned := p.pinned ||| (1#3 <<< p.slotOf y) }

/-- PUNPIN (R236). -/
def execPunpin (m : Bool) (a b : BitVec 6) (s : State) : Host.Outcome State Fault Refusal :=
  word m s fun s =>
    let y := s.co.greg b
    s.onSet a (fun p => p.pinBad y) fun p => { p with pinned := p.pinned &&& ~~~(1#3 <<< p.slotOf y) }

end Sys2Proof.Machine
end

