-- ==== Sys2Proof/Machine/Layout.lean ====
section
/-! DEFINITION. How a haul's rakes and lifts share a quad: coaches by core, allocations, and where the lifts lie (R26,
R29, R30, R36, R37, R193). -/

namespace Sys2Proof.Machine

/-- Coaches of a rake: ceil (LANES / 32) (R26). -/
def Header.ncoach (h : Header) : Nat := (h.lanes + 31) / 32
/-- Coaches of a rake on a relative core (R26). -/
def Header.coachesOn (h : Header) (j : Nat) : Nat := ((List.range h.ncoach).filter fun i => i % 4 == j).length
/-- The rake's scratchpad allocation on a relative core (R30). -/
def Header.alloc (h : Header) (j : Nat) : Nat :=
  if h.coachesOn j = 0 then 0 else h.scrb + h.coachesOn j * (h.rstk + h.spill)
/-- Register depth of the partition word: bytes of vector registers per core (R29). -/
def Header.regBytes (h : Header) : Nat := (h.part.extractLsb' 0 5).toNat * 262144
/-- Scratchpad bytes per core (R29). -/
def Header.scrBytes (h : Header) : Nat := (h.part.extractLsb' 5 5).toNat * 262144
/-- Accumulator banks per core (R29). -/
def Header.accBanks (h : Header) : Nat := (h.part.extractLsb' 10 5).toNat * 16
/-- The time slice in µs (R32). -/
def Header.sliceUs (h : Header) : Nat := if h.slice = 0 then 50 else h.slice
/-- The pre-emption deadline in µs (R32). -/
def Header.deadlineUs (h : Header) : Nat := if h.deadline = 0 then 20 else h.deadline

/-- Shading slots of a lift on a physical core of the quad (R36). -/
def LiftDesc.slotsOn (l : LiftDesc) (p : Nat) : Nat := ((List.range l.scoach).filter fun i => i % 4 == p).length
/-- Scratchpad of one shading coach: SSCR, then its return stack, then its spill area (R36, R193). -/
def LiftDesc.alloc (l : LiftDesc) : Nat := l.sscr + l.srstk + l.sspill

/-- What the lifts take on a physical core: slots, register bytes, scratchpad bytes (R37). -/
def liftUse (ls : List LiftDesc) (p : Nat) : Nat × Nat × Nat :=
  ls.foldl (fun t l =>
    let n := l.slotsOn p
    (t.1 + n, t.2.1 + n * 128 * l.spregs, t.2.2 + n * l.alloc)) (0, 0, 0)

/-- What one rake takes on a relative core (R37). -/
def Header.rakeUse (h : Header) (j : Nat) : Nat × Nat × Nat :=
  (h.coachesOn j, h.coachesOn j * 128 * h.pregs, h.alloc j)

/-- Quad memory of the lifts: 2 KiB for each request slot (R36, R37). -/
def liftQm (ls : List LiftDesc) : Nat := (ls.map fun l => 2048 * l.reqs).sum

/-- Whether rakes under the rotations given fit a quad beside the lifts (R37): per core slots, registers and scratchpad,
and quad memory. -/
def fitsOn (h : Header) (ls : List LiftDesc) (rots : List Nat) : Bool :=
  (List.range 4).all (fun p =>
    let u := rots.foldl (fun t r =>
      let v := h.rakeUse ((p + 4 - r % 4) % 4)
      (t.1 + v.1, t.2.1 + v.2.1, t.2.2 + v.2.2)) (liftUse ls p)
    decide (u.1 ≤ 32) && decide (u.2.1 ≤ h.regBytes) && decide (u.2.2 ≤ h.scrBytes)) &&
  decide (rots.length * h.qmb + liftQm ls ≤ 8 * 2 ^ 20)

/-- Whether one rake and every lift fit on one quad under some rotation (R37). -/
def fits (h : Header) (ls : List LiftDesc) : Bool := (List.range 4).any fun r => fitsOn h ls [r]

/-- The core a relative core of a resident rake is (R70). -/
def Rake.core (r : Rake) (j : Nat) : Nat := 4 * r.quad + (r.rot + j) % 4

/-- First pool byte of the scratchpad of shading slot i of level l (1 up) on its core: the lifts' allocations lie at the top
of the core's scratchpad region, in order of level and slot: DESIGN CHOICE, log 13. -/
def liftScr (h : Header) (ls : List LiftDesc) (l i : Nat) : Nat :=
  let p := i % 4
  let before := ((ls.take (l - 1)).map fun d => d.slotsOn p * d.alloc).sum
  match ls[l - 1]? with
  | none => 0
  | some d => h.regBytes + h.scrBytes - (before + (i / 4 + 1) * d.alloc)

end Sys2Proof.Machine
end

