-- ==== Sys2Proof/Machine/Dray.lean ====
section
/-! DEFINITION. The Dray engine (R223 to R233), the block floating-point formats it converts (R187 to R189), and the quad
event queue (R82, R83). -/

namespace Sys2Proof.Machine

/-! ### The quad event queue (R82, R83) -/

/-- Whether a quad's event queue takes a record now (R82, R83). -/
def Quad.eventRoom (q : Quad) : Bool := q.held.isEmpty && decide (q.events.length < 256)

/-- Post a record; a full queue holds it (R83). A quad that a record waits on is not idle (R85). -/
def Quad.post (q : Quad) (e : EventRec) : Quad :=
  let q := { q with idleFrom := none, power := if q.power = Power.idle then Power.on else q.power }
  if q.eventRoom then { q with events := q.events ++ [e] } else { q with held := q.held ++ [e] }

/-- The core and slot of a coach as an event record gives them (R82). -/
def Coach.src (c : Coach) : Byte := BitVec.ofNat 8 (c.ident.core % 4 + 4 * c.ident.slot)

/-- Whether a record of a coach is still held by its quad's full queue (R83). -/
def State.holdsEvent (s : State) (c : Coach) : Bool := (s.quad (c.ident.core / 4)).held.any fun e => e.src == c.src

/-- A coach that TDONE kept waiting goes on once none of its records is held (R83). -/
def State.wakeTdone (s : State) (quad : Nat) : State :=
  (s.allCoaches.filter fun c => c.ident.core / 4 == quad && c.issue.wait == .tdone && !s.holdsEvent c).foldl
    (fun s c => s.releaseWait c.ident.id) s

/-- EVENT_RECORD_POST: a held record is posted once a slot is free (R83); the quad pauses while its clock changes (R376). -/
def execEventRecordPost (quad : Nat) (s : State) : Host.Outcome State Fault Refusal :=
  .next (if (s.quad quad).changing then s else (s.modQuad quad fun q =>
    match q.held with
    | [] => q
    | e :: rest => if q.events.length < 256 then { q with events := q.events ++ [e], held := rest } else q).wakeTdone quad)

/-- EVENT_QUEUE_READ: the sequencer reads the next record in order (R82); it pauses while the quad's clock changes (R376). -/
def execEventQueueRead (quad : Nat) (s : State) : Host.Outcome State Fault Refusal :=
  .next (if (s.quad quad).changing then s else s.modQuad quad fun q =>
    match q.events with
    | [] => q
    | e :: rest => { q with events := rest, lastRead := some e })

/-! ### Block floating point (R187 to R189) -/

/-- Mantissa i of a block of width k: a k-bit two's-complement integer of the bit string after the header (R187). -/
def bfpMant (k : Nat) (b : List Byte) (i : Nat) : Int :=
  let x := leNat (b.drop 4) / 2 ^ (k * i) % 2 ^ k
  if 2 ^ (k - 1) ≤ x then (x : Int) - 2 ^ k else x

/-- Whether a block's header breaks R187 for a reader of width k. -/
def bfpBad (k : Nat) (b : List Byte) : Bool :=
  let w := leNat (b.take 4)
  w / 65536 != 0 || w / 256 % 256 != k

/-- An element of a block times the scale s, rounded to BF16 (R188). -/
def bfpElem (e : Nat) (k : Nat) (m : Int) (s : Word) : Nat :=
  match unpack 23 s.toNat with
  | .nan _ => 0x7FC0
  | .inf neg =>
    if e = 255 ∨ e = 0 ∨ m = 0 then 0x7FC0 else infBits 7 (neg != decide (m < 0))
  | .fin neg sm se =>
    if e = 255 then 0x7FC0
    else
      let m := if e = 0 then 0 else m
      let (n, d) := fracOf (m.natAbs * sm) (e - 127 - (k - 1) + se)
      (fround 7 0 (neg != decide (m < 0)) n d).1

/-- The 32 halves a block expands to, or those of a malformed block (R188, R229). -/
def bfpExpand (k : Nat) (s : Word) (b : List Byte) : List Nat :=
  if bfpBad k b then List.replicate 32 0x7FC0
  else (List.range 32).map fun i => bfpElem (leNat (b.take 4) % 256) k (bfpMant k b i) s

/-- The exponent of a finite nonzero magnitude, none for zero. -/
def FVal.log2? : FVal → Option Int
  | .fin _ m e => if m = 0 then none else some ((Nat.log2 m : Int) + e)
  | _ => none

/-- RNE of a signed value m × 2^e to an integer (R189). -/
def rneInt (neg : Bool) (m : Nat) (e : Int) : Int :=
  let (n, d) := fracOf m e
  let t := (roundAt 0 neg n d 0).1
  if neg then -(t : Int) else t

/-- The block of 32 values of a format with f fraction bits (R189). -/
def bfpCompress (f k : Nat) (xs : List Nat) : List Byte :=
  let v := xs.map (unpack f)
  let bad := v.any fun x => match x with
    | .fin _ _ _ => false
    | _ => true
  let es := v.filterMap FVal.log2?
  let emax := es.foldl max (-1000)
  let e : Nat := if bad then 255 else if es = [] then 0 else (min 254 (max 1 (emax + 128))).toNat
  let mant (x : FVal) : Int :=
    match x with
    | .fin neg m x =>
      max (-(2 ^ (k - 1))) (min (2 ^ (k - 1) - 1) (rneInt neg m (x + (k - 1) - ((e : Int) - 127))))
    | _ => 0
  let ms : List Int := if bad ∨ es = [] then List.replicate 32 0 else v.map mant
  let bits := (ms.zip (List.range ms.length)).foldl (fun a p => a + (p.1 % 2 ^ k).toNat * 2 ^ (k * p.2)) 0
  leBytes 4 (k * 256 + e) ++ leBytes (4 * k) bits

/-! ### The descriptor (R223, R224) -/

def DrayCmd.cols (c : DrayCmd) : Nat := (c.dims.extractLsb' 0 25).toNat
def DrayCmd.rows (c : DrayCmd) : Nat := (c.dims.extractLsb' 32 25).toNat
def DrayCmd.sstr (c : DrayCmd) : Nat := (c.strides.extractLsb' 0 32).toNat
def DrayCmd.dstr (c : DrayCmd) : Nat := (c.strides.extractLsb' 32 32).toNat
def DrayCmd.arg (c : DrayCmd) : Word := c.flags.extractLsb' 32 32
def DrayCmd.chan (c : DrayCmd) : Nat := (c.flags.extractLsb' 26 2).toNat
def DrayCmd.idxsp (c : DrayCmd) : Bool := c.flags.getLsbD 25
def DrayCmd.csrc (c : DrayCmd) : Bool := c.flags.getLsbD 24
def DrayCmd.dir (c : DrayCmd) : Bool := c.flags.getLsbD 23
def DrayCmd.k (c : DrayCmd) : Nat := (c.flags.extractLsb' 19 4).toNat
def DrayCmd.scope (c : DrayCmd) : Nat := (c.flags.extractLsb' 16 3).toNat
def DrayCmd.isShadow (c : DrayCmd) : Bool := c.flags.getLsbD 15
def DrayCmd.esize (c : DrayCmd) : Nat := (c.flags.extractLsb' 12 3).toNat
def DrayCmd.dcore (c : DrayCmd) : Nat := (c.flags.extractLsb' 6 2).toNat
def DrayCmd.dsp (c : DrayCmd) : Nat := (c.flags.extractLsb' 4 2).toNat
def DrayCmd.score (c : DrayCmd) : Nat := (c.flags.extractLsb' 2 2).toNat
def DrayCmd.ssp (c : DrayCmd) : Nat := (c.flags.extractLsb' 0 2).toNat
/-- Bytes of a BFP-k block (R187). -/
def DrayCmd.block (c : DrayCmd) : Nat := 4 * c.k + 4
/-- Bytes of a source element, a block under DCVT expansion. -/
def DrayCmd.selem (c : DrayCmd) : Nat :=
  if c.op = 2 then (if c.dir then (if c.csrc then 2 else 4) else c.block) else 2 ^ c.esize
/-- Bytes of a destination element, a block under DCVT compression. -/
def DrayCmd.delem (c : DrayCmd) : Nat := if c.op = 2 then (if c.dir then c.block else 2) else 2 ^ c.esize
/-- Bytes of a source row and of a destination row as the loops of R228 and R229 run. -/
def DrayCmd.srow (c : DrayCmd) : Nat := if c.op = 2 ∧ !c.dir then c.cols / 32 * c.block else c.cols * c.selem
def DrayCmd.drow (c : DrayCmd) : Nat :=
  if c.op = 1 then c.rows * c.delem
  else if c.op = 2 ∧ c.dir then c.cols / 32 * c.block else c.cols * c.delem
/-- Rows of the destination. -/
def DrayCmd.drows (c : DrayCmd) : Nat := if c.op = 1 then c.cols else c.rows

/-- Whether the command reads an index list. -/
def DrayCmd.indexed (c : DrayCmd) : Bool := c.op == 3 || c.op == 4

/-- Bytes of a space's allocation (R226): the global space ends at 2^52. -/
def DrayCmd.limit (c : DrayCmd) (sp rel : Nat) : Nat :=
  match sp with
  | 0 => 2 ^ 52
  | 1 => c.qm.2
  | _ => match c.scr[rel]? with
    | some p => p.2.2
    | none => 0

/-- Bytes of the space the index list lies in (R224). -/
def DrayCmd.idxLimit (c : DrayCmd) : Nat :=
  if c.idxsp then ((c.scr.find? fun p => p.1 == c.core).map (·.2.2)).getD 0 else c.qm.2

/-- A reserved bit outside the address fields, or a field value out of its range (R223, R224, R226). -/
def DrayCmd.fieldsBad (c : DrayCmd) : Bool :=
  let f := c.flags
  let cvt := c.op == 2
  c.dims.extractLsb' 25 7 != 0 || c.dims.extractLsb' 57 7 != 0 || f.extractLsb' 28 4 != 0 || f.extractLsb' 8 4 != 0 ||
  (c.arg != 0 && !(c.indexed || c.op == 5 || (cvt && !c.dir))) || (c.idxsp && !c.indexed) ||
  (c.csrc && !(cvt && c.dir)) || (!cvt && (c.dir || c.k != 0)) || (cvt && c.esize != 0) ||
  (c.dcore != 0 && c.dsp != 2) || (c.score != 0 && c.ssp != 2) || c.ssp == 3 || c.dsp == 3 || decide (4 ≤ c.esize) ||
  (cvt && (decide (c.k < 2) || decide (8 < c.k))) || c.rows == 0 || decide (2 ^ 24 < c.rows) || c.cols == 0 ||
  decide (2 ^ 24 < c.cols)

/-- The first failing check of R226 gives LTVAL's address field; none when every row passes. Rows that an index list names
are checked as they move (R230), but for a space of zero extent (R224). -/
def DrayCmd.check (c : DrayCmd) : Option Dword :=
  let src := c.src
  let dst := c.dst
  let cvt := c.op == 2
  let salign := if cvt then (if c.dir then c.selem else 4) else c.selem
  let dalign := if cvt then (if c.dir then 4 else 2) else c.delem
  let fill := c.op == 5
  let minScope := if c.dsp = 0 then 4 else if c.dsp = 1 then 2 else 1
  if src.extractLsb' 52 12 ≠ 0 ∨ (fill ∧ src ≠ 0) then some src
  else if dst.extractLsb' 52 12 ≠ 0 then some dst
  else if c.counter.extractLsb' 52 12 ≠ 0 then some c.counter
  else if c.fieldsBad then some dst
  else if 2 ^ 32 < c.rows * max c.srow (c.cols * (if cvt ∧ c.dir then 0 else c.delem)) ∨
      2 ^ 32 < c.drows * c.drow ∨ (cvt ∧ c.cols % 32 ≠ 0) then some dst
  else if c.scope = 0 ∨ 5 < c.scope ∨ c.scope < minScope then some dst
  else if !fill ∧ (src.toNat % salign ≠ 0 ∨ c.sstr % salign ≠ 0) then some src
  else if dst.toNat % dalign ≠ 0 ∨ c.dstr % dalign ≠ 0 then some dst
  else if c.counter.toNat % 8 ≠ 0 then some c.counter
  else if c.indexed ∧ c.arg.toNat % 4 ≠ 0 then some (zext64 c.arg)
  else if !fill ∧ c.limit c.ssp c.score < (if c.op = 3 then 1 else src.toNat + (c.rows - 1) * c.sstr + c.srow) then some src
  else if c.limit c.dsp c.dcore < (if c.op = 4 then 1 else dst.toNat + (c.drows - 1) * c.dstr + c.drow) then some dst
  else if c.indexed ∧ c.idxLimit < c.arg.toNat + 4 * c.rows then some (zext64 c.arg)
  else if c.isShadow ∧ c.dsp ≠ 0 then some dst
  else none

/-! ### Issue (R226, R227) -/

/-- The allocations a command of the coach in focus means: those of its rake, or its own for a shading coach (R224). -/
def State.drayScr (s : State) : List (Nat × Nat × Nat) :=
  let i := s.co.ident
  let own := (i.core, s.co.window.scrBase, s.co.window.scrSize)
  if i.level ≠ 0 then List.replicate 4 own
  else match s.rake? i.haul i.rake, s.haul? i.haul with
    | some r, some h => (List.range 4).map fun j => (r.core j, (r.scr[j]?).getD 0, h.hdr.alloc j)
    | _, _ => (List.range 4).map fun j => if j = i.rel then own else (i.core / 4 * 4 + j, 0, 0)

/-- The command of the coach in focus: the descriptor as it stands (R223) and the issuer's context. -/
def State.drayCmd (s : State) (op : Nat) (a : BitVec 6) : DrayCmd :=
  let c := s.co
  let g (i : BitVec 6) : Dword := c.greg (a + i)
  { coach := c.ident.id
    haul := c.ident.haul
    core := c.ident.core
    slot := c.ident.slot
    op := op
    src := g 0
    dst := g 1
    dims := g 2
    strides := g 3
    counter := g 4
    flags := g 5
    vf := s.ctx.vf
    asid := c.special.asid
    ptbase := c.special.ptbase
    mode := c.traps.mode
    spec := s.ctx.spec.isSome
    scr := s.drayScr
    qm := if c.ident.level = 0 then (c.window.qmBase, c.window.qmSize) else (0, 0)
    shadow := none
    pos := 0
    index := 0
    status := 0 }

/-- Change a channel of a quad. -/
def Quad.modChan (q : Quad) (n : Nat) (f : Channel → Channel) : Quad :=
  { q with chans := vset q.chans n (f (vget q.chans n)) }

/-- A command joins its channel's queue of 16, or waits for an entry (R227). -/
def Channel.join (ch : Channel) (c : DrayCmd) : Channel :=
  if ch.held = [] ∧ ch.queue.length < 16 then { ch with queue := ch.queue ++ [c] } else { ch with held := ch.held ++ [c] }

/-- Issue a command: every check of R226, then the queue of its channel (R226, R227, R321). -/
def State.drayIssue (s : State) (op : Nat) (a : BitVec 6) : State :=
  let c := s.drayCmd op a
  match c.check with
  | some v => s.trapAll (causeAddr cDrayx (v.extractLsb' 0 52).toNat)
  | none =>
    if c.spec ∧ c.dsp = 0 ∧ !c.isShadow then s.trapAll (causeAddr cSpecw c.dst.toNat)
    else s.modQuad (c.core / 4) fun q => q.modChan c.chan fun ch => ch.join c

/-- DCOPY (R225 to R228). -/
def execDcopy (m : Bool) (a : BitVec 6) (s : State) : Host.Outcome State Fault Refusal :=
  word m s fun s => s.drayIssue 0 a
/-- DCOPYT. -/
def execDcopyt (m : Bool) (a : BitVec 6) (s : State) : Host.Outcome State Fault Refusal :=
  word m s fun s => s.drayIssue 1 a
/-- DCVT (R229). -/
def execDcvt (m : Bool) (a : BitVec 6) (s : State) : Host.Outcome State Fault Refusal :=
  word m s fun s => s.drayIssue 2 a
/-- DGATH. -/
def execDgath (m : Bool) (a : BitVec 6) (s : State) : Host.Outcome State Fault Refusal :=
  word m s fun s => s.drayIssue 3 a
/-- DSCAT. -/
def execDscat (m : Bool) (a : BitVec 6) (s : State) : Host.Outcome State Fault Refusal :=
  word m s fun s => s.drayIssue 4 a
/-- DFILL. -/
def execDfill (m : Bool) (a : BitVec 6) (s : State) : Host.Outcome State Fault Refusal :=
  word m s fun s => s.drayIssue 5 a

/-! ### Moving elements (R228 to R230) -/

/-- The context of a command's global accesses; the reads of a speculative task that is not committed resolve to its shadows
(R235, R320). -/
def State.drayCtx (s : State) (c : DrayCmd) (write : Bool) : Ctx :=
  let h := s.haul? c.haul
  { vf := c.vf
    pasid := (h.map (·.pasid)).getD 0
    asid := c.asid
    root := c.ptbase
    user := c.mode == .u
    port := c.core / 4
    spec := if c.spec && !write then h.bind fun h => if h.committed then none else some h.psets else none
    shadow := if write && c.isShadow then some (c.shadow.getD []) else none }

/-- The home of n bytes of a space other than global; none outside the allocation (R228, R230). -/
def DrayCmd.home (c : DrayCmd) (sp rel a n : Nat) : Option Nat :=
  if c.limit sp rel < a + n then none
  else if sp = 1 then some (homeQm (c.core / 4) (c.qm.1 + a))
  else (c.scr[rel]?).map fun p => homeScr p.1 (p.2.1 + a)

/-- The status a failed access gives (R230). -/
def Got.status : Got → Nat
  | .ok _ => 0
  | .prot => 1
  | .absent => 2
  | .ecc => 3

/-- Read n bytes of a space: the bytes, or the status. -/
def State.drayRead (s : State) (c : DrayCmd) (sp rel a n : Nat) : State × Except Nat (List Byte) :=
  if sp = 0 then
    match s.readVa (s.drayCtx c false) a n with
    | (s, .ok b) => (s, .ok b)
    | (s, r) => (s, .error r.status)
  else match c.home sp rel a n with
    | none => (s, .error 1)
    | some h => if s.poisoned h n then (s, .error 3) else (s, .ok (s.rd h n))

/-- The leaf that an access uses: of the TLB entry that translates it, else of the walk (R201, R203). -/
def State.leafFor (s : State) (x : Ctx) (acc : Acc) (a : Nat) : Option Dword :=
  match s.tlbHit x acc a with
  | some t => some t.leaf
  | none =>
    match walk1 x.port x.vf a levels (x.root.toNat % 2 ^ 52 / 4096 * 4096) s with
    | (_, .error _) => none
    | (_, .ok (e, _, _, _)) => some e

/-- Whether a byte of a SHADOW element falls outside the base range of every registered set with a shadow slot, by the leaf that its
write uses (R203, R230, R235). An address at or above 2^52 has no page, so the element takes PROT (R228). -/
def State.noShadow (s : State) (x : Ctx) (a : Nat) : Bool :=
  if 2 ^ 52 ≤ a then false
  else if winBase ≤ a then true
  else match s.leafFor x .store a with
    | none => false
    | some e =>
      !leafDenies x .store e && e.getLsbD eRes &&
        (leafKind e != 3 || (s.slotGpa x (e.extractLsb' 12 16).toNat a).isNone)

/-- The homes of the pieces of a SHADOW element; the first failure ends it: NOSHADOW, or that of its write (R230). -/
def State.shadowHomes (x : Ctx) : List (Nat × Nat) → State → State × Except Nat (List (Nat × Nat))
  | [], s => (s, .ok [])
  | p :: ps, s =>
    if s.noShadow x p.1 then (s, .error 5)
    else match State.writeHomes x [p] s with
      | (s, .error g) => (s, .error g.status)
      | (s, .ok l) =>
        match State.shadowHomes x ps s with
        | (s, .ok m) => (s, .ok (l ++ m))
        | r => r

/-- Write an element to the destination's space, whole or not at all: status 0, or that of its first part that fails
(R230). -/
def State.drayWrite (s : State) (c : DrayCmd) (a : Nat) (b : List Byte) : State × Nat :=
  if c.dsp = 0 then
    let x := s.drayCtx c true
    if c.isShadow then
      match State.shadowHomes x (spans a b.length) s with
      | (s, .error e) => (s, e)
      | (s, .ok l) => (s.pokeAll (x.vf, x.asid) l b, 0)
    else
      match s.writeVa x a b with
      | (s, .ok _) => (s, 0)
      | (s, g) => (s, g.status)
  else match c.home c.dsp c.dcore a b.length with
    | none => (s, 1)
    | some h => (s.wr h b, 0)

/-- Write consecutive halves, stopping at the first failure. -/
def State.drayHalves (c : DrayCmd) : Nat → List Nat → State → State × Nat
  | _, [], s => (s, 0)
  | a, x :: xs, s =>
    match s.drayWrite c a (leBytes 2 x) with
    | (s, 0) => State.drayHalves c (a + 2) xs s
    | r => r

/-- Read consecutive elements of the source space. -/
def State.drayVals (c : DrayCmd) (n : Nat) : Nat → Nat → State → State × Except Nat (List Nat)
  | _, 0, s => (s, .ok [])
  | a, k + 1, s =>
    match s.drayRead c c.ssp c.score a n with
    | (s, .error e) => (s, .error e)
    | (s, .ok b) =>
      match State.drayVals c n (a + n) k s with
      | (s, .ok l) => (s, .ok (leNat b :: l))
      | r => r

/-- Elements, or blocks under DCVT, in a row of the loops of R228 and R229. -/
def DrayCmd.perRow (c : DrayCmd) : Nat := if c.op = 2 then c.cols / 32 else c.cols
/-- All of them. -/
def DrayCmd.total (c : DrayCmd) : Nat := c.rows * c.perRow

/-- Move one element from a source address to a destination address. -/
def State.drayMove (s : State) (c : DrayCmd) (sa da : Nat) : State × Nat :=
  match s.drayRead c c.ssp c.score sa c.selem with
  | (s, .error e) => (s, e)
  | (s, .ok b) => s.drayWrite c da b

/-- Convert one block (R229). -/
def State.drayBlock (s : State) (c : DrayCmd) (r b : Nat) : State × Nat :=
  if c.dir then
    match s.drayVals c c.selem (c.src.toNat + r * c.sstr + 32 * b * c.selem) 32 with
    | (s, .error e) => (s, e)
    | (s, .ok xs) =>
      s.drayWrite c (c.dst.toNat + r * c.dstr + b * c.block) (bfpCompress (if c.csrc then 7 else 23) c.k xs)
  else
    match s.drayRead c c.ssp c.score (c.src.toNat + r * c.sstr + b * c.block) c.block with
    | (s, .error e) => (s, e)
    | (s, .ok x) =>
      match State.drayHalves c (c.dst.toNat + r * c.dstr + 64 * b) (bfpExpand c.k c.arg x) s with
      | (s, 0) => (s, if bfpBad c.k x then 4 else 0)
      | r => r

/-- The index word of row i, read as the command runs (R228). -/
def State.drayIndex (s : State) (c : DrayCmd) (i : Nat) : Except Nat Nat :=
  let a := c.arg.toNat + 4 * i
  let home := if c.idxsp then ((c.scr.find? fun p => p.1 == c.core).map fun p => homeScr p.1 (p.2.1 + a))
    else some (homeQm (c.core / 4) (c.qm.1 + a))
  match home with
  | none => .error 1
  | some h => if s.poisoned h 4 then .error 3 else .ok (s.rdNat h 4)

/-- Move the next element of a command (R228): the command afterwards, its status set when the element fails. -/
def State.drayUnit (s : State) (c : DrayCmd) : State × DrayCmd :=
  let r := c.pos / c.perRow
  let k := c.pos % c.perRow
  let src := c.src.toNat
  let dst := c.dst.toNat
  let index : Except Nat Nat := if c.indexed ∧ k = 0 then s.drayIndex c r else .ok c.index
  match index with
  | .error e => (s, { c with status := e })
  | .ok j =>
    let c := { c with index := j }
    let out : State × Nat :=
      match c.op with
      | 0 => s.drayMove c (src + r * c.sstr + k * c.selem) (dst + r * c.dstr + k * c.delem)
      | 1 => s.drayMove c (src + r * c.sstr + k * c.selem) (dst + k * c.dstr + r * c.delem)
      | 2 => s.drayBlock c r k
      | 3 => s.drayMove c (src + j * c.sstr + k * c.selem) (dst + r * c.dstr + k * c.delem)
      | 4 => s.drayMove c (src + r * c.sstr + k * c.selem) (dst + j * c.dstr + k * c.delem)
      | _ =>
        let w := leBytes 4 c.arg.toNat
        s.drayWrite c (dst + r * c.dstr + k * c.delem) ((w ++ w).take c.delem)
    (out.1, { c with pos := c.pos + 1, status := if out.2 = 0 then c.status else out.2 })

/-- Whether the command has moved all it will: BADBLOCK alone does not end it (R230). -/
def DrayCmd.finished (c : DrayCmd) : Bool := (c.status != 0 && c.status != 4) || decide (c.total ≤ c.pos)

/-- Move up to n further elements. -/
def State.drayUnits : Nat → State → DrayCmd → State × DrayCmd
  | 0, s, c => (s, c)
  | n + 1, s, c =>
    if c.finished then (s, c)
    else
      let r := s.drayUnit c
      State.drayUnits n r.1 r.2

/-- A channel of a quad. -/
def State.chan (s : State) (quad n : Nat) : Channel := vget (s.quad quad).chans n
/-- Change a channel of a quad. -/
def State.modChan (s : State) (quad n : Nat) (f : Channel → Channel) : State :=
  s.modQuad quad fun q => q.modChan n f

/-- DRAY_ENQUEUE: a command that found its queue full takes a freed entry (R227). -/
def execDrayEnqueue (quad chan : Nat) (s : State) : Host.Outcome State Fault Refusal :=
  .next (if (s.quad quad).changing then s else s.modChan quad chan fun ch =>
    match ch.held with
    | [] => ch
    | c :: rest => if ch.queue.length < 16 then { ch with queue := ch.queue ++ [c], held := rest } else ch)

/-- DRAY_COMMAND_START: with no command running the channel starts the next of its queue, a SHADOW command with the
shadow slots of that moment (R227, R235); while one runs, it moves its next element (R228, log 14). It pauses while the
quad's clock changes (R376). -/
def execDrayCommandStart (quad chan : Nat) (s : State) : Host.Outcome State Fault Refusal :=
  let ch := s.chan quad chan
  .next (if (s.quad quad).changing then s else match ch.running, ch.queue with
    | some c, _ =>
      let r := s.drayUnits 1 c
      r.1.modChan quad chan fun ch => { ch with running := some r.2 }
    | none, [] => s
    | none, c :: rest =>
      let c := { c with shadow := if c.isShadow then some ((s.vf c.vf).psets.map fun p => (p.id, p.shadow)) else none }
      s.modChan quad chan fun ch => { ch with queue := rest, running := some c })

/-- The home of a command's counter: a speculative task's counter in the base range of a set it names lies in the shadow slot
(R231, R235, R321). -/
def State.drayCounter (s : State) (c : DrayCmd) : State × Xl :=
  let x := s.drayCtx c false
  match s.translate x .store c.counter.toNat with
  | (s, .specw) => s.translate { x with spec := none } .store c.counter.toNat
  | r => r

/-- The counter step of a completion (R231): the state, COUNT, and the status of the record, which is the command's unless
the step was dropped; one on an erroneous counter is dropped as well (R381; log 14). -/
def State.drayCount (s : State) (c : DrayCmd) : State × Nat × Nat :=
  if c.counter = 0 then (s, 0, c.status)
  else
    let step (n : Nat) : Nat := if c.status = 0 then (n + 1) % 2 ^ 64 else (n + 1) % 2 ^ 64 ||| 2 ^ 63
    match s.drayCounter c with
    | (s, .found h _ _) =>
      if s.poisoned h 8 then (s, 0, 3)
      else
        let s := s.atomicAt h 8 step
        (s, s.rdNat h 4, c.status)
    | (s, .ecc) => (s, 0, 3)
    | (s, _) => (s, 0, 1)

/-- DRAY_COMPLETE: the command's remaining elements move, its counter steps, and its record is posted; a full event
queue holds all of it back (R83, R228 to R231). -/
def execDrayComplete (quad chan : Nat) (s : State) : Host.Outcome State Fault Refusal :=
  .next (match (s.chan quad chan).running with
    | none => s
    | some c =>
      if !(s.quad quad).eventRoom || (s.quad quad).changing then s
      else
        let r := s.drayUnits (c.total - c.pos) c
        let c := r.2
        let n := r.1.drayCount c
        let e : EventRec := {
          kind := 1
          status := BitVec.ofNat 8 n.2.2
          src := BitVec.ofNat 8 (c.core % 4 + 4 * c.slot + 128)
          chan := BitVec.ofNat 8 c.chan
          count := BitVec.ofNat 32 n.2.1
          addr := c.counter }
        (n.1.modChan quad chan fun ch => { ch with running := none }).modQuad quad fun q => q.post e)

/-- Whether a Dray command of the coaches that f names is queued, held or running on any quad (R233, R352, R372). -/
def State.drayBusy (s : State) (f : DrayCmd → Bool) : Bool :=
  s.quads.any fun q => (List.range 4).any fun n =>
    let ch := vget q.2.chans n
    ch.queue.any f || ch.held.any f || ch.running.any f

/-! ### DWAIT and DPOLL (R232) -/

/-- The counter that G[a] names: its home, or the cause. -/
def State.counterHome (s : State) (a : BitVec 6) : State × Except Cause Nat :=
  s.residentAccess .load (s.co.greg a).toNat 8

/-- DWAIT (R232). -/
def execDwait (m : Bool) (a b : BitVec 6) (s : State) : Host.Outcome State Fault Refusal :=
  word m s fun s =>
    match s.counterHome a with
    | (s, .error k) => s.trapAll k
    | (s, .ok h) => s.modCo fun c => c.endRun (.dwait (c.greg a).toNat h (c.greg b))

/-- Report an uncorrectable error for lanes at the park (R117). -/
def State.eccMask (s : State) (m : LaneMask) (k : Cause) : State :=
  s.modCo fun c => c.errLanes m k

/-- DPOLL, deferred (R232). -/
def execDpoll (m : Bool) (d a : BitVec 6) (s : State) : Host.Outcome State Fault Refusal :=
  word m s fun s =>
    match s.counterHome a with
    | (s, .error k) => s.trapAll k
    | (s, .ok h) =>
      if s.poisoned h 8 then s.eccMask s.co.masks.exm (causeAddr cEcc (s.co.greg a).toNat)
      else s.groupD d fun _ => BitVec.ofNat 64 (s.peekNat h 8)

/-- The counter at an address, as a coach that waits again for a value finds it. -/
def State.counterFor (s : State) (a : Nat) (v : Dword) : State × Option (Nat × Nat × Dword) :=
  match s.residentAccess .load a 8 with
  | (s, .ok h) => (s, some (a, h, v))
  | (s, .error _) => (s, none)

/-- What a coach in DWAIT waits for: the counter's address and home and the value; of a restored one by the operands its image names,
else by the word it waits in, none while its counter cannot be reached (R232, R353; log 15). -/
def State.dwaitOf (s : State) : State × Option (Nat × Nat × Dword) :=
  match s.co.issue.wait with
  | .dwait a h v => (s, some (a, h, v))
  | .recorded 4 (some (x, v)) => s.counterFor x.toNat v
  | .recorded 4 none =>
    match s.waitInstr with
    | (s, some (.dwait _ a b)) => s.counterFor (s.co.greg a).toNat (s.co.greg b)
    | (s, _) => (s, none)
  | _ => (s, none)

/-- DWAIT_RELEASE: the counter has reached the value waited for, bit 63 ignored (R232); an error in it ends the wait as one in
a result (R381), but takes no trap at a save point (R350; log 20). The coach pauses while its quad's clock changes (R376). -/
def execDwaitRelease (coach : Nat) (s : State) : Host.Outcome State Fault Refusal :=
  .next (s.within coach fun s =>
    if s.co.ident.id ≠ coach ∨ s.co.issue.phase ≠ .waiting ∨ (s.quad (s.co.ident.core / 4)).changing then s
    else match s.dwaitOf with
      | (s, some (a, h, v)) =>
        if s.poisoned h 8 then
          if s.co.preempt.atSave then s else (s.eccMask s.co.masks.exm (causeAddr cEcc a)).endWait
        else if v.toNat % 2 ^ 63 ≤ s.peekNat h 8 % 2 ^ 63 then s.endWait else s
      | (s, none) => s)

end Sys2Proof.Machine
end

