-- ==== Sys2Proof/Machine/FloatOps.lean ====
section
/-! DEFINITION. The special functions and conversions (R175 to R186). -/

namespace Sys2Proof.Machine

/-- An FSFU function of one operand, types 6 to 8, deferred with its flags (R98, R170, R178). -/
def State.special (s : State) (i : Instr) (d a : BitVec 6) (f : BitVec 2 → Nat → Nat → Nat × Flags) : State :=
  if s.co.type.toNat < 6 then s.trapPlane (causeIll subType i.word)
  else s.typed i 9 fun s => s.laneD d fun c l => elem1 c.type (f c.rm) (c.vreg a.toNat l)

/-- FRCP (R179). -/
def execFrcp (m : Bool) (d a : BitVec 6) (s : State) : Host.Outcome State Fault Refusal :=
  word m s fun s => s.special (.frcp m d a) d a fun rm f x => frcp f rm x

/-- FRSQ (R179). -/
def execFrsq (m : Bool) (d a : BitVec 6) (s : State) : Host.Outcome State Fault Refusal :=
  word m s fun s => s.special (.frsq m d a) d a fun _ f x => frsq f x

/-- FSQRT (R179). -/
def execFsqrt (m : Bool) (d a : BitVec 6) (s : State) : Host.Outcome State Fault Refusal :=
  word m s fun s => s.special (.fsqrt m d a) d a fun rm f x => fsqrt f rm x

/-- FEX2 (R179). -/
def execFex2 (m : Bool) (d a : BitVec 6) (s : State) : Host.Outcome State Fault Refusal :=
  word m s fun s => s.special (.fex2 m d a) d a fun _ f x => fex2 f x

/-- FLG2 (R179). -/
def execFlg2 (m : Bool) (d a : BitVec 6) (s : State) : Host.Outcome State Fault Refusal :=
  word m s fun s => s.special (.flg2 m d a) d a fun _ f x => flg2 f x

/-- FSINT (R180). -/
def execFsint (m : Bool) (d a : BitVec 6) (s : State) : Host.Outcome State Fault Refusal :=
  word m s fun s => s.special (.fsint m d a) d a fun _ f x => fsint f x

/-- FCOST (R180). -/
def execFcost (m : Bool) (d a : BitVec 6) (s : State) : Host.Outcome State Fault Refusal :=
  word m s fun s => s.special (.fcost m d a) d a fun _ f x => fcost f x

/-- FCLASS: one-hot masks, element 1's from bit 16 (R181). -/
def execFclass (m : Bool) (d a : BitVec 6) (s : State) : Host.Outcome State Fault Refusal :=
  word m s fun s => s.special (.fclass m d a) d a fun _ f x => (fclass f x, 0)

/-- ROUND (R182). -/
def execRound (m : Bool) (d a : BitVec 6) (s : State) : Host.Outcome State Fault Refusal :=
  word m s fun s => s.special (.round m d a) d a fun rm f x => froundInteger f rm x

/-- FLDEXP (R183). -/
def execFldexp (m : Bool) (d a b : BitVec 6) (s : State) : Host.Outcome State Fault Refusal :=
  word m s fun s =>
    let i := Instr.fldexp m d a b
    if s.co.type.toNat < 6 then s.trapPlane (causeIll subType i.word)
    else s.typed i 9 fun s => s.laneD d fun c l =>
      let y := c.vreg b.toNat l
      if c.type = 8 then
        elem2 8 (fun f x n => fldexp f c.rm x (BitVec.ofNat 16 n).toInt) (c.vreg a.toNat l) y
      else elem1 c.type (fun f x => fldexp f c.rm x y.toInt) (c.vreg a.toNat l)

/-- PACKE (R186). -/
def execPacke (m : Bool) (d a : BitVec 6) (s : State) : Host.Outcome State Fault Refusal :=
  word m s fun s => s.laneD d fun c l =>
    packe c.rm (c.vreg a.toNat l) (c.vreg (a.toNat + 1) l) (c.vreg (a.toNat + 2) l)

/-- UNPKE (R186). -/
def execUnpke (m : Bool) (d a : BitVec 6) (s : State) : Host.Outcome State Fault Refusal :=
  word m s fun s => s.modCo fun c =>
    [0, 1, 2].foldl (fun k n => k.defer (.vreg (c.phys (d.toNat + n)) c.active
      (laneVec fun l => unpke (c.vreg a.toNat l) n) 0)) c

/-- FFLGR: FFLAGS as they stand when the result is written (R184). -/
def execFflgr (m : Bool) (d : BitVec 6) (s : State) : Host.Outcome State Fault Refusal :=
  word m s fun s => s.modCo fun c => c.defer (.flags (c.phys d.toNat) c.active)

/-- FFLGC (R184). -/
def execFflgc (m : Bool) (k : BitVec 5) (s : State) : Host.Outcome State Fault Refusal :=
  word m s fun s => s.modCo fun c =>
    if c.active = 0 then c else { c with special := { c.special with fflags := c.special.fflags &&& ~~~k } }

/-- CVT (R175 to R177): field checks first, then the source type. -/
def execCvt (m : Bool) (d a b : BitVec 6) (sf : BitVec 1) (t : BitVec 4) (s : State) : Host.Outcome State Fault Refusal :=
  word m s fun s =>
    let st := s.co.type
    let i := Instr.cvt m d a b sf t
    if 9 ≤ t.toNat then s.trapPlane (causeIll subField i.word)
    else if b ≠ 0 ∧ ¬(t = 8 ∧ st ≠ 8) then s.trapPlane (causeIll subField i.word)
    else if 9 ≤ st.toNat then s.trapPlane (causeIll subType i.word)
    else
      let sat (c : Coach) : Bool := modeSat c.mode || sf == 1
      if t = 8 ∧ st = 8 then s.laneD d fun c l => convertX2 (c.vreg a.toNat l)
      else if t = 8 then s.laneD d fun c l => convertPack st c.rm (sat c) (c.vreg a.toNat l) (c.vreg b.toNat l)
      else if st = 8 then
        (s.laneD d fun c l => convert 7 t c.rm (sat c) (c.vreg a.toNat l)).laneD (d + 1)
          fun c l => convert 7 t c.rm (sat c) (c.vreg a.toNat l >>> 16)
      else s.laneF d fun c l => convert st t c.rm (sat c) (c.vreg a.toNat l)

end Sys2Proof.Machine
end

