-- ==== Sys2Proof/Machine/Lanes.lean ====
section
/-! DEFINITION. Exchange between lanes, predicates, and group arithmetic (R156 to R165). -/

namespace Sys2Proof.Machine

/-! ### Exchange between lanes (R156 to R158) -/

/-- V[d][L] ← V[a][f L] where f L is a lane of the coach, else 0 (R157). -/
def State.shuffle (s : State) (d a : BitVec 6) (f : Coach → Nat → Int) : State :=
  s.lane d fun c l => if 0 ≤ f c l ∧ f c l < 32 then c.vreg a.toNat (f c l).toNat else 0

/-- SHFLI (R157). -/
def execShfli (m : Bool) (d a b : BitVec 6) (s : State) : Host.Outcome State Fault Refusal :=
  word m s fun s => s.shuffle d a fun c l => ((c.vreg b.toNat l).toNat % 32 : Nat)

/-- SHFLU (R157). -/
def execShflu (m : Bool) (d a : BitVec 6) (n : BitVec 5) (s : State) : Host.Outcome State Fault Refusal :=
  word m s fun s => s.shuffle d a fun _ l => (l : Int) - n.toNat

/-- SHFLD (R157). -/
def execShfld (m : Bool) (d a : BitVec 6) (n : BitVec 5) (s : State) : Host.Outcome State Fault Refusal :=
  word m s fun s => s.shuffle d a fun _ l => (l : Int) + n.toNat

/-- SHFLX (R157). -/
def execShflx (m : Bool) (d a : BitVec 6) (n : BitVec 5) (s : State) : Host.Outcome State Fault Refusal :=
  word m s fun s => s.shuffle d a fun _ l => (l ^^^ n.toNat : Nat)

/-- BCAST (R158). -/
def execBcast (m : Bool) (d a : BitVec 6) (s : State) : Host.Outcome State Fault Refusal :=
  word m s fun s => s.lane d fun c _ => (c.greg a).extractLsb' 0 32

/-- What RDLN and FIRST leave for a lane found: its value, bit 32, and its number in [37:33] (R158). -/
def laneFound (v : Word) (l : Nat) : Dword := zext64 v ||| (1#64 <<< 32) ||| (BitVec.ofNat 64 l <<< 33)

/-- RDLN (R158). -/
def execRdln (m : Bool) (d a : BitVec 6) (n : BitVec 5) (s : State) : Host.Outcome State Fault Refusal :=
  word m s fun s => s.group d fun c =>
    if c.active.getLsbD n.toNat then laneFound (c.vreg a.toNat n.toNat) n.toNat else 0

/-- FIRST (R158). -/
def execFirst (m : Bool) (d a : BitVec 6) (s : State) : Host.Outcome State Fault Refusal :=
  word m s fun s => s.group d fun c =>
    match (lanesOf c.active).head? with
    | some l => laneFound (c.vreg a.toNat l) l
    | none => 0

/-! ### Predicates (R159 to R161) -/

/-- K[d] ← f over the active lanes. -/
def State.pred (s : State) (d : BitVec 5) (f : Coach → LaneMask) : State := s.modCo fun c => c.setK d c.active (f c)

/-- PAND (R160). -/
def execPand (m : Bool) (d a b : BitVec 5) (s : State) : Host.Outcome State Fault Refusal :=
  word m s fun s => s.pred d fun c => c.kreg a &&& c.kreg b

/-- POR (R160). -/
def execPor (m : Bool) (d a b : BitVec 5) (s : State) : Host.Outcome State Fault Refusal :=
  word m s fun s => s.pred d fun c => c.kreg a ||| c.kreg b

/-- PXOR (R160). -/
def execPxor (m : Bool) (d a b : BitVec 5) (s : State) : Host.Outcome State Fault Refusal :=
  word m s fun s => s.pred d fun c => c.kreg a ^^^ c.kreg b

/-- PANDN (R160). -/
def execPandn (m : Bool) (d a b : BitVec 5) (s : State) : Host.Outcome State Fault Refusal :=
  word m s fun s => s.pred d fun c => c.kreg a &&& ~~~(c.kreg b)

/-- PNOT (R160). -/
def execPnot (m : Bool) (d a : BitVec 5) (s : State) : Host.Outcome State Fault Refusal :=
  word m s fun s => s.pred d fun c => ~~~(c.kreg a)

/-- PMOV (R160). -/
def execPmov (m : Bool) (d a : BitVec 5) (s : State) : Host.Outcome State Fault Refusal :=
  word m s fun s => s.pred d fun c => c.kreg a

/-- PSETA (R160). -/
def execPseta (m : Bool) (d : BitVec 5) (s : State) : Host.Outcome State Fault Refusal :=
  word m s fun s => s.pred d fun _ => BitVec.allOnes 32

/-- PCLR (R160). -/
def execPclr (m : Bool) (d : BitVec 5) (s : State) : Host.Outcome State Fault Refusal :=
  word m s fun s => s.pred d fun _ => 0

/-- KFROMG (R160). -/
def execKfromg (m : Bool) (d : BitVec 5) (a : BitVec 6) (s : State) : Host.Outcome State Fault Refusal :=
  word m s fun s => s.pred d fun c => (c.greg a).extractLsb' 0 32

/-- BALLOT (R160). -/
def execBallot (m : Bool) (d : BitVec 6) (a : BitVec 5) (s : State) : Host.Outcome State Fault Refusal :=
  word m s fun s => s.group d fun c => zext64 (c.active &&& c.kreg a)

/-- POPCK (R160). -/
def execPopck (m : Bool) (d : BitVec 6) (a : BitVec 5) (s : State) : Host.Outcome State Fault Refusal :=
  word m s fun s => s.group d fun c => BitVec.ofNat 64 (popCount (c.active &&& c.kreg a))

/-- VANY (R160). -/
def execVany (m : Bool) (d : BitVec 4) (a : BitVec 5) (s : State) : Host.Outcome State Fault Refusal :=
  word m s fun s => s.groupPred d fun c => c.active &&& c.kreg a != 0

/-- VALL (R160). -/
def execVall (m : Bool) (d : BitVec 4) (a : BitVec 5) (s : State) : Host.Outcome State Fault Refusal :=
  word m s fun s => s.groupPred d fun c => c.active &&& ~~~(c.kreg a) == 0

/-- GKAND (R161). -/
def execGkand (m : Bool) (d a b : BitVec 4) (s : State) : Host.Outcome State Fault Refusal :=
  word m s fun s => s.groupPred d fun c => c.gkreg a && c.gkreg b

/-- GKOR (R161). -/
def execGkor (m : Bool) (d a b : BitVec 4) (s : State) : Host.Outcome State Fault Refusal :=
  word m s fun s => s.groupPred d fun c => c.gkreg a || c.gkreg b

/-- GKNOT (R161). -/
def execGknot (m : Bool) (d a : BitVec 4) (s : State) : Host.Outcome State Fault Refusal :=
  word m s fun s => s.groupPred d fun c => !c.gkreg a

/-! ### Group arithmetic (R162 to R164) -/

/-- G[d] ← f of G[a] and G[b] (R162). -/
def State.group2 (s : State) (d a b : BitVec 6) (f : Dword → Dword → Dword) : State :=
  s.group d fun c => f (c.greg a) (c.greg b)

/-- GADD (R162). -/
def execGadd (m : Bool) (d a b : BitVec 6) (s : State) : Host.Outcome State Fault Refusal :=
  word m s fun s => s.group2 d a b (· + ·)

/-- GSUB (R162). -/
def execGsub (m : Bool) (d a b : BitVec 6) (s : State) : Host.Outcome State Fault Refusal :=
  word m s fun s => s.group2 d a b (· - ·)

/-- GMUL (R162). -/
def execGmul (m : Bool) (d a b : BitVec 6) (s : State) : Host.Outcome State Fault Refusal :=
  word m s fun s => s.group2 d a b (· * ·)

/-- GMULHU (R162). -/
def execGmulhu (m : Bool) (d a b : BitVec 6) (s : State) : Host.Outcome State Fault Refusal :=
  word m s fun s => s.group2 d a b fun x y => BitVec.ofNat 64 (x.toNat * y.toNat / 2 ^ 64)

/-- GAND (R162). -/
def execGand (m : Bool) (d a b : BitVec 6) (s : State) : Host.Outcome State Fault Refusal :=
  word m s fun s => s.group2 d a b (· &&& ·)

/-- GOR (R162). -/
def execGor (m : Bool) (d a b : BitVec 6) (s : State) : Host.Outcome State Fault Refusal :=
  word m s fun s => s.group2 d a b (· ||| ·)

/-- GXOR (R162). -/
def execGxor (m : Bool) (d a b : BitVec 6) (s : State) : Host.Outcome State Fault Refusal :=
  word m s fun s => s.group2 d a b (· ^^^ ·)

/-- GANDN (R162). -/
def execGandn (m : Bool) (d a b : BitVec 6) (s : State) : Host.Outcome State Fault Refusal :=
  word m s fun s => s.group2 d a b fun x y => x &&& ~~~y

/-- A shift of a dword by kind: left, right, arithmetic right, rotate left (R104, R162, R163). -/
def shift64 (kind : BitVec 2) (x : Dword) (n : Nat) : Dword :=
  match kind.toNat with
  | 0 => x <<< n
  | 1 => x >>> n
  | 2 => x.sshiftRight n
  | _ => x.rotateLeft n

/-- GSHL (R162). -/
def execGshl (m : Bool) (d a b : BitVec 6) (s : State) : Host.Outcome State Fault Refusal :=
  word m s fun s => s.group2 d a b fun x y => shift64 0 x (y.toNat % 64)

/-- GSHR (R162). -/
def execGshr (m : Bool) (d a b : BitVec 6) (s : State) : Host.Outcome State Fault Refusal :=
  word m s fun s => s.group2 d a b fun x y => shift64 1 x (y.toNat % 64)

/-- GSAR (R162). -/
def execGsar (m : Bool) (d a b : BitVec 6) (s : State) : Host.Outcome State Fault Refusal :=
  word m s fun s => s.group2 d a b fun x y => shift64 2 x (y.toNat % 64)

/-- GMIN, signed (R162). -/
def execGmin (m : Bool) (d a b : BitVec 6) (s : State) : Host.Outcome State Fault Refusal :=
  word m s fun s => s.group2 d a b fun x y => if x.slt y then x else y

/-- GMAX, signed (R162). -/
def execGmax (m : Bool) (d a b : BitVec 6) (s : State) : Host.Outcome State Fault Refusal :=
  word m s fun s => s.group2 d a b fun x y => if x.slt y then y else x

/-- GMINU (R162). -/
def execGminu (m : Bool) (d a b : BitVec 6) (s : State) : Host.Outcome State Fault Refusal :=
  word m s fun s => s.group2 d a b fun x y => if x.ult y then x else y

/-- GMAXU (R162). -/
def execGmaxu (m : Bool) (d a b : BitVec 6) (s : State) : Host.Outcome State Fault Refusal :=
  word m s fun s => s.group2 d a b fun x y => if x.ult y then y else x

/-- GPOPC (R162). -/
def execGpopc (m : Bool) (d a : BitVec 6) (s : State) : Host.Outcome State Fault Refusal :=
  word m s fun s => s.group d fun c => BitVec.ofNat 64 (popCount (c.greg a))

/-- GCLZ (R162). -/
def execGclz (m : Bool) (d a : BitVec 6) (s : State) : Host.Outcome State Fault Refusal :=
  word m s fun s => s.group d fun c => BitVec.ofNat 64 (leadingZeros (c.greg a))

/-- GMOV (R162). -/
def execGmov (m : Bool) (d a : BitVec 6) (s : State) : Host.Outcome State Fault Refusal :=
  word m s fun s => s.group d fun c => c.greg a

/-- GDIVU, deferred (R162). -/
def execGdivu (m : Bool) (d a b : BitVec 6) (s : State) : Host.Outcome State Fault Refusal :=
  word m s fun s => s.groupD d fun c => if c.greg b = 0 then BitVec.allOnes 64 else c.greg a / c.greg b

/-- GREMU, deferred (R162). -/
def execGremu (m : Bool) (d a b : BitVec 6) (s : State) : Host.Outcome State Fault Refusal :=
  word m s fun s => s.groupD d fun c => if c.greg b = 0 then c.greg a else c.greg a % c.greg b

/-- GADDI (R163). -/
def execGaddi (m : Bool) (d a : BitVec 6) (i : BitVec 13) (s : State) : Host.Outcome State Fault Refusal :=
  word m s fun s => s.group d fun c => c.greg a + sext64 i

/-- GMOVI (R163). -/
def execGmovi (m : Bool) (d : BitVec 6) (i : BitVec 19) (s : State) : Host.Outcome State Fault Refusal :=
  word m s fun s => s.group d fun _ => sext64 i

/-- GMOVHI (R163). -/
def execGmovhi (m : Bool) (d : BitVec 6) (i : BitVec 19) (s : State) : Host.Outcome State Fault Refusal :=
  word m s fun s => s.group d fun c => sext64 (i ++ 0#13) ||| (c.greg d &&& 0x1FFF#64)

/-- GORI (R163). -/
def execGori (m : Bool) (d a : BitVec 6) (i : BitVec 13) (s : State) : Host.Outcome State Fault Refusal :=
  word m s fun s => s.group d fun c => c.greg a ||| zext64 i

/-- GSHI (R163). -/
def execGshi (m : Bool) (d a : BitVec 6) (k : BitVec 2) (n : BitVec 6) (s : State) : Host.Outcome State Fault Refusal :=
  word m s fun s => s.group d fun c => shift64 k (c.greg a) n.toNat

/-- A condition of GCMP, codes 0 to 9 (R164). -/
def groupCond (cc : BitVec 4) (x y : Dword) : Bool :=
  match cc.toNat with
  | 0 => x == y
  | 1 => x != y
  | 2 => x.slt y
  | 3 => x.sle y
  | 4 => y.slt x
  | 5 => y.sle x
  | 6 => x.ult y
  | 7 => x.ule y
  | 8 => y.ult x
  | _ => y.ule x

/-- GCMP (R164). -/
def execGcmp (m : Bool) (d : BitVec 4) (a b : BitVec 6) (c : BitVec 4) (s : State) : Host.Outcome State Fault Refusal :=
  word m s fun s => s.groupPred d fun k => groupCond c (k.greg a) (k.greg b)

end Sys2Proof.Machine
end

