-- ==== Sys2Proof/Machine/System.lean ====
section
/-! DEFINITION. The system instructions and the special registers (R107 to R109, R328 to R331, R339, R344 to R351, R356,
R368). -/

namespace Sys2Proof.Machine

/-! ### Calls to a handler (R345, R346) -/

/-- SYSC: the active lanes trap, each with its call number (R345). -/
def execSysc (m : Bool) (a : BitVec 6) (s : State) : Host.Outcome State Fault Refusal :=
  word m s fun s => s.trapLanes ((lanesOf s.co.active).map fun l => (l, causeWord cSysc (s.co.vreg a.toNat l)))

/-- HVC: S mode or higher (R103, R345). -/
def execHvc (m : Bool) (a : BitVec 6) (s : State) : Host.Outcome State Fault Refusal :=
  wordS (.hvc m a) m s State.trapPlane fun s =>
    s.trapLanes ((lanesOf s.co.active).map fun l => (l, causeWord cHvc (s.co.vreg a.toNat l)))

/-- BKPT (R346). -/
def execBkpt (m : Bool) (n : BitVec 6) (s : State) : Host.Outcome State Fault Refusal :=
  word m s fun s => s.trapLanes ((lanesOf s.co.active).map fun l => (l, causeWord cBkpt (Instr.bkpt m n).word))

/-- TRET: S mode or higher; the return is made at the park (R340). -/
def execTret (m : Bool) (s : State) : Host.Outcome State Fault Refusal :=
  wordS (.tret m) m s State.trapAll fun s => s.modCo fun c => c.endRun .tret

/-- SLEEP (R347). -/
def execSleep (m : Bool) (a : BitVec 6) (s : State) : Host.Outcome State Fault Refusal :=
  word m s fun s => s.modCo fun c => c.endRun (.sleep (c.greg a))

/-- The TIME a coach sleeps until; of a restored one by the operand its image names, else by the word it waits in (R347, R353;
log 15). -/
def State.sleepOf (s : State) : State × Option Dword :=
  match s.co.issue.wait with
  | .sleep t => (s, some t)
  | .recorded 5 (some (t, _)) => (s, some t)
  | .recorded 5 none =>
    match s.waitInstr with
    | (s, some (.sleep _ a)) => (s, some (s.co.greg a))
    | (s, _) => (s, none)
  | _ => (s, none)

/-- SLEEP_WAKE: TIME has reached the value slept for (R347); the coach pauses while its quad's clock changes (R376). -/
def execSleepWake (coach : Nat) (s : State) : Host.Outcome State Fault Refusal :=
  .next (s.within coach fun s =>
    if s.co.ident.id ≠ coach ∨ s.co.issue.phase ≠ .waiting ∨ (s.quad (s.co.ident.core / 4)).changing then s
    else match s.sleepOf with
      | (s, some t) => if t.toNat ≤ s.dev.time.toNat then s.endWait else s
      | (s, none) => s)

/-! ### TLBI (R348) -/

/-- Whether TLBI of a scope drops an entry (R348). -/
def TlbEntry.dropped (t : TlbEntry) (vf : Nat) (asid : BitVec 16) (scope va : Nat) : Bool :=
  t.vf == vf && (scope == 2 || (t.asid == asid && (scope == 1 || t.page / 2 ^ t.pbits == va / 2 ^ t.pbits)))

/-- Buffered writes of a coach that were translated through the entries given reach their home; with an entry that holds no
frame of its own, all of them do, as R298 allows (R348). -/
def State.drainFrames (s : State) (gone : List TlbEntry) : State :=
  if gone.all fun t => leafKind t.leaf == 0 then gone.foldl (fun s t => s.flushOver t.frame (2 ^ t.bits)) s
  else s.co.wbuf.foldl (fun s e => s.carryEnd e) s

/-- TLBI: drop translations of every TLB; writes translated through them reach their homes first (R348). -/
def State.dropTlb (s : State) (vf : Nat) (asid : BitVec 16) (scope va : Nat) : State :=
  let gone := s.tlb.filter fun t => t.dropped vf asid scope va
  let mine := s.allCoaches.filter fun c => ((s.haul? c.ident.haul).map (·.vf)).getD 0 == vf
  let s := mine.foldl (fun s c => if c.wbuf = [] ∨ gone = [] then s else s.within c.ident.id fun s => s.drainFrames gone) s
  { s with tlb := s.tlb.filter fun t => !t.dropped vf asid scope va }

/-- TLBI (R348). -/
def execTlbi (m : Bool) (a b : BitVec 6) (s : State) : Host.Outcome State Fault Refusal :=
  let i := Instr.tlbi m a b
  wordS i m s State.trapAll fun s =>
    let k := s.co.greg b
    if 3 ≤ k.toNat then s.trapAll (causeIll subField i.word)
    else if k.toNat = 2 ∧ s.co.traps.mode ≠ .h then s.trapAll (causeWord cPriv i.word)
    else s.dropTlb s.ctx.vf s.co.special.asid k.toNat ((s.co.greg a).toNat % 2 ^ 52)

/-! ### PHINT (R351) -/

/-- Physical registers live at a PHINT: the visible ones named, and the callers' groups held (R351). -/
def Coach.liveRegs (c : Coach) (bits : Dword) : List Nat :=
  let gr := c.groups
  let vis := ((List.range 64).filter fun i => bits.getLsbD i).map c.phys
  let held := (List.range c.window.hr).flatMap fun j =>
    (List.range 8).map fun i => 8 * ((c.window.win + gr * c.window.hr - c.window.hr + j) % gr) + i
  (vis ++ held).dedup

/-- PHINT (R351). -/
def execPhint (m : Bool) (a b : BitVec 6) (s : State) : Host.Outcome State Fault Refusal :=
  word m s fun s =>
    let g := s.co.greg b
    let start := g.toNat % 2 ^ 32
    let len := g.toNat / 2 ^ 32
    if start % 4 ≠ 0 ∨ len % 4 ≠ 0 ∨ s.co.window.scrProg < start + len then s.trapAll (causeSpace cProt start)
    else if !s.co.preempt.pending ∨ s.co.ident.level ≠ 0 then s
    else s.modCo fun c =>
      let c := c.endRun .none
      { c with preempt := { c.preempt with atSave := true, full := false, vlive := c.liveRegs (c.greg a), start := start, len := len } }

/-! ### Special registers: access rights (R107, R108) -/

/-- The lowest mode that may read a group special register: 0 U, 1 S, 2 H; none for an index not listed (R107). -/
def sregRead (i : Nat) : Option Nat :=
  if i ≤ 0x10 then some 0 else if 0x20 ≤ i ∧ i ≤ 0x2C then some 1 else if 0x30 ≤ i ∧ i ≤ 0x3B then some 2 else none

/-- The lowest mode that may write a group special register; none for one that no mode may write (R107, R108). -/
def sregWrite (i : Nat) : Option Nat :=
  if [0x00, 0x06, 0x07, 0x09].contains i then some 0
  else if i = 0x03 ∨ i = 0x21 ∨ (0x23 ≤ i ∧ i ≤ 0x2C) then some 1
  else if i = 0x3A then none
  else if 0x30 ≤ i ∧ i ≤ 0x3B then some 2 else none

/-- The rank of a mode. -/
def Mode.rank (m : Mode) : Nat := m.code.toNat

/-! ### Reading (R107, R339, R356) -/

/-- VFCTL as it reads (R356). -/
def Vf.ctl (v : Vf) : Dword :=
  0#32 ++ v.dpasid ++ 0#7 ++ BitVec.ofBool v.lock ++ BitVec.ofBool v.flrb ++ 0#1 ++ BitVec.ofBool v.shr ++
    BitVec.ofBool v.en

/-- A segment word as it reads: its reserved bits are zero, whatever was stored with V = 0 (R5, R108, R329). -/
def segRead (w : Dword) : Dword := w &&& 0xFF0FFFFFFFFFFFFF#64

/-- A frame register of the newest frame, zero without one (R339). -/
def Coach.frameReg (c : Coach) (i : Nat) : Dword :=
  match c.traps.frames with
  | [] => 0
  | f :: _ =>
    match i with
    | 0x23 => zext64 f.tmask
    | 0x24 => zext64 f.saveExm
    | 0x25 => 0#29 ++ f.mode.code ++ BitVec.ofBool f.rx ++ f.saveOff
    | 0x26 => segRead f.saveSeg
    | _ => zext64 (vget f.modes (i - 0x27))

/-- A group special register (R107). -/
def State.sreg (s : State) (i : Nat) : Dword :=
  let c := s.co
  let k := s.core c.ident.core
  let v := s.vf s.dev.vfsel
  match i with
  | 0x00 => zext64 c.masks.exm
  | 0x01 => BitVec.ofNat 64 c.window.win
  | 0x02 => BitVec.ofNat 64 (c.segs.seg.plm1.toNat + 1)
  | 0x03 => zext64 c.segs.seg.base
  | 0x04 => k.cycle
  | 0x05 => s.dev.time
  | 0x06 => zext64 c.special.fflags
  | 0x07 => c.special.gang
  | 0x08 => zext64 k.token
  | 0x09 => zext64 c.special.asr
  | 0x0A => zext64 k.ric
  | 0x0B => BitVec.ofNat 64 c.ident.level
  | 0x0C => BitVec.ofNat 64 c.special.nbound
  | 0x0D => c.special.pgc
  | 0x0E => BitVec.ofNat 64 c.window.sps
  | 0x0F => BitVec.ofNat 64 c.window.rsp
  | 0x10 => c.special.mcfgr
  | 0x20 => zext64 c.traps.mode.code
  | 0x21 => segRead c.special.svec
  | 0x22 => BitVec.ofNat 64 c.traps.frames.length
  | 0x2B => zext64 (c.issue.newAsid.getD c.special.asid)
  | 0x2C => c.issue.newRoot.getD c.special.ptbase
  | 0x30 => segRead s.dev.hvec
  | 0x31 => BitVec.ofNat 64 s.dev.vfsel
  | 0x32 => v.quads
  | 0x33 => v.memp
  | 0x34 => v.queues
  | 0x35 => zext64 v.slice
  | 0x36 => v.ctl
  | 0x37 => BitVec.ofNat 64 s.dev.cmxsel
  | 0x38 => vget s.dev.cmxrow s.dev.cmxsel
  | 0x39 => ((c.issue.newS2.reverse.find? fun p => p.1 == s.dev.vfsel).map (·.2)).getD v.s2base
  | 0x3A => v.key
  | 0x3B => c.special.hcause
  | _ => c.frameReg i

/-! ### Writing (R108, R127, R260, R329, R331, R339, R356, R368) -/

/-- A segment word outside its limits whatever its V: LST above 14, BASE not a multiple of the stride, or a reserved bit
(R329). It is the test on SPECS and SAVSEG of an image, where V is ignored (R41). -/
def savedSegBad (w : Dword) : Bool :=
  decide (14 < (w.extractLsb' 56 5).toNat) || w.extractLsb' 52 4 != 0 || (w.extractLsb' 0 52).toNat % (Seg.ofWord w).stride != 0

/-- A segment word that may not be written: V set, and outside its limits (R329). -/
def segBad (w : Dword) : Bool := w.getLsbD 63 && savedSegBad w

/-- The slots a GANG value lists, in byte order (R259). -/
def gangSlots (g : Dword) : List Nat :=
  (List.range (g.extractLsb' 0 3).toNat).map fun i => (g.extractLsb' (8 + 8 * i) 5).toNat

/-- Whether a GANG value is well formed for a coach: NMEM, reserved bits, ascending slots, the issuer's own slot, every
slot a coach of its rake (R260). -/
def State.gangOk (s : State) (g : Dword) : Bool :=
  let n := (g.extractLsb' 0 3).toNat
  let slots := gangSlots g
  let c := s.co.ident
  (n == 0 || (2 ≤ n && n ≤ 6)) && g.extractLsb' 56 8 == 0 && g.extractLsb' 3 5 == 0 &&
  (List.range 6).all (fun i =>
    let b := g.extractLsb' (8 + 8 * i) 8
    if i < n then b.extractLsb' 5 3 == 0 else b == 0) &&
  (slots.zip slots.tail).all (fun p => decide (p.1 < p.2)) &&
  (n == 0 || slots.contains c.slot) &&
  slots.all fun x => s.allCoaches.any fun k =>
    k.ident.core == c.core && k.ident.slot == x && k.ident.haul == c.haul && k.ident.rake == c.rake &&
    k.ident.level == 0

/-- The mask of a gang's slots; a coach without a gang is a gang of one (R241). -/
def Coach.gangMask (c : Coach) : LaneMask :=
  if c.special.gang.extractLsb' 0 3 = 0 then laneBit c.ident.slot else maskOf (gangSlots c.special.gang)

/-- Whether the coach's gang owns its core's token (R264). -/
def State.ownsToken (s : State) : Bool :=
  let t := (s.core s.co.ident.core).token
  t != 0 && t == s.co.gangMask

/-- A member leaves the latch with a trap at its gang instruction: its run had ended there, so its offset is the one
before the coach's (R261, R263, R266). A coach that has been stopped takes none (R87). One at its save point takes none either: it is
to issue the instruction again when it is restored (R350): DEDUCED, log 20. -/
def State.trapLatched (s : State) (code : BitVec 8) (l : Latched) : State :=
  s.within l.coach fun s =>
    if s.co.ident.id ≠ l.coach ∨ s.co.issue.phase = .halted then s
    else if s.co.issue.phase = .waiting ∧ s.co.preempt.atSave then
      s.modCo fun c => { c with issue := { c.issue with
        off := c.issue.off - 1, next := c.issue.off - 1, wait := .none, phase := .ready } }
    else
      let s := s.modCo fun c => { c with issue := { c.issue with
        off := c.issue.off - 1, next := c.issue.off, wait := .none, phase := .parked } }
      (s.trapAll (causeWord code l.word)).park

/-- The gang with this GANG value on a core is broken (R263): BRK alone stands in every member's GANG, its token is
freed, and its members at the latch take GANGX. -/
def State.breakGang (s : State) (core : Nat) (g : Dword) : State :=
  let mem := s.allCoaches.filter fun c => c.ident.core == core && c.special.gang == g
  let s := mem.foldl (fun s c => s.modCoach c.ident.id fun c =>
    { c with special := { c.special with gang := 1#64 <<< 63 } }) s
  let ls := (s.core core).latch.filter fun l => l.gang == g
  let s := s.modCore core fun k => { k with
    latch := k.latch.filter fun l => l.gang != g
    token := if k.token = maskOf (gangSlots g) then 0 else k.token }
  ls.foldl (fun s l => s.trapLatched cGangx l) s

/-- Set GANG under the checks of R260. Changing it breaks a gang whose waiting member lists this coach. -/
def State.setGang (s : State) (x : Dword) : State :=
  if !s.gangOk x then s.trapAll (causeWord cGangx (x.extractLsb' 0 32))
  else if s.ownsToken then s.trapAll (causeWord cTokx (x.extractLsb' 0 32))
  else
    let c := s.co.ident
    let gs := (((s.core c.core).latch.filter fun l => (gangSlots l.gang).contains c.slot).map (·.gang)).dedup
    let s := gs.foldl (fun s g => s.breakGang c.core g) s
    s.modCo fun c => { c with special := { c.special with gang := x } }

/-- Change the newest frame. -/
def Coach.modFrame (c : Coach) (f : Frame → Frame) : Coach :=
  match c.traps.frames with
  | [] => c
  | x :: t => { c with traps := { c.traps with frames := f x :: t } }

/-- Write a frame register; without a frame the write is ignored (R339). -/
def State.setFrameReg (s : State) (i : Nat) (x : Dword) (w : Word) : State :=
  if s.co.traps.frames = [] then s
  else match i with
    | 0x23 => s.modCo fun c => c.modFrame fun f => { f with tmask := x.extractLsb' 0 32 }
    | 0x24 => s.modCo fun c => c.modFrame fun f => { f with saveExm := x.extractLsb' 0 32 }
    | 0x25 => s.modCo fun c => c.modFrame fun f => { f with rx := x.getLsbD 32, saveOff := x.extractLsb' 0 32 }
    | 0x26 =>
      if segBad x then s.trapPlane (causeIll subField w) else s.modCo fun c => c.modFrame fun f => { f with saveSeg := x }
    | _ =>
      match modeBad x with
      | some sub => s.trapPlane (causeIll sub w)
      | none => s.modCo fun c => c.modFrame fun f => { f with modes := vset f.modes (i - 0x27) (x.extractLsb' 0 32) }

/-- Mailbox commands on a VF that wait for its queues, page migrations or hauls: FORCE destroys, PGMIG and MIGOUT. -/
def State.waitingOn (s : State) (vf : Nat) : List (Nat × Nat) :=
  ((s.queues.filter fun q => q.vf == vf).flatMap (·.force)) ++
    ((s.migrations.filter fun m => m.vf == vf).map fun m => (m.block, m.slot)) ++ (s.vf vf).blackout.toList

/-- Steps 2 to 5 of R360, once step 1 is done and every haul of the VF has stopped: its queues, registrations, tasks and
translations are forgotten, its counters cleared, EN, LOCK and FLRB become 0. Commands that wait for what is gone end with
NOTFOUND: DESIGN CHOICE, log 33. Kicks held on a non-present entry are forgotten and not counted as dropped: DESIGN CHOICE, log
80. -/
def State.finishReset (s : State) (vf : Nat) : State :=
  if !(s.vf vf).flrb ∨ s.hauls.any fun h => h.vf == vf && !h.retired then s
  else
    let waiting := s.waitingOn vf
    let s := s.modVf vf fun v => { v with
      deferred := [], ready := [], tasks := [], pstable := (0, 0), psets := [], rings := [], requests := [],
      heldKicks := [], launches := 0, en := false, lock := false, flrb := false, key := 0, blackout := none, locking := none
      stub := [], held := [] }
    let s := { s.dropQueues fun q => q.vf == vf with
      tlb := s.tlb.filter fun t => t.vf != vf
      migrations := s.migrations.filter fun m => m.vf != vf
      commands := s.commands.map fun (c : Command) =>
        if waiting.contains (c.block, c.slot) ∧ c.result = none then { c with result := some (5, 0) } else c }
    s.clear (homeWin (0x1000 + 64 * vf + 8)) 56

/-- The function-level reset of a VF (R360): FLRB becomes 1, every haul of it stops under R87 without record or signal, its
saved and unstarted rakes dropped; the rest follows when the last of them has stopped. -/
def State.resetVf (s : State) (vf : Nat) : State :=
  let mine := s.hauls.filter fun h => h.vf == vf && !h.retired
  let s := mine.foldl (fun s h =>
    (s.stopHaul h.id 5 0 0).modHaul h.id fun h => { h with silent := true, saved := [], nextRake := h.hdr.rakes, waits := [] }) s
  (s.modVf vf fun v => { v with flrb := true, error := false }).finishReset vf

/-- A locked interface moves to ERROR, and its VF is reset at once (R363). -/
def State.toError (s : State) (vf : Nat) : State :=
  if (s.vf vf).lock then (s.resetVf vf).modVf vf fun v => { v with error := true } else s

/-- Whether a write of EN = 1 meets an overlap with another enabled VF, unless both share (R356, R368). -/
def State.enBad (s : State) (n : Nat) (shr : Bool) : Bool :=
  (List.range 32).any fun k =>
    k != n && (s.vf k).en && (s.vf k).quads &&& (s.vf n).quads != 0 && !(shr && (s.vf k).shr)

/-- A write of a VF or connection-matrix register (R356, R368); FLR starts the reset of the VF at once (R360). -/
def State.setDevReg (s : State) (i : Nat) (x : Dword) (w : Word) : State :=
  let bad := s.trapPlane (causeIll subField w)
  let n := s.dev.vfsel
  let v := s.vf n
  /- A change of a locked VF's register moves the interface to ERROR. -/
  let change (old : Dword) (f : State → State) : State := if old = x then f s else (f s).toError n
  match i with
  | 0x31 => if 31 < x.toNat then bad else s.modDev fun d => { d with vfsel := x.toNat }
  | 0x32 => change v.quads fun s => s.modVf n fun v => { v with quads := x }
  | 0x33 => change v.memp fun s => s.modVf n fun v => { v with memp := x }
  | 0x34 => change v.queues fun s => s.modVf n fun v => { v with queues := x }
  | 0x35 => if x.extractLsb' 16 48 ≠ 0 then bad else s.modVf n fun v => { v with slice := x.extractLsb' 0 16 }
  | 0x36 =>
    if x.extractLsb' 32 32 ≠ 0 ∨ x.extractLsb' 5 7 ≠ 0 then bad
    else if x.getLsbD 0 ∧ s.enBad n (x.getLsbD 1) then bad
    else
      let s := s.modVf n fun v => { v with dpasid := x.extractLsb' 12 20, shr := x.getLsbD 1, en := x.getLsbD 0 }
      if x.getLsbD 2 then s.resetVf n else s
  | 0x37 => if 71 < x.toNat then bad else s.modDev fun d => { d with cmxsel := x.toNat }
  | 0x38 =>
    let p := s.dev.cmxsel
    let s' := s.modDev fun d => { d with cmxrow := vset d.cmxrow p x }
    if vget s.dev.cmxrow p = x ∨ 64 ≤ p then s'
    else ((List.range 32).filter fun k => (s.vf k).quads.getLsbD p).foldl (fun s k => s.toError k) s'
  | _ =>
    if x.extractLsb' 52 12 ≠ 0 ∨ x.extractLsb' 0 12 ≠ 0 then bad
    else change v.s2base fun s => s.modCo fun c =>
      { c with issue := { c.issue with newS2 := c.issue.newS2 ++ [(n, x)] } }

/-- A write of a group special register that mode and index allow (R349). -/
def State.setSreg (s : State) (i : Nat) (x : Dword) (w : Word) : State :=
  match i with
  | 0x00 => s.modCo fun c => c.setExm (x.extractLsb' 0 32)
  | 0x03 =>
    if x.extractLsb' 52 12 ≠ 0 ∨ x.toNat % s.co.segs.seg.stride ≠ 0 then s.trapPlane (causeIll subField w)
    else s.modCo fun c => { c with segs := { c.segs with seg := { c.segs.seg with base := x.extractLsb' 0 52 } } }
  | 0x06 => s.modCo fun c => { c with special := { c.special with fflags := x.extractLsb' 0 5 } }
  | 0x07 => s.setGang x
  | 0x09 => s.modCo fun c => { c with special := { c.special with asr := x.extractLsb' 0 4 } }
  | 0x21 =>
    if segBad x then s.trapPlane (causeIll subField w)
    else s.modCo fun c => { c with special := { c.special with svec := x } }
  | 0x2B => s.modCo fun c => { c with issue := { c.issue with newAsid := some (x.extractLsb' 0 16) } }
  | 0x2C => s.modCo fun c =>
    { c with issue := { c.issue with newRoot := some (0#12 ++ x.extractLsb' 12 40 ++ 0#12) } }
  | 0x30 => if segBad x then s.trapPlane (causeIll subField w) else s.modDev fun d => { d with hvec := x }
  | 0x3B => s.modCo fun c => { c with special := { c.special with hcause := 0#46 ++ x.extractLsb' 0 18 } }
  | _ => if 0x30 ≤ i then s.setDevReg i x w else s.setFrameReg i x w

/-- SRR (R108, R349). -/
def execSrr (m : Bool) (d i : BitVec 6) (s : State) : Host.Outcome State Fault Refusal :=
  word m s fun s =>
    let w := (Instr.srr m d i).word
    match sregRead i.toNat with
    | none => s.trapPlane (causeIll subSreg w)
    | some n => if s.co.traps.mode.rank < n then s.trapPlane (causeWord cPriv w) else s.group d fun _ => s.sreg i.toNat

/-- SRW (R108, R349). -/
def execSrw (m : Bool) (i b : BitVec 6) (s : State) : Host.Outcome State Fault Refusal :=
  word m s fun s =>
    let w := (Instr.srw m i b).word
    match sregWrite i.toNat with
    | none => s.trapPlane (causeIll subSreg w)
    | some n =>
      if s.co.traps.mode.rank < n then s.trapPlane (causeWord cPriv w) else s.setSreg i.toNat (s.co.greg b) w

/-! ### Lane special registers (R109, R349) -/

/-- A lane special register (R109). -/
def Coach.laneReg (c : Coach) (i l : Nat) : Word :=
  match i with
  | 0 => vget c.traps.ltcause l
  | 1 => vget c.traps.ltval l
  | 2 => zext32 (c.planeOf l)
  | _ => BitVec.ofNat 32 l

/-- SRRL (R109, R349). -/
def execSrrl (m : Bool) (d i : BitVec 6) (s : State) : Host.Outcome State Fault Refusal :=
  word m s fun s =>
    let w := (Instr.srrl m d i).word
    if 3 < i.toNat then s.trapPlane (causeIll subSreg w)
    else if i.toNat < 2 ∧ s.co.traps.mode = .u then s.trapPlane (causeWord cPriv w)
    else s.lane d fun c l => c.laneReg i.toNat l

/-- SRWL: LTCAUSE and LTVAL alone may be written, in S mode or higher (R108, R109, R349). -/
def execSrwl (m : Bool) (i b : BitVec 6) (s : State) : Host.Outcome State Fault Refusal :=
  word m s fun s =>
    let w := (Instr.srwl m i b).word
    if 1 < i.toNat then s.trapPlane (causeIll subSreg w)
    else if s.co.traps.mode = .u then s.trapPlane (causeWord cPriv w)
    else s.modCo fun c =>
      let x := laneMerge c.active (c.vec b.toNat)
      { c with traps := if i = 0 then { c.traps with ltcause := x c.traps.ltcause }
                        else { c.traps with ltval := x c.traps.ltval } }

end Sys2Proof.Machine
end

