-- ==== Sys2Proof/Machine/Matrix.lean ====
section
/-! DEFINITION. The matrix array: configuration, accumulator banks, weights, streams, gangs and the ownership token (R238 to
R270). -/

namespace Sys2Proof.Machine

/-! ### The snapshot (R239, R245, R246) -/

def MSnap.m (s : MSnap) : Nat := (s.cfg.extractLsb' 0 8).toNat + 1
def MSnap.n (s : MSnap) : Nat := (s.cfg.extractLsb' 8 6).toNat + 1
def MSnap.aF32 (s : MSnap) : Bool := s.cfg.extractLsb' 16 2 == 1
def MSnap.wF32 (s : MSnap) : Bool := s.cfg.extractLsb' 18 2 == 1
def MSnap.aSize (s : MSnap) : Nat := if s.aF32 then 4 else 2
def MSnap.wSize (s : MSnap) : Nat := if s.wF32 then 4 else 2
def MSnap.astr (s : MSnap) : Nat := (s.cfg.extractLsb' 24 20).toNat
def MSnap.wstr (s : MSnap) : Nat := (s.cfg.extractLsb' 44 20).toNat
/-- The selected bands, ascending. -/
def MSnap.bands (s : MSnap) : List Nat := (List.range 4).filter fun b => s.asr.getLsbD b
/-- K: 32 for each selected band (R239). -/
def MSnap.k (s : MSnap) : Nat := 32 * s.bands.length

/-- MCFGR and ASR as the coach in focus holds them (R246). -/
def Coach.msnap (c : Coach) : MSnap := { cfg := c.special.mcfgr, asr := c.special.asr }

/-! ### The array's memory (R238, R247) -/

/-- Home of accumulator row number r, 256 bytes. -/
def accRow (core r : Nat) : Nat := homeAcc core (256 * r)

/-- Column values of a row of n words at a home. -/
def State.words (s : State) (a n : Nat) : List Word := (List.range n).map fun i => BitVec.ofNat 32 (s.rdNat (a + 4 * i) 4)

/-- An uncorrectable error with no lane to charge ends the haul of a core's quad with HWERR and the unit's code (R374,
R381). -/
def State.hwError (s : State) (core unit : Nat) : State :=
  match (s.quad (core / 4)).haul with
  | none => s
  | some h => s.stopHaul h 9 (BitVec.ofNat 32 unit) 0

/-- An element of a scratchpad operand as BF16: as stored, or rounded from F32 (R251, R254). -/
def State.bfElem (s : State) (f32 : Bool) (a : Nat) : Nat :=
  if f32 then (fconv 23 7 0 (s.rdNat a 4)).1 else s.rdNat a 2

/-! ### Arithmetic of a stream (R254) -/

/-- A BF16 value as a stream takes it: a subnormal is zero of its sign. -/
def bfFlush (x : Nat) : FVal :=
  match unpack 7 x with
  | .fin neg m e => if m < 2 ^ 7 then .fin neg 0 e else .fin neg m e
  | v => v

/-- Whether a product is a NaN or 0 × ∞. -/
def prodNan : FVal → FVal → Bool
  | .nan _, _ | _, .nan _ => true
  | .inf _, .fin _ 0 _ | .fin _ 0 _, .inf _ => true
  | _, _ => false

/-- The sign of an infinite product, none for a finite one. -/
def prodInf : FVal → FVal → Option Bool
  | .inf a, .inf b => some (a != b)
  | .inf a, .fin b _ _ => some (a != b)
  | .fin a _ _, .inf b => some (a != b)
  | _, _ => none

/-- A finite product in units of 2^-266. -/
def prodInt : FVal → FVal → Int
  | .fin a m e, .fin b n f => (if a != b then -1 else 1) * ((m * up2 (e + 133)) * (n * up2 (f + 133)) : Nat)
  | _, _ => 0

/-- Whether a product is −0. -/
def prodNegZero : FVal → FVal → Bool
  | .fin a m _, .fin b n _ => (m == 0 || n == 0) && a != b
  | _, _ => false

/-- The sum of a band's products, exact, rounded once to F32 under RNE (R254). -/
def bandSum (l : List (FVal × FVal)) : Nat :=
  let infs := l.filterMap fun p => prodInf p.1 p.2
  if l.any fun p => prodNan p.1 p.2 then nanBits 23
  else if infs.contains true ∧ infs.contains false then nanBits 23
  else if infs.contains true then infBits 23 true
  else if infs.contains false then infBits 23 false
  else
    let t := l.foldl (fun a p => a + prodInt p.1 p.2) 0
    (froundInt 23 0 t (-266) (l.all fun p => prodNegZero p.1 p.2)).1

/-- The weight of physical row r and column n of the active plane. -/
def State.weight (s : State) (core r n : Nat) : FVal := bfFlush (s.rdNat (homeWgt core (128 * r + 2 * n)) 2)

/-- One column's new accumulator value: the bands' sums added in ascending order (R254). -/
def State.column (s : State) (core : Nat) (p : MSnap) (act : List FVal) (n : Nat) (acc : Word) : Word :=
  let bs := p.bands
  (bs.zip (List.range bs.length)).foldl (fun acc q =>
    let w := (List.range 32).map fun t => s.weight core (32 * q.1 + t) n
    BitVec.ofNat 32 (fadd 23 0 acc.toNat (bandSum ((act.drop (32 * q.2)).take 32 |>.zip w))).1) acc

/-- Inject one row of a stream; an error in what it reads ends the haul (R253, R254, R381). With K = 0 MSTRA and MGATHER leave
the row as it is. -/
def State.streamRow (s : State) (core : Nat) (fresh : Bool) (p : MSnap) (addr row : Nat) : State :=
  let bad := p.k != 0 && (s.poisoned addr (p.k * p.aSize) || (!fresh && s.poisoned (accRow core row) (4 * p.n)))
  let s := if bad then s.hwError core 4 else s
  if !fresh ∧ p.k = 0 then s
  else
    let act := (List.range p.k).map fun i => bfFlush (s.bfElem p.aF32 (addr + i * p.aSize))
    let old := s.words (accRow core row) p.n
    let new := (List.range p.n).map fun n =>
      s.column core p act n (if fresh then 0 else (old[n]?).getD 0)
    s.wr (accRow core row) (new.flatMap wordBytes)

/-! ### Operations of the array (R241, R242, R251, R252) -/

/-- Load a K × N tile into the shadow plane of the selected bands (R251). -/
def State.loadTile (s : State) (core : Nat) (t : Bool) (addr : Nat) (p : MSnap) : State :=
  let bad := if t then p.k != 0 && (List.range p.n).any fun n => s.poisoned (addr + n * p.wstr) (p.k * p.wSize)
    else (List.range p.k).any fun k => s.poisoned (addr + k * p.wstr) (p.n * p.wSize)
  let s := if bad then s.hwError core 4 else s
  let bs := p.bands
  (List.range p.k).foldl (fun s' k =>
    let r := 32 * (bs[k / 32]?).getD 0 + k % 32
    let vals := (List.range 64).map fun n =>
      if n < p.n then s.bfElem p.wF32 (if t then addr + n * p.wstr + k * p.wSize else addr + k * p.wstr + n * p.wSize)
      else 0
    s'.wr (homeWgt core (16384 + 128 * r)) (vals.flatMap fun v => leBytes 2 v)) s

/-- Exchange two neighbouring ranges of n bytes each, from a on. -/
def Memory.exchange (m : List Host.Cell) (a n : Nat) : List Host.Cell :=
  m.filter (fun c => c.1 < a) ++
  (m.filter fun c => a + n ≤ c.1 && c.1 < a + 2 * n).map (fun c => (c.1 - n, c.2)) ++
  (m.filter fun c => a ≤ c.1 && c.1 < a + n).map (fun c => (c.1 + n, c.2)) ++
  m.filter fun c => a + 2 * n ≤ c.1

/-- Exchange the active and the shadow plane (R252). -/
def State.swapPlanes (s : State) (core : Nat) : State := { s with mem := Memory.exchange s.mem (homeWgt core 0) 16384 }

/-- F32 with a NaN canonical (R256). -/
def canon32 (x : Word) : Word := BitVec.ofNat 32 (fconv 23 23 0 x.toNat).1

/-- What MRDA delivers of a row for one lane: low and high register values and flags (R256). -/
def rowLane (type : BitVec 4) (rm : BitVec 2) (row : List Word) (l : Nat) : Word × Word × BitVec 5 :=
  let a := (row[l]?).getD 0
  let b := (row[32 + l]?).getD 0
  if type = 6 then (canon32 a, canon32 b, 0)
  else
    let (x, f) := fconv 23 7 rm a.toNat
    let (y, g) := fconv 23 7 rm b.toNat
    if type = 7 then (BitVec.ofNat 32 x, BitVec.ofNat 32 y, f ||| g)
    else
      let w := BitVec.ofNat 32 (x + 65536 * y)
      (w, w, f ||| g)

/-- Give a coach's deferred row its values; the lanes of bad, which met an error, keep their destinations (R242, R256,
R381). -/
def Deferred.giveRow (id : Nat) (row : List Word) (bad : LaneMask) : Deferred → Deferred
  | .row k lo hi m t rm none =>
    if k = id then
      let v := rowLane t rm row
      let m := m &&& ~~~bad
      .row k lo hi m t rm (some (laneVec fun l => (v l).1, laneVec fun l => (v l).2.1,
        (lanesOf m).foldl (fun a l => a ||| (v l).2.2) 0))
    else .row k lo hi m t rm none
  | d => d

/-- First pool byte of a core's accumulator banks (R15). -/
def Core.accBase (k : Core) : Nat := ((k.part.extractLsb' 0 5).toNat + (k.part.extractLsb' 5 5).toNat) * 262144

/-- The lanes whose columns of a row hold an uncorrectable error, each with its cause: LTVAL the pool byte address, as for a
register (R111, R381): DEDUCED, log 39. -/
def State.badColumns (s : State) (core row : Nat) : List (Nat × Cause) :=
  let at_ (n : Nat) : Option Nat := if s.poisoned (accRow core row + 4 * n) 4 then some n else none
  (List.range 32).filterMap fun l => ((at_ l).or (at_ (32 + l))).map fun n =>
    (l, causeSpace cEcc ((s.core core).accBase + 256 * row + 4 * n))

/-- The lanes of a deferred row that met an error report it at the park (R117). -/
def Coach.rowErrors (c : Coach) (id : Nat) (bad : List (Nat × Cause)) : Coach :=
  c.issue.deferred.foldl (fun c d => match d with
    | .row k _ _ m _ _ none =>
      if k = id then bad.foldl (fun c p => if m.getLsbD p.1 then c.errLanes (laneBit p.1) p.2 else c) c else c
    | _ => c) c

/-- Perform an operation; a stream injects its next row and stays while rows are left. -/
def State.runArray (s : State) (core : Nat) (op : ArrayOp) : State × Option ArrayOp :=
  match op with
  | .load _ t a p => (s.loadTile core t a p, none)
  | .swap _ => (s.swapPlanes core, none)
  | .stream m f rows p =>
    match rows with
    | [] => (s, none)
    | (a, r) :: rest =>
      (s.streamRow core f p a r, if rest = [] then none else some (.stream m f rest p))
  | .read coach id row =>
    let bad := s.badColumns core row
    let ws := s.words (accRow core row) 64
    (s.modCoach coach fun c =>
      let c := c.rowErrors id bad
      { c with issue := { c.issue with
        deferred := c.issue.deferred.map (Deferred.giveRow id ws (maskOf (bad.map (·.1)))) } }, none)
  | .write _ row v => (s.wr (accRow core row) (v.flatMap wordBytes), none)
  | .zero _ row n => (s.clear (accRow core row) (256 * n), none)

/-- The bands an operation selects (R239). -/
def ArrayOp.selects : ArrayOp → BitVec 4
  | .load _ _ _ p | .stream _ _ _ p => p.asr
  | _ => 0

/-- The accumulator banks an operation names (R249). -/
def ArrayOp.names : ArrayOp → Nat → Bool
  | .stream _ _ rows _, b => rows.any fun p => p.2 / 64 == b
  | .read _ _ r, b | .write _ r _, b => r / 64 == b
  | .zero _ r n, b => decide (n ≠ 0 ∧ r / 64 ≤ b ∧ b ≤ (r + n - 1) / 64)
  | _, _ => false

/-- A row operation of a coach takes its place in the core's order; at once when nothing is ahead of it (R242). -/
def State.rowOp (s : State) (core : Nat) (op : ArrayOp) : State :=
  if (s.core core).queue = [] then (s.runArray core op).1
  else s.modCore core fun k => { k with queue := k.queue ++ [op] }

/-- The bands an operation selects are in use now (R378). -/
def Core.used (k : Core) (op : ArrayOp) (now : Dword) : Core :=
  { k with bandUsed := Vector.ofFn fun b => if op.selects.getLsbD b.val then now else vget k.bandUsed b.val }

/-- ARRAY_OPERATION_COMPLETE: the head of the queue is performed, a stream row by row, unless it selects a band that is
gated or the quad's clock changes (R241, R258, R376, R378). -/
def execArrayOperationComplete (core : Nat) (s : State) : Host.Outcome State Fault Refusal :=
  .next (match (s.core core).queue with
    | [] => s
    | op :: rest =>
      if op.selects &&& (s.core core).gated ≠ 0 ∨ (s.quad (core / 4)).changing then s
      else
        let r := s.runArray core op
        r.1.modCore core fun k => { k.used op s.dev.time with queue := match r.2 with
          | none => rest
          | some op => op :: rest })

/-- Whether the array still has operations of a coach to perform, queued or waiting for the token (R124, R258). -/
def State.arrayBusy (s : State) (core coach : Nat) : Bool :=
  (s.core core).queue.any (fun op => op.owners.contains coach) ||
  (s.core core).joint.any fun j => j.any fun l => l.coach == coach

/-! ### Coach operations (R243, R245 to R250, R256, R258) -/

/-- Whether a matrix instruction meets a partial mask or split planes (R243). -/
def Coach.partial_ (c : Coach) : Bool := c.masks.exm != c.masks.live || decide (1 < c.occ.length)

/-- A matrix word: MPART first, otherwise f (R243, R270). -/
def matx (i : Instr) (m : Bool) (s : State) (f : State → Word → State) : Host.Outcome State Fault Refusal :=
  word m s fun s => if s.co.partial_ then s.trapAll (causeWord cMpart i.word) else f s i.word

/-- Whether an MCFGR value may not be set (R245). -/
def mcfgBad (x : Dword) : Bool :=
  x.extractLsb' 20 4 != 0 || x.extractLsb' 14 2 != 0 || x.getLsbD 19 || x.getLsbD 17 || x.extractLsb' 24 2 != 0 ||
    x.extractLsb' 44 2 != 0

/-- MCFG (R245). -/
def execMcfg (m : Bool) (a : BitVec 6) (s : State) : Host.Outcome State Fault Refusal :=
  matx (.mcfg m a) m s fun s w =>
    let x := s.co.greg a
    if mcfgBad x then s.trapAll (causeIll subField w)
    else s.modCo fun c => { c with special := { c.special with mcfgr := x } }

/-- The banks of the core the coach in focus is on (R247). -/
def State.banksHere (s : State) : Nat := ((s.core s.co.ident.core).part.extractLsb' 10 5).toNat * 16

/-- MALLOC: the request joins the core's order and the coach waits (R248). -/
def execMalloc (m : Bool) (d a : BitVec 6) (s : State) : Host.Outcome State Fault Refusal :=
  matx (.malloc m d a) m s fun s _ =>
    let n := (s.co.greg a).toNat
    if n = 0 ∨ s.banksHere < n then s.trapAll (causeSpace cProt n)
    else
      (s.modCore s.co.ident.core fun k => { k with mallocs := k.mallocs ++ [(s.co.ident.id, n, d)] }).modCo fun c =>
        c.endRun (.malloc n d)

/-- The lowest run of n banks that are neither held nor about to be released (R248, R249). -/
def Core.freeRun (k : Core) (n : Nat) : Option Nat :=
  let total := (k.part.extractLsb' 10 5).toNat * 16
  (List.range (total + 1 - n)).find? fun b => (List.range n).all fun i =>
    !(k.banks.any fun p => p.1 == b + i) && !k.freeing.contains (b + i)

/-- MALLOC_GRANT: the oldest request takes the lowest run of free banks that is long enough, zeroed; none passes it
(R248); the core pauses while its quad's clock changes (R376). -/
def execMallocGrant (core : Nat) (s : State) : Host.Outcome State Fault Refusal :=
  .next (if (s.quad (core / 4)).changing then s else match (s.core core).mallocs with
    | [] => s
    | (coach, n, d) :: rest =>
      match (s.core core).freeRun n, (s.coach? coach).map (·.issue.phase) with
      | some b, some Phase.waiting =>
        let s := s.modCore core fun k => { k with
          mallocs := rest, banks := k.banks ++ (List.range n).map fun i => (b + i, coach) }
        let s := s.clear (homeAcc core (16384 * b)) (16384 * n)
        (s.modCoach coach fun c => c.setG d (BitVec.ofNat 64 b)).releaseWait coach
      | _, _ => s)

/-- Whether the coach in focus holds a bank (R247). -/
def State.holds (s : State) (b : Nat) : Bool :=
  (s.core s.co.ident.core).banks.any fun p => p.1 == b && p.2 == s.co.ident.id

/-- The first of count row numbers from r on that the coach may not use (R247): among one row more than all banks held
together have, there is one. -/
def State.badRow (s : State) (r count : Nat) : Option Nat :=
  (List.range (min count (64 * (s.core s.co.ident.core).banks.length + 1))).findSome? fun i =>
    if s.holds ((r + i) / 64) then none else some (r + i)

/-- MFREE (R249). -/
def execMfree (m : Bool) (a b : BitVec 6) (s : State) : Host.Outcome State Fault Refusal :=
  matx (.mfree m a b) m s fun s _ =>
    let lo := (s.co.greg a).toNat
    let n := (s.co.greg b).toNat
    let tried := List.range (min n ((s.core s.co.ident.core).banks.length + 1))
    match tried.findSome? fun i => if s.holds (lo + i) then none else some (lo + i) with
    | some x => s.trapAll (causeSpace cProt x)
    | none => s.modCore s.co.ident.core fun k => { k with
        banks := k.banks.filter fun p => !(lo ≤ p.1 && p.1 < lo + n)
        freeing := k.freeing ++ (List.range n).map (lo + ·) }

/-- BANK_RELEASE: a freed bank is free once no earlier operation names it (R249), not while the quad's clock changes (R376). -/
def execBankRelease (core bank : Nat) (s : State) : Host.Outcome State Fault Refusal :=
  .next (if !(s.quad (core / 4)).changing ∧ (s.core core).freeing.contains bank ∧ !(s.core core).queue.any fun op => op.names bank then
      s.modCore core fun k => { k with freeing := k.freeing.filter fun b => b != bank }
    else s)

/-- MZERO (R250). -/
def execMzero (m : Bool) (a b : BitVec 6) (s : State) : Host.Outcome State Fault Refusal :=
  matx (.mzero m a b) m s fun s _ =>
    let r := (s.co.greg a).toNat
    let n := (s.co.greg b).toNat
    match s.badRow r n with
    | some x => s.trapAll (causeSpace cProt x)
    | none => if n = 0 then s else s.rowOp s.co.ident.core (.zero s.co.ident.id r n)

/-- Whether MRDA and MWRA take the plane's type (R256). -/
def rowType (t : BitVec 4) : Bool := t == 6 || t == 7 || t == 8

/-- MRDA, deferred (R242, R256). -/
def execMrda (m : Bool) (d a : BitVec 6) (s : State) : Host.Outcome State Fault Refusal :=
  matx (.mrda m d a) m s fun s w =>
    let r := (s.co.greg a).toNat
    if !rowType s.co.type then s.trapAll (causeIll subType w)
    else match s.badRow r 1 with
      | some x => s.trapAll (causeSpace cProt x)
      | none =>
        let id := s.nextId
        let c := s.co
        let lo := c.phys d.toNat
        let hi := if c.type = 8 then lo else c.phys (d.toNat + 1)
        let s := (s.newId).modCo fun c => c.defer (.row id lo hi c.masks.live c.type c.rm none)
        s.rowOp c.ident.core (.read c.ident.id id r)

/-- A half widened to F32, a NaN canonical (R256). -/
def widen (x : Nat) : Word := BitVec.ofNat 32 (fconv 7 23 0 (x % 65536)).1

/-- Column c of the row MWRA writes; +0 for a lane outside LIVE (R256). -/
def Coach.mwraColumn (k : Coach) (d : BitVec 6) (c : Nat) : Word :=
  let l := c % 32
  let lo := k.vreg d.toNat l
  let hi := k.vreg (d.toNat + 1) l
  if !k.masks.live.getLsbD l then 0
  else if k.type = 6 then canon32 (if c < 32 then lo else hi)
  else if k.type = 7 then widen (if c < 32 then lo else hi).toNat
  else widen (if c < 32 then lo.toNat else lo.toNat / 65536)

/-- MWRA; a register that holds an error traps the word, which writes nothing then (R242, R256, R381). -/
def execMwra (m : Bool) (d a : BitVec 6) (s : State) : Host.Outcome State Fault Refusal :=
  matx (.mwra m d a) m s fun s w =>
    let r := (s.co.greg a).toNat
    if !rowType s.co.type then s.trapAll (causeIll subType w)
    else match s.badRow r 1 with
      | some x => s.trapAll (causeSpace cProt x)
      | none =>
        if s.co.issue.bad ≠ [] then s
        else s.rowOp s.co.ident.core (.write s.co.ident.id r ((List.range 64).map (s.co.mwraColumn d)))

/-- MWAIT holds the coach's next word until every queue operation it issued or joined has completed: until then the word
stands where it is (R258). -/
def execMwait (m : Bool) (s : State) : Host.Outcome State Fault Refusal :=
  if !s.co.partial_ ∧ (s.core s.co.ident.core).queue.any fun op => op.isQueue && op.owners.contains s.co.ident.id then
    .next s
  else matx (.mwait m) m s fun s _ => s

/-- GANG (R260). -/
def execGang (m : Bool) (a : BitVec 6) (s : State) : Host.Outcome State Fault Refusal :=
  matx (.gang m a) m s fun s _ => s.setGang (s.co.greg a)

/-! ### Gang instructions (R241, R251 to R253, R261 to R266) -/

/-- The members of the coach in focus's gang: their ids by slot; itself alone without a gang (R241, R259). -/
def State.gangMembers (s : State) : List (Option Nat) :=
  let c := s.co
  if c.special.gang.extractLsb' 0 3 = 0 then [some c.ident.id]
  else (gangSlots c.special.gang).map fun x =>
    (s.allCoaches.find? fun k => k.ident.core == c.ident.core && k.ident.slot == x).map (·.ident.id)

/-- Whether every member listed holds the same GANG value (R261). -/
def State.gangAgrees (s : State) : Bool :=
  s.gangMembers.all fun i => match i.bind s.coach? with
    | some k => k.special.gang == s.co.special.gang
    | none => false

/-- The slot mask of the gang that issued a latched instruction. -/
def Latched.mask (l : Latched) : LaneMask := if l.gang.extractLsb' 0 3 = 0 then laneBit l.slot else maskOf (gangSlots l.gang)

/-- The operations that a joint operation puts into the queue, members in ascending slot order (R262). -/
def jointOps (ls : List Latched) : List ArrayOp :=
  let ids := ls.map (·.coach)
  match ls with
  | [] => []
  | l :: _ =>
    match l.op with
    | 3 => [.load ids false l.a l.snap]
    | 4 => [.load ids true l.a l.snap]
    | 5 => [.swap ids]
    | _ => ls.map fun x => .stream ids (x.op == 6) x.rows
        { x.snap with asr := l.snap.asr, cfg := (x.snap.cfg &&& ~~~(0x3F00#64)) ||| (l.snap.cfg &&& 0x3F00#64) }

/-- End the waits of the members. -/
def State.releaseAll (s : State) (ls : List Latched) : State := ls.foldl (fun s l => s.releaseWait l.coach) s

/-- A joint operation proceeds: it joins the queue, and its members go on (R241, R262, R265). -/
def State.proceed (s : State) (core : Nat) (ls : List Latched) : State :=
  (s.modCore core fun k => { k with queue := k.queue ++ jointOps ls }).releaseAll ls

/-- A resident coach in a slot of a core, a shading coach included. -/
def State.atSlot (s : State) (core slot : Nat) : Option Coach :=
  s.allCoaches.find? fun k => k.ident.core == core && k.ident.slot == slot

/-- Whether MTOK's operand names no token pass (R266). -/
def State.tokBad (s : State) (core x : Nat) : Bool :=
  decide (64 ≤ x) || (decide (32 ≤ x) && x != 63) || (decide (x < 32) && (s.atSlot core x).isNone)

/-- MTOK's rendezvous is complete: the token passes, or every member takes TOKX (R266). -/
def State.passToken (s : State) (core : Nat) (ls : List Latched) (mask : LaneMask) (x : Nat) : State :=
  let k := s.core core
  let owns := k.token == mask || (k.token == 0 && k.joint.isEmpty)
  if s.tokBad core x || !owns then ls.foldl (fun s l => s.trapLatched cTokx l) s
  else
    let new : LaneMask :=
      if x = 63 then 0
      else if mask.getLsbD x then mask
      else match s.atSlot core x with
        | some c => c.gangMask
        | none => mask
    (s.modCore core fun k => { k with token := new }).releaseAll ls

/-- A rendezvous has completed with these members, in ascending slot order (R262, R265, R266). -/
def State.rendezvous (s : State) (core : Nat) (ls : List Latched) : State :=
  match ls with
  | [] => s
  | l :: _ =>
    let k := s.core core
    if l.op = 13 then s.passToken core ls l.mask l.a
    else if k.token = l.mask ∨ (k.token = 0 ∧ k.joint = []) then
      (s.modCore core fun k => { k with token := l.mask }).proceed core ls
    else
      let s := s.modCore core fun k => { k with joint := k.joint ++ [ls] }
      ls.foldl (fun s x => s.modCoach x.coach fun c => { c with issue := { c.issue with wait := .token } }) s

/-- The coach in focus issues a gang instruction that has passed its own checks (R261, R263). A gang of one completes its
rendezvous at once, and its run goes on unless it waits for the token. A GANGX for members that disagree breaks the gang
(R263). -/
def State.gangIssue (s : State) (l : Latched) : State :=
  let c := s.co
  let core := c.ident.core
  if c.special.gang.getLsbD 63 then
    (s.trapAll (causeWord cGangx l.word)).modCo fun c => { c with special := { c.special with gang := 0 } }
  else if c.special.gang.extractLsb' 0 3 = 0 then
    let k := s.core core
    if l.op = 13 then
      let owns := k.token == l.mask || (k.token == 0 && k.joint.isEmpty)
      if s.tokBad core l.a || !owns then s.trapAll (causeWord cTokx l.word)
      else s.passToken core [] l.mask l.a
    else if k.token = l.mask ∨ (k.token = 0 ∧ k.joint = []) then
      s.modCore core fun k => { k with token := l.mask, queue := k.queue ++ jointOps [l] }
    else (s.modCore core fun k => { k with joint := k.joint ++ [[l]] }).modCo fun c => c.endRun .token
  else if !s.gangAgrees then (s.breakGang core c.special.gang).trapAll (causeWord cGangx l.word)
  else (s.modCore core fun k => { k with latch := k.latch ++ [l] }).modCo fun c => c.endRun .latch

/-- What the coach in focus latches for a gang instruction. -/
def State.latched (s : State) (op a : Nat) (rows : List (Nat × Nat)) (w : Word) : Latched where
  coach := s.co.ident.id
  slot := s.co.ident.slot
  op := op
  a := a
  rows := rows
  snap := s.co.msnap
  gang := s.co.special.gang
  word := w

/-- Whether n bytes at a scratchpad address leave the coach's allocation. -/
def Coach.outside (c : Coach) (a n : Nat) : Bool := n != 0 && decide (c.window.scrSize < a + n)

/-- MLDW and MLDWT: the operand checks, then the gang (R251). -/
def State.loadIssue (s : State) (t : Bool) (a : BitVec 6) (w : Word) : State :=
  let c := s.co
  let x := (c.greg a).toNat
  let p := c.msnap
  let extent := if p.k = 0 then 0 else if t then (p.n - 1) * p.wstr + p.k * p.wSize else (p.k - 1) * p.wstr + p.n * p.wSize
  if x % 4 ≠ 0 then s.trapAll (causeSpace cMisal x)
  else if c.outside x extent then s.trapAll (causeSpace cProt x)
  else s.gangIssue (s.latched (if t then 4 else 3) (homeScr c.ident.core (c.window.scrBase + x)) [] w)

/-- MLDW (R251). -/
def execMldw (m : Bool) (a : BitVec 6) (s : State) : Host.Outcome State Fault Refusal :=
  matx (.mldw m a) m s fun s w => s.loadIssue false a w

/-- MLDWT (R251). -/
def execMldwt (m : Bool) (a : BitVec 6) (s : State) : Host.Outcome State Fault Refusal :=
  matx (.mldwt m a) m s fun s w => s.loadIssue true a w

/-- MSWAP (R252). -/
def execMswap (m : Bool) (s : State) : Host.Outcome State Fault Refusal :=
  matx (.mswap m) m s fun s w => s.gangIssue (s.latched 5 0 [] w)

/-- MTOK (R266). -/
def execMtok (m : Bool) (a : BitVec 6) (s : State) : Host.Outcome State Fault Refusal :=
  matx (.mtok m a) m s fun s w => s.gangIssue (s.latched 13 (s.co.greg a).toNat [] w)

/-- A stream of the rows given by scratchpad address and accumulator row: the remaining checks of R253, then the gang. -/
def State.streamIssue (s : State) (op : Nat) (rows : List (Nat × Nat)) (w : Word) : State :=
  let c := s.co
  let p := c.msnap
  match rows.find? fun r => c.outside r.1 (p.k * p.aSize) with
  | some r => s.trapAll (causeSpace cProt r.1)
  | none =>
    match rows.find? fun r => !s.holds (r.2 / 64) with
    | some r => s.trapAll (causeSpace cProt r.2)
    | none => s.gangIssue (s.latched op 0
        (rows.map fun r => (homeScr c.ident.core (c.window.scrBase + r.1), r.2)) w)

/-- MSTREAM and MSTRA (R253). -/
def State.plainStream (s : State) (op : Nat) (a b : BitVec 6) (w : Word) : State :=
  let c := s.co
  let x := (c.greg a).toNat
  let p := c.msnap
  if x % 4 ≠ 0 then s.trapAll (causeSpace cMisal x)
  else s.streamIssue op ((List.range p.m).map fun r => (x + r * p.astr, (c.greg b).toNat + r)) w

/-- MSTREAM (R253). -/
def execMstream (m : Bool) (a b : BitVec 6) (s : State) : Host.Outcome State Fault Refusal :=
  matx (.mstream m a b) m s fun s w => s.plainStream 6 a b w

/-- MSTRA (R253). -/
def execMstra (m : Bool) (a b : BitVec 6) (s : State) : Host.Outcome State Fault Refusal :=
  matx (.mstra m a b) m s fun s w => s.plainStream 7 a b w

/-- MGATHER: both lists are read from the core home at issue; one that holds an error traps the word (R253, R257, R381). -/
def State.gatherIssue (s : State) (d a b : BitVec 6) (w : Word) : State :=
  let c := s.co
  let x := (c.greg a).toNat
  let y := (c.greg b).toNat
  let z := (c.greg d).toNat
  let p := c.msnap
  let at_ (l : Nat) : Nat := homeScr c.ident.core (c.window.scrBase + l)
  let half (l i : Nat) : Nat := s.rdNat (at_ l + 2 * i) 2
  if x % 4 ≠ 0 then s.trapAll (causeSpace cMisal x)
  else if y % 2 ≠ 0 then s.trapAll (causeSpace cMisal y)
  else if z % 2 ≠ 0 then s.trapAll (causeSpace cMisal z)
  else if c.outside y (2 * p.m) then s.trapAll (causeSpace cProt y)
  else if c.outside z (2 * p.m) then s.trapAll (causeSpace cProt z)
  else if s.poisoned (at_ y) (2 * p.m) then s.trapAll (causeSpace cEcc y)
  else if s.poisoned (at_ z) (2 * p.m) then s.trapAll (causeSpace cEcc z)
  else s.streamIssue 8 ((List.range p.m).map fun i => (x + half y i * p.astr, half z i)) w

/-- MGATHER (R253). -/
def execMgather (m : Bool) (d a b : BitVec 6) (s : State) : Host.Outcome State Fault Refusal :=
  matx (.mgather m d a b) m s fun s w => s.gatherIssue d a b w

/-- Whether two latched members differ in the minor or in what R261 compares of their snapshots. -/
def Latched.differs (x y : Latched) : Bool :=
  x.op != y.op || x.snap.asr != y.snap.asr || x.snap.n != y.snap.n || x.snap.wF32 != y.snap.wF32 ||
    x.snap.wstr != y.snap.wstr

/-- Put a member among others in ascending slot order. -/
def insertSlot (x : Latched) : List Latched → List Latched
  | [] => [x]
  | y :: t => if x.slot ≤ y.slot then x :: y :: t else y :: insertSlot x t

/-- Put latched members in ascending slot order. -/
def sortSlots (ls : List Latched) : List Latched := ls.foldr insertSlot []

/-- The latched members of one gang, in ascending slot order. -/
def Core.atLatch (k : Core) (g : Dword) : List Latched := sortSlots (k.latch.filter fun l => l.gang == g)

/-- GANG_RENDEZVOUS: the first gang at the latch whose members disagree fails, or one that is there whole becomes a
joint operation (R261, R262); the core pauses while its quad's clock changes (R376). -/
def execGangRendezvous (core : Nat) (s : State) : Host.Outcome State Fault Refusal :=
  let k := s.core core
  let gs := (k.latch.map (·.gang)).dedup
  let bad (g : Dword) : Bool := (k.atLatch g).any fun x => (k.atLatch g).any fun y => x.differs y
  let full (g : Dword) : Bool := (k.atLatch g).length == (gangSlots g).length
  .next (if (s.quad (core / 4)).changing then s else match gs.find? fun g => bad g || full g with
    | none => s
    | some g =>
      if bad g then s.breakGang core g
      else (s.modCore core fun k => { k with latch := k.latch.filter fun l => l.gang != g }).rendezvous core (k.atLatch g))

/-- TOKEN_GRANT: a freed token goes to the gang whose rendezvous completed first; one that MTOK passed lets the gang it
names go on (R265, R266); the core pauses while its quad's clock changes (R376). -/
def execTokenGrant (core : Nat) (s : State) : Host.Outcome State Fault Refusal :=
  let k := s.core core
  let ready (ls : List Latched) : Bool := match ls with
    | [] => false
    | l :: _ => k.token == 0 || k.token == l.mask
  .next (if (s.quad (core / 4)).changing then s else match k.joint.find? ready with
    | none => s
    | some ls =>
      let mask := (ls.head?.map Latched.mask).getD 0
      (s.modCore core fun k => { k with token := mask, joint := k.joint.erase ls }).proceed core ls)

/-- What EXIT does to the coach's gang, token and banks (R263, R267, R269). -/
def State.leaveArray (s : State) : State :=
  let c := s.co
  let core := c.ident.core
  let s := if c.special.gang.extractLsb' 0 3 ≠ 0 then s.breakGang core c.special.gang else s
  s.modCore core fun k => { k with
    token := if c.special.gang.extractLsb' 0 3 = 0 ∧ k.token = laneBit c.ident.slot then 0 else k.token
    banks := k.banks.filter fun p => p.2 != c.ident.id
    mallocs := k.mallocs.filter fun p => p.1 != c.ident.id }

end Sys2Proof.Machine
end

