-- ==== Sys2Proof/Machine/Sync.lean ====
section
/-! DEFINITION. The synchronisation instructions, the free moves of the write buffer and the snapshot, and barriers (R297 to
R299, R310 to R318). -/

namespace Sys2Proof.Machine

/-! ### PHASE to EVWAIT (R311 to R314) -/

/-- PHASE (R299, R311). -/
def execPhase (m : Bool) (x : BitVec 3) (s : State) : Host.Outcome State Fault Refusal :=
  word m s fun s => (s.publish x.toNat).refresh x.toNat

/-- PUBL (R299, R311). -/
def execPubl (m : Bool) (x : BitVec 3) (s : State) : Host.Outcome State Fault Refusal :=
  word m s fun s => s.publish x.toNat

/-- REFR (R299, R311). -/
def execRefr (m : Bool) (x : BitVec 3) (s : State) : Host.Outcome State Fault Refusal :=
  word m s fun s => s.refresh x.toNat

/-- IFENCE (R312). -/
def execIfence (m : Bool) (s : State) : Host.Outcome State Fault Refusal :=
  word m s fun s => s.modCo fun c => c.endRun .ifence

/-- HFLUSH's effect (R313). -/
def State.hflush (s : State) : State := (s.publish 4).flushHost s.owner

/-- HFLUSH (R313). -/
def execHflush (m : Bool) (s : State) : Host.Outcome State Fault Refusal := word m s State.hflush

/-- HINV (R313). -/
def execHinv (m : Bool) (s : State) : Host.Outcome State Fault Refusal :=
  word m s fun s => (s.hflush.dropHost s.owner).refresh 4

/-- EVWAIT (R314). -/
def execEvwait (m : Bool) (a : BitVec 6) (s : State) : Host.Outcome State Fault Refusal :=
  word m s fun s => s.modCo fun c => c.endRun (.evwait (c.greg a))

/-- The value a coach in EVWAIT waits for; of a restored one by the operand its image names, else by the word it waits in (R314, R353;
log 15). -/
def State.evwaitOf (s : State) : State × Option Dword :=
  match s.co.issue.wait with
  | .evwait v => (s, some v)
  | .recorded 3 (some (v, _)) => (s, some v)
  | .recorded 3 none =>
    match s.waitInstr with
    | (s, some (.evwait _ a)) => (s, some (s.co.greg a))
    | (s, _) => (s, none)
  | _ => (s, none)

/-- EVWAIT_RELEASE: PGC has reached the value (R314); the coach pauses while its quad's clock changes (R376). -/
def execEvwaitRelease (coach : Nat) (s : State) : Host.Outcome State Fault Refusal :=
  .next (s.within coach fun s =>
    if s.co.ident.id ≠ coach ∨ s.co.issue.phase ≠ .waiting ∨ (s.quad (s.co.ident.core / 4)).changing then s
    else match s.evwaitOf with
      | (s, some v) => if v.toNat ≤ s.co.special.pgc.toNat then s.endWait else s
      | (s, none) => s)

/-! ### Moves of the abstract machine (R297, R298) -/

/-- The older entries of a buffer before the one with this id. -/
def olderThan (id : Nat) (buf : List WEntry) : List WEntry := buf.takeWhile fun e => e.id != id

/-- WRITE_BUFFER_ADVANCE: an entry moves one point along its path, unless an older entry that overlaps it would be left
behind (R296, R298). -/
def execWriteBufferAdvance (coach entry : Nat) (s : State) : Host.Outcome State Fault Refusal :=
  .next (s.within coach fun s =>
    if s.co.ident.id ≠ coach then s
    else match s.co.wbuf.find? fun e => e.id == entry with
      | none => s
      | some e =>
        let older := (olderThan entry s.co.wbuf).filter fun x => overlaps e.addr e.bytes.length x.addr x.bytes.length
        if isGlobal e.addr && !e.atCore then (if older.all WEntry.atCore then s.carryCore e else s)
        else if older = [] then s.carryEnd e else s)

/-- SNAPSHOT_FILL: a granule is filled, for a pending load or for one still to be issued before the next refresh (R297). A
poisoned one stays for the park (R117). -/
def execSnapshotFill (coach addr : Nat) (s : State) : Host.Outcome State Fault Refusal :=
  .next (s.within coach fun s =>
    let g := granule addr
    if s.co.ident.id = coach ∧ s.co.present ∧ !s.poisoned g 4 then s.fillPending g else s)

/-! ### Barriers (R315 to R318) -/

/-- The bit of a scope. -/
def scopeBit (x : BitVec 3) : BitVec 8 := 1#8 <<< x.toNat

/-- Whether a coach counts as arrived at the current generation of a scope: its arrival is pending, and the generation it
belongs to has not completed (R317, R318). -/
def Coach.arrived (c : Coach) (x : BitVec 3) : Bool := c.pendb.getLsbD x.toNat && !c.pdone.getLsbD x.toNat

/-- The die of a rake's first placement; of one that came with an image the die it had (R316; log 46). -/
def Haul.dieOf (h : Haul) (rake : Nat) : Option Nat := (h.dies.find? fun p => p.1 == rake).map (·.2)

/-- Whether a coach of the same haul takes part in the barrier of a coach at a scope (R316). -/
def Haul.takesPart (h : Haul) (x : BitVec 3) (c k : Coach) : Bool :=
  k.ident.haul == c.ident.haul && k.ident.level == 0 &&
  match x.toNat with
  | 1 => k.ident.rake == c.ident.rake && k.ident.rel == c.ident.rel
  | 2 => k.ident.rake == c.ident.rake
  | 3 => (h.dieOf k.ident.rake).isSome && h.dieOf k.ident.rake == h.dieOf c.ident.rake
  | _ => true

/-- The coaches of a haul that are saved out. -/
def Haul.savedCoaches (h : Haul) : List Coach := h.saved.flatMap fun r => r.coaches

/-- Whether every participant that has not retired has arrived; rakes not started yet take part at pkg and pod scope
(R316, R317). -/
def State.barrierFull (s : State) (h : Haul) (x : BitVec 3) (c : Coach) : Bool :=
  (s.allCoaches.all fun k => !h.takesPart x c k || k.arrived x) &&
  (h.savedCoaches.all fun k => !h.takesPart x c k || k.arrived x) &&
  (decide (x.toNat < 4) || decide (h.hdr.rakes ≤ h.nextRake))

/-- A generation completes: each participant's PDONE bit is set, of one saved out too (R317, R318). -/
def State.completeBarrier (s : State) (h : Haul) (x : BitVec 3) (c : Coach) : State :=
  let mark (k : Coach) : Coach :=
    if h.takesPart x c k then { k with pdone := k.pdone ||| scopeBit x } else k
  let s := { s with co := mark s.co, coaches := s.coaches.map mark }
  s.modHaul h.id fun h => { h with saved := h.saved.map fun r => { r with coaches := r.coaches.map mark } }

/-- Complete every generation for which a coach that is saved out waits, once it is full (R318). -/
def State.completeSaved (s : State) (haul : Nat) : State :=
  ((s.haul? haul).map Haul.savedCoaches).getD [] |>.foldl (fun s c =>
    ([1, 2, 3, 4, 5] : List (BitVec 3)).foldl (fun s x =>
      match s.haul? haul with
      | none => s
      | some h => if c.arrived x ∧ s.barrierFull h x c then s.completeBarrier h x c else s) s) s

/-- Arrive at the current generation: publish, and the arrival is pending (R317). -/
def State.arriveAt (s : State) (x : BitVec 3) : State :=
  (s.publish x.toNat).modCo fun c => { c with pendb := c.pendb ||| scopeBit x }

/-- A completed generation ends the wait of BARW: both bits clear, and REFR (R317, R318). -/
def State.leaveBarrier (s : State) (x : BitVec 3) : State :=
  (s.modCo fun c => { c with pendb := c.pendb &&& ~~~(scopeBit x), pdone := c.pdone &&& ~~~(scopeBit x) }).refresh x.toNat

/-- End the barrier wait of the coach in focus, once its generation has completed: BARW goes on, a second arrival arrives
(R317). The coach pauses while its quad's clock changes (R376). -/
def State.endBarrier (s : State) : State :=
  if s.co.issue.phase ≠ .waiting ∨ (s.quad (s.co.ident.core / 4)).changing then s
  else match s.co.issue.wait with
    | .barrier x => if s.co.pdone.getLsbD x.toNat then (s.leaveBarrier x).endWait else s
    | .rearrive x full =>
      if s.co.pdone.getLsbD x.toNat then
        let s := (s.leaveBarrier x).arriveAt x
        if full then s.modCo fun c => { c with issue := { c.issue with wait := .barrier x } } else s.endWait
      else s
    | _ => s

/-- BARRIER_GENERATION_COMPLETE: the current generation of a coach's set at a scope completes when it is full; every
coach that waits in BARW for a completed generation goes on (R317). -/
def execBarrierGenerationComplete (coach : Nat) (x : BitVec 3) (s : State) : Host.Outcome State Fault Refusal :=
  .next (match s.coach? coach with
    | none => s
    | some c =>
      match s.haul? c.ident.haul with
      | none => s
      | some h =>
        let s := if c.arrived x ∧ s.barrierFull h x c then s.completeBarrier h x c else s
        (s.allCoaches.filter fun k => h.takesPart x c k).foldl
          (fun s k => s.within k.ident.id State.endBarrier) s)

/-- A barrier word, refused to a shading coach with VIEWX (R316). -/
def barWord (i : Instr) (m : Bool) (s : State) (f : State → State) : Host.Outcome State Fault Refusal :=
  word m s fun s => if s.co.ident.level ≠ 0 then s.trapAll (causeWord cViewx i.word) else f s

/-- Whether an arrival of the coach in focus is pending at a scope (R317). -/
def Coach.pending (c : Coach) (x : BitVec 3) : Bool := c.pendb.getLsbD x.toNat

/-- BAR (R317). -/
def execBar (m : Bool) (x : BitVec 3) (s : State) : Host.Outcome State Fault Refusal :=
  barWord (.bar m x) m s fun s =>
    if s.co.pending x then s.modCo fun c => c.endRun (.rearrive x true)
    else (s.arriveAt x).modCo fun c => c.endRun (.barrier x)

/-- BARA (R317). -/
def execBara (m : Bool) (x : BitVec 3) (s : State) : Host.Outcome State Fault Refusal :=
  barWord (.bara m x) m s fun s =>
    if s.co.pending x then s.modCo fun c => c.endRun (.rearrive x false) else s.arriveAt x

/-- BARW (R317). -/
def execBarw (m : Bool) (x : BitVec 3) (s : State) : Host.Outcome State Fault Refusal :=
  barWord (.barw m x) m s fun s =>
    if s.co.pending x then s.modCo fun c => c.endRun (.barrier x) else s.refresh x.toNat

end Sys2Proof.Machine
end

