-- ==== Sys2Proof/Machine/Compat.lean ====
section
/-! DEFINITION. The compatibility key: the first 8 bytes of SHAKE256 over the stepping byte and the firmware level (R354), and
SHA3-384, the hash of measurements (R361). Both are FIPS 202's, with rates of 1088 and 832 bits. -/

namespace Sys2Proof.Machine

/-- Rotate a lane left. -/
def rotl64 (x : Dword) (n : Nat) : Dword := x.rotateLeft (n % 64)

/-- The round constants of Keccak-f[1600]. -/
def keccakRc : List Dword :=
  [0x0000000000000001, 0x0000000000008082, 0x800000000000808A, 0x8000000080008000,
   0x000000000000808B, 0x0000000080000001, 0x8000000080008081, 0x8000000000008009,
   0x000000000000008A, 0x0000000000000088, 0x0000000080008009, 0x000000008000000A] ++
  [0x000000008000808B, 0x800000000000008B, 0x8000000000008089, 0x8000000000008003,
   0x8000000000008002, 0x8000000000000080, 0x000000000000800A, 0x800000008000000A,
   0x8000000080008081, 0x8000000000008080, 0x0000000080000001, 0x8000000080008008]

/-- The rotation of lane x + 5y. -/
def keccakRot : List Nat :=
  [0, 1, 62, 28, 27, 36, 44, 6, 55, 20, 3, 10, 43, 25, 39, 41, 45, 15, 21, 8, 18, 2, 61, 56, 14]

/-- Lane i of a state of 25 lanes. -/
def lane25 (a : List Dword) (i : Nat) : Dword := (a[i]?).getD 0

/-- One round: theta, rho and pi, chi, iota. -/
def keccakRound (a : List Dword) (rc : Dword) : List Dword :=
  let c := (List.range 5).map fun x =>
    lane25 a x ^^^ lane25 a (x + 5) ^^^ lane25 a (x + 10) ^^^ lane25 a (x + 15) ^^^ lane25 a (x + 20)
  let d := (List.range 5).map fun x => lane25 c ((x + 4) % 5) ^^^ rotl64 (lane25 c ((x + 1) % 5)) 1
  let t := (List.range 25).map fun i => lane25 a i ^^^ lane25 d (i % 5)
  /- lane (x, y) moves to (y, 2x + 3y); here the new lane is i and its origin is found -/
  let b := (List.range 25).map fun i =>
    let y := i % 5
    let x := (i / 5 + 2 * y) * 3 % 5
    rotl64 (lane25 t (x + 5 * y)) ((keccakRot[x + 5 * y]?).getD 0)
  let e := (List.range 25).map fun i =>
    let r := i / 5 * 5
    lane25 b i ^^^ (~~~(lane25 b (r + (i + 1) % 5)) &&& lane25 b (r + (i + 2) % 5))
  (List.range 25).map fun i => if i = 0 then lane25 e 0 ^^^ rc else lane25 e i

/-- The permutation. -/
def keccakF (a : List Dword) : List Dword := keccakRc.foldl keccakRound a

/-- The first 8 bytes of SHAKE256 over a message shorter than the rate, the first output byte least significant. -/
def shake256Key (msg : List Byte) : Dword :=
  let pad := msg ++ [0x1F#8] ++ List.replicate (135 - msg.length - 1) 0#8 ++ [0x80#8]
  let a := (List.range 25).map fun i => if i < 17 then BitVec.ofNat 64 (leNat ((pad.drop (8 * i)).take 8)) else 0
  lane25 (keccakF a) 0

/-! ### SHA3-384 (R361, R362) -/

/-- Absorb one block of 104 bytes. -/
def absorb384 (a : List Dword) (b : List Byte) : List Dword :=
  keccakF ((List.range 25).map fun i =>
    if i < 13 then lane25 a i ^^^ BitVec.ofNat 64 (leNat ((b.drop (8 * i)).take 8)) else lane25 a i)

/-- Absorb so many blocks of 104 bytes. -/
def absorbBlocks : Nat → List Byte → List Dword → List Dword
  | 0, _, a => a
  | n + 1, b, a => absorbBlocks n (b.drop 104) (absorb384 a (b.take 104))

/-- A message with its suffix 01 and the padding to a multiple of 104 bytes. -/
def padded384 (msg : List Byte) : List Byte :=
  let r := msg.length % 104
  if r = 103 then msg ++ [0x86#8] else msg ++ [0x06#8] ++ List.replicate (102 - r) 0#8 ++ [0x80#8]

/-- The SHA3-384 digest of a message, its first byte least significant. -/
def sha3_384 (msg : List Byte) : BitVec 384 :=
  let a := absorbBlocks (msg.length / 104 + 1) (padded384 msg) (List.replicate 25 0)
  BitVec.ofNat 384 (leNat ((List.range 6).flatMap fun i => leBytes 8 (lane25 a i).toNat))

/-- The device's compatibility key (R354). -/
def compatKey (stepping : Byte) (level : Word) : Dword := shake256Key (stepping :: leBytes 8 level.toNat)

/-- The key of a device in this state. -/
def State.key (s : State) : Dword := compatKey s.dev.stepping s.dev.fwLevel

end Sys2Proof.Machine
end

