-- ==== Sys2Proof/Machine/Image.lean ====
section
/-! DEFINITION. Haul images: header, lift table, rake records and coach records, read and checked at acceptance (R32 to R42,
R137, R329, R336), and written by the save engine (R352). -/

namespace Sys2Proof.Machine

/-! ### The header (R32) -/

/-- The header in 128 bytes. -/
def Header.ofBytes (b : List Byte) : Header where
  kind := field b 0x05 1
  plcnt := field b 0x06 1
  prio := field b 0x07 1 % 4
  segb := field b 0x08 8
  seglen := field b 0x10 4
  entry := field b 0x14 4
  args := BitVec.ofNat 64 (field b 0x18 8)
  rakes := field b 0x20 4
  lanes := field b 0x24 2
  pregs := field b 0x26 2
  part := BitVec.ofNat 32 (field b 0x28 4)
  scrb := field b 0x2C 4
  qmb := field b 0x30 4
  spill := field b 0x34 4
  rstk := field b 0x38 2
  nbound := field b 0x3A 1
  slice := field b 0x3C 2
  deadline := field b 0x3E 2
  watchdog := field b 0x40 4
  next := field b 0x44 4
  lifts := field b 0x48 8
  rtab := field b 0x50 8
  nrec := field b 0x58 4
  compat := BitVec.ofNat 64 (field b 0x60 8)

/-- Stride code of a segment of so many words: the stride is the smallest power of two that holds it, at least 256 bytes
(R27, R329). -/
def strideCode (words : Nat) : Nat := ((List.range 15).find? fun k => decide (4 * words ≤ 2 ^ (k + 8))).getD 14

/-- A code segment of base, plane count and length (R27, R329). -/
def segOf (base plcnt words : Nat) : Seg :=
  { base := BitVec.ofNat 52 base, plm1 := BitVec.ofNat 2 (plcnt - 1), lst := BitVec.ofNat 5 (strideCode words) }

/-- The home segment of a haul (R330). -/
def Header.seg (h : Header) : Seg := segOf h.segb h.plcnt h.seglen

/-- A field of the header outside its limits, or a reserved field nonzero (R32, R34). R32 gives NEXT no limit; the model refuses
a SAVED header whose NEXT is above RAKES, and a LIFTS or RTAB at or above 2^52 with the header's own fields, before COMPAT is looked
at: DESIGN CHOICE, log 73. -/
def headerBad (b : List Byte) : Bool :=
  let h := Header.ofBytes b
  field b 0 4 != 0x3442475A || field b 4 1 != 1 || decide (1 < h.kind) || h.plcnt == 0 || decide (4 < h.plcnt) ||
  decide (4 ≤ field b 7 1) || h.seglen == 0 || decide (2 ^ 20 < h.seglen) || decide (2 ^ 52 ≤ h.segb) ||
  h.segb % h.seg.stride != 0 || decide (h.seglen ≤ h.entry) || h.rakes == 0 || decide (2 ^ 24 < h.rakes) || h.lanes == 0 ||
  decide (1024 < h.lanes) || decide (h.pregs < 64) || decide (256 < h.pregs) || h.pregs % 8 != 0 ||
  h.part.extractLsb' 15 17 != 0 ||
  decide (16 < (h.part.extractLsb' 0 5).toNat + (h.part.extractLsb' 5 5).toNat + (h.part.extractLsb' 10 5).toNat) ||
  h.scrb % 1024 != 0 || h.qmb % 4096 != 0 || h.spill % 1024 != 0 || h.spill == 0 || h.rstk % 8 != 0 || h.nbound == 0 ||
  decide (4 < h.nbound) || field b 0x3B 1 != 0 || h.lifts % 64 != 0 || decide (2 ^ 52 ≤ h.lifts) || field b 0x5C 4 != 0 ||
  field b 0x68 24 != 0 ||
  (h.kind == 0 && (h.next != 0 || h.rtab != 0 || h.nrec != 0 || h.compat != 0)) ||
  (h.kind == 1 && (decide (h.rakes < h.next) || h.rtab % 64 != 0 || decide (2 ^ 52 ≤ h.rtab)))

/-! ### The lift table (R36) -/

/-- A lift table entry in 16 bytes. -/
def LiftDesc.ofBytes (b : List Byte) : LiftDesc where
  reqs := field b 0 2
  scoach := field b 2 1
  spregs := field b 4 2
  srstk := field b 6 2
  sscr := field b 8 4
  sspill := field b 12 4

/-- A field of a lift table entry outside its limits. -/
def liftBad (b : List Byte) : Bool :=
  let l := LiftDesc.ofBytes b
  l.reqs == 0 || decide (64 < l.reqs) || l.scoach == 0 || decide (32 < l.scoach) || field b 3 1 != 0 ||
  decide (l.spregs < 64) || decide (256 < l.spregs) || l.spregs % 8 != 0 || l.srstk % 8 != 0 || l.sscr % 1024 != 0 ||
  l.sspill % 1024 != 0 || l.sspill == 0

/-- The set bits of a map of n bits, ascending. -/
def bitsOf (n x : Nat) : List Nat := (List.range n).filter fun i => x.testBit i

/-- Entry i of n-byte entries. -/
def entry (b : List Byte) (n i : Nat) : List Byte := (b.drop (n * i)).take n

/-! ### Tiles (R42, R365) -/

/-- The 64 bytes that precede a tile in an image: the tile's shape, whose place the specification leaves open (log 17). -/
def TileShape.bytes (t : TileShape) : List Byte :=
  let mask : LaneMask := maskOf (t.lanes.getD [])
  leBytes 1 t.d.toNat ++ leBytes 1 t.words ++ leBytes 2 t.wh ++ leBytes 4 (if t.lanes.isSome then 1 else 0) ++
    leBytes 4 mask.toNat ++ leBytes 4 t.fill.toNat ++ leBytes 8 t.status.toNat ++ leBytes 40 0

/-- The shape in those bytes. -/
def TileShape.ofBytes (b : List Byte) : TileShape where
  d := BitVec.ofNat 6 (field b 0 1)
  words := field b 1 1
  wh := field b 2 2
  lanes := if field b 4 4 = 0 then none else some (lanesOf (BitVec.ofNat 32 (field b 8 4)))
  status := BitVec.ofNat 64 (field b 16 8)
  fill := BitVec.ofNat 32 (field b 12 4)

/-- Pixel words of a tile, and the bytes it takes in an image, a multiple of 2 KiB. -/
def TileShape.size (t : TileShape) : Nat := (match t.lanes with | none => 1 | some l => l.length) * t.wh * t.words
def TileShape.area (t : TileShape) : Nat := max 2048 (roundTo 2048 (4 * t.size))

/-- The shape of a tile that no address of an image gives: nothing lands, status FAULT. -/
def TileShape.absent : TileShape := { d := 0, words := 0, wh := 0, lanes := none, status := 5, fill := 0 }

/-! ### What lies beside the coach records of a rake

R316 keeps a rake's die across a save, R353 a coach's wait, R268 which gang owned a token and the order of its members' slots, R285
the ticket count and R117 the error of a result; R40 and R41 have no field for the die, the operands of a wait, the slots, the
owners, the count and the error. The model's save engine writes them right before the coach records, in the page of the first (log
15, log 46). -/

/-- What is kept of a coach beside its record; the fields of a coach of which nothing is known are empty. -/
structure Aside where
  /-- what a wait of codes 2 to 5 waits for (R353) -/
  operands : Option (Dword × Dword)
  /-- the slot it sat in (R268) -/
  slot     : Option Nat
  /-- its ticket count (R285) -/
  tcount   : Option Nat
  /-- the errors in its results that its park is still to report: by lane, and of no lane (R117; log 72) -/
  ecc      : List (Nat × Cause)
  bare     : Option Cause
  deriving DecidableEq, Repr

/-- Nothing known. -/
def Aside.none : Aside := { operands := .none, slot := .none, tcount := .none, ecc := [], bare := .none }

/-- The dword that opens those bytes. -/
def asideMark : Nat := 0x4544_4953_4B41_4552
/-- Bytes for each coach. -/
def asideCoach : Nat := 576
/-- Their number for so many coaches. -/
def asideSize (n : Nat) : Nat := 64 + asideCoach * n

/-- What a wait of codes 2 to 5 waits for. -/
def Wait.operands : Wait → Option (Dword × Dword)
  | .vwait t d => some (t, BitVec.zeroExtend 64 d)
  | .evwait v => some (v, 0)
  | .dwait a _ v => some (BitVec.ofNat 64 a, v)
  | .sleep t => some (t, 0)
  | .recorded _ o => o
  | _ => Option.none

/-- A number that may be absent, as a dword. -/
def optBytes (o : Option Nat) : List Byte := leBytes 8 ((o.map (· + 1)).getD 0)
/-- The number in a dword. -/
def optOf (b : List Byte) (o : Nat) : Option Nat := if field b o 8 = 0 then none else some (field b o 8 - 1)

/-- The 16 bytes of a cause that may be absent. -/
def causeBytes : Option Cause → List Byte
  | none => leBytes 16 0
  | some k => leBytes 1 1 ++ leBytes 1 k.code.toNat ++ leBytes 1 k.sub.toNat ++ leBytes 1 (if k.addr then 1 else 0) ++
    leBytes 4 k.val.toNat ++ leBytes 4 k.ahi.toNat ++ leBytes 4 0
/-- The cause in 16 bytes. -/
def causeIn (b : List Byte) (o : Nat) : Option Cause :=
  if field b o 1 = 1 then some {
    code := BitVec.ofNat 8 (field b (o + 1) 1), sub := BitVec.ofNat 4 (field b (o + 2) 1), addr := field b (o + 3) 1 == 1
    val := BitVec.ofNat 32 (field b (o + 4) 4), ahi := BitVec.ofNat 20 (field b (o + 8) 4) }
  else none

/-- The bytes of a coach. -/
def Coach.asideBytes (c : Coach) : List Byte :=
  (match c.issue.wait.operands with
    | some p => leBytes 8 1 ++ leBytes 8 p.1.toNat ++ leBytes 8 p.2.toNat
    | none => leBytes 24 0) ++
  optBytes (if c.ident.slot < 32 then some c.ident.slot else none) ++ optBytes (some c.tcount) ++ leBytes 8 0 ++ causeBytes c.traps.eccBare ++
  (List.range 32).flatMap fun l => causeBytes ((c.traps.ecc.find? fun p => p.1 == l).map (·.2))

/-- The bytes of a rake's die, of the owners of its cores' tokens by coach index, and of its coaches. -/
def asideBytes (die : Option Nat) (owners : List (Nat × List Nat)) (cs : List Coach) : List Byte :=
  leBytes 8 asideMark ++ optBytes die ++
  ((List.range 4).flatMap fun j => leBytes 8 ((owners.filter fun o => o.1 == j).flatMap fun o => o.2.map fun i => 2 ^ i).sum) ++
  leBytes 16 0 ++ cs.flatMap Coach.asideBytes

/-- Whether bytes are of that kind. -/
def asideOk (b : List Byte) : Bool := field b 0 8 == asideMark

/-- The die those bytes name. -/
def asideDie (b : List Byte) : Option Nat := if asideOk b then (optOf b 8).map (· % 4) else none

/-- The coaches that owned the token of relative core j, by index. -/
def asideOwners (b : List Byte) (j : Nat) : Option (List Nat) :=
  if asideOk b ∧ field b (16 + 8 * j) 8 ≠ 0 then some (bitsOf 32 (field b (16 + 8 * j) 8)) else none

/-- What they say of coach i. -/
def asideOf (b : List Byte) (i : Nat) : Aside :=
  let o := 64 + asideCoach * i
  if asideOk b then {
    operands := if field b o 8 = 1 then some (BitVec.ofNat 64 (field b (o + 8) 8), BitVec.ofNat 64 (field b (o + 16) 8)) else none
    slot := (optOf b (o + 24)).map (· % 32)
    tcount := (optOf b (o + 32)).map (· % 2 ^ 30)
    bare := causeIn b (o + 48)
    ecc := (List.range 32).filterMap fun l => (causeIn b (o + 64 + 16 * l)).map fun k => (l, k) }
  else .none

/-- Where they lie, when the page of the first record holds them. -/
def asideAt (records n : Nat) : Option (Nat × Nat) :=
  if asideSize n ≤ records ∧ (records - asideSize n) / 32768 = records / 32768 then some (records - asideSize n, asideSize n)
  else none

/-! ### Coach records (R41) -/

/-- A trap frame in 48 bytes (R336). -/
def Frame.ofBytes (b : List Byte) : Frame where
  saveExm := BitVec.ofNat 32 (field b 0 4)
  tmask := BitVec.ofNat 32 (field b 4 4)
  saveOff := BitVec.ofNat 32 (field b 8 4)
  mode := Mode.ofCode (BitVec.ofNat 2 (field b 12 1))
  rx := (field b 12 1).testBit 2
  saveSeg := BitVec.ofNat 64 (field b 16 8)
  planes := planesOf (BitVec.ofNat 64 (field b 24 8))
  modes := Vector.ofFn fun i => BitVec.ofNat 32 (field b (32 + 4 * i.val) 4)

/-- The 48 bytes of a frame; in SAVSEG V is written as 1 and reserved bits as 0 (R5, R329, R336). -/
def Frame.bytes (f : Frame) : List Byte :=
  leBytes 4 f.saveExm.toNat ++ leBytes 4 f.tmask.toNat ++ leBytes 4 f.saveOff.toNat ++
  leBytes 4 (f.mode.code.toNat + if f.rx then 4 else 0) ++ leBytes 8 (f.saveSeg &&& 0x7F0FFFFFFFFFFFFF#64 ||| 1#64 <<< 63).toNat ++ leBytes 8 (planeV f.planes).toNat ++
  (List.range 4).flatMap fun i => leBytes 4 (vget f.modes i).toNat

/-- The live lanes of coach i of a rake (R35). -/
def Header.liveMask (h : Header) (i : Nat) : LaneMask := laneMask fun l => decide (32 * i + l < h.lanes)

/-- A GANG value outside the limits of its fields: a reserved bit, NMEM 1 or 7, a byte at or above NMEM that is not zero
(R259). -/
def gangWordBad (g : Dword) : Bool :=
  let n := (g.extractLsb' 0 3).toNat
  n == 1 || n == 7 || g.extractLsb' 56 7 != 0 || g.extractLsb' 3 5 != 0 ||
  (List.range 6).any fun i =>
    let b := g.extractLsb' (8 + 8 * i) 8
    if i < n then b.extractLsb' 5 3 != 0 else b != 0

/-- A trap frame of an image outside its limits: a reserved byte or bit nonzero, privilege 3, a mode that no mode register
holds, a segment word outside its limits (R41, R97, R329, R336). -/
def frameBad (b : List Byte) : Bool :=
  decide (8 ≤ field b 12 1) || field b 12 1 % 4 == 3 || field b 13 3 != 0 || savedSegBad (BitVec.ofNat 64 (field b 16 8)) ||
  (List.range 4).any fun p => (modeBad (BitVec.ofNat 64 (field b (32 + 4 * p) 4))).isSome

/-- A field of coach record i outside its limits, or a reserved field nonzero (R41, R259, R329, R335). A plane of PLANEV at or
above PLCNT, a VLIVE bit at or above PREGS, an ACCMAP bit beyond the partition's banks, and an RSP or SPS that lies outside the
coach's own return stack or spill area or is no multiple of its unit are no reason to refuse, nor are reserved bits [55:52] of
an SVEC whose V is 0, the order of the slots in a GANG word, a GANG word with BRK and NMEM both nonzero, two tickets of one slot, and
a mode above U at a trap depth of 0: DESIGN CHOICE, log 73. -/
def coachBad (h : Header) (i : Nat) (b : List Byte) : Bool :=
  let depth := field b 0x29 1 / 4 % 8
  let spec (k : Nat) : Nat := field b (0xD0 + 8 * k) 8
  field b 0 4 != i || field b 0x0C 4 != (h.liveMask i).toNat || field b 0x08 4 &&& (h.liveMask i).toNat != field b 0x08 4 ||
  (List.range 4).any (fun p => (modeBad (BitVec.ofNat 64 (field b (0x18 + 4 * p) 4))).isSome) ||
  decide (h.pregs / 8 ≤ field b 0x28 1) || field b 0x29 1 % 4 == 3 || decide (4 < depth) || decide (32 ≤ field b 0x29 1) ||
  decide (7 < field b 0x2A 1) ||
  ((List.range (field b 0x2C 1)).any fun t => field b (0x34 + 16 * t) 4 != 0) || (field b 0x2A 1 == 1 && (field b 0x2B 1 == 0 || decide (5 < field b 0x2B 1))) || decide (4 < field b 0x2C 1) ||
  field b 0x2D 1 &&& 0xC1 != 0 || field b 0x2E 1 &&& 0xC1 != 0 || field b 0x2F 1 != 0 || field b 0x462 30 != 0 ||
  decide (2 ^ 18 ≤ field b 0xC8 8) || savedSegBad (BitVec.ofNat 64 (spec 0)) || decide (2 ^ 5 ≤ spec 1) ||
  gangWordBad (BitVec.ofNat 64 (spec 2)) || decide (2 ^ 4 ≤ spec 3) || mcfgWordBad (BitVec.ofNat 64 (spec 4)) ||
  segBad (BitVec.ofNat 64 (spec 6)) || decide (2 ^ 32 ≤ spec 7) ||
  (List.range 4).any fun f =>
    if f < depth then frameBad ((b.drop (0x120 + 48 * f)).take 48) else field b (0x120 + 48 * f) 48 != 0
where
  /-- MCFGR never holds a value MCFG refuses (R245). -/
  mcfgWordBad (x : Dword) : Bool :=
    x.extractLsb' 20 4 != 0 || x.extractLsb' 14 2 != 0 || x.getLsbD 19 || x.getLsbD 17 || x.extractLsb' 24 2 != 0 ||
      x.extractLsb' 44 2 != 0

/-- What a saved coach waits for, by WAIT; the operands of VWAIT, EVWAIT, DWAIT and SLEEP are those beside the records, else those
of the word before OFF (R353): DEDUCED, log 15. -/
def waitOf (code scope : Nat) (operands : Option (Dword × Dword)) : Wait :=
  match code with
  | 1 => .barrier (BitVec.ofNat 3 scope)
  | 6 => .token
  | 7 => .malloc 0 0
  | 0 => .none
  | k => .recorded k operands

/-- Where a coach's return stack and spill area begin in its rake's allocation (R30). -/
def Header.stackBase (h : Header) (i : Nat) : Nat := h.scrb + i / 4 * (h.rstk + h.spill)

/-- Return stack, spill area and scratchpad bounds of coach i of a rake (R30, R137). -/
def Header.window (h : Header) (i : Nat) : Window :=
  let r := h.stackBase i
  { coachNone.window with
    rsp := r, rspBase := r, rspEnd := r + h.rstk, sps := r + h.rstk, spsBase := r + h.rstk, spsEnd := r + h.rstk + h.spill,
    scrSize := h.alloc (i % 4), scrProg := h.scrb, qmSize := h.qmb }

/-- The coach of a record, its saved registers given in ascending index and the shapes of its tickets' tiles in order, with what is
known beside the record (R41). One that waited for the token or in MALLOC stands after its instruction, as it stood when saved. Where
the ticket count is not known it is that after the newest outstanding ticket, 0 with none: DESIGN CHOICE, log 73. -/
def coachOf (h : Header) (i : Nat) (b : List Byte) (vdata : List Byte) (shapes : List TileShape) (x : Aside) : Coach :=
  let dw (o : Nat) : Dword := BitVec.ofNat 64 (field b o 8)
  let w (o : Nat) : Word := BitVec.ofNat 32 (field b o 4)
  let spec (k : Nat) : Dword := dw (0xD0 + 8 * k)
  let live := bitsOf 256 (field b 0x70 32)
  let wait := field b 0x2A 1
  let off : Nat := if 6 ≤ wait then field b 0x04 4 + 1 else field b 0x04 4
  let g := Seg.ofWord (spec 0)
  { coachNone with
    ident := { coachNone.ident with cidx := i, rel := i % 4, slot := x.slot.getD (32 + i) }
    regs := {
      v := (live.zip (List.range live.length)).foldl
        (fun v p => vset v p.1 (vecOfBytes ((vdata.drop (128 * p.2)).take 128))) coachNone.regs.v
      bad := []
      preg := h.pregs
      g := Vector.ofFn fun j => if j.val = 0 then 0 else dw (0x1E0 + 8 * j.val)
      k := Vector.ofFn fun j => w (0x3E0 + 4 * j.val)
      gk := BitVec.ofNat 16 (field b 0x460 2) }
    masks := {
      exm := w 0x08, live := w 0x0C, plane := planesOf (dw 0x10)
      modes := Vector.ofFn fun p => w (0x18 + 4 * p.val) }
    window := { h.window i with
      win := field b 0x28 1, sps := field b (0xD0 + 64) 8, rsp := field b (0xD0 + 72) 8 }
    segs := { seg := g, lim := if g = h.seg then h.seglen else g.stride / 4, home := h.seg, homeLen := h.seglen }
    special := { coachNone.special with
      fflags := (spec 1).extractLsb' 0 5, gang := spec 2, asr := (spec 3).extractLsb' 0 4, mcfgr := spec 4, pgc := spec 5
      svec := spec 6, posted := dw 0x98, hcause := dw 0xC8, nbound := h.nbound }
    traps := { coachNone.traps with
      mode := Mode.ofCode (BitVec.ofNat 2 (field b 0x29 1))
      frames := ((List.range (field b 0x29 1 / 4 % 8)).map fun f =>
        Frame.ofBytes ((b.drop (0x120 + 48 * f)).take 48)).reverse
      ltcause := Vector.ofFn fun l => w (0x480 + 8 * l.val)
      ltval := Vector.ofFn fun l => w (0x484 + 8 * l.val)
      ecc := x.ecc
      eccBare := x.bare }
    issue := { coachNone.issue with
      phase := .saved, wait := waitOf wait (field b 0x2B 1) x.operands, off := off, next := off }
    tickets := (List.range (field b 0x2C 1)).map fun t =>
      { slot := field b (0x30 + 16 * t) 1 % 4, dword := dw (0x30 + 16 * t), req := 0
        tile := some (field b (0x38 + 16 * t) 8, (shapes[t]?).getD TileShape.absent) }
    tcount :=
      let n := field b 0x2C 1
      x.tcount.getD (if n = 0 then 0 else (field b (0x30 + 16 * (n - 1)) 8 / 4 + 1) % 2 ^ 30)
    pendb := BitVec.ofNat 8 (field b 0x2D 1)
    pdone := BitVec.ofNat 8 (field b 0x2E 1)
    preempt := { coachNone.preempt with full := true } }

/-! ### Rake records (R40) -/

/-- A field of a rake record outside its limits, or a reserved field nonzero (R40). A record whose RIDX is NEXT or above, or
that of another record, is no reason to refuse; a SCRSEG that reaches beyond SCRB, and bits [7:4] of TOKH, are: DESIGN CHOICE, log
73. -/
def rakeBad (h : Header) (b : List Byte) : Bool :=
  decide (h.rakes ≤ field b 0 4) || field b 4 1 != h.ncoach || field b 5 3 != 0 || field b 0x0C 4 != 0 ||
  field b 0x18 8 % 64 != 0 || decide (16 ≤ field b 0x80 1) || field b 0x81 63 != 0 ||
  (List.range 4).any fun j => decide (h.scrb < field b (0x28 + 16 * j) 4 + field b (0x2C + 16 * j) 4)

/-- Bytes with their places, those that are 0 left out: what they are put over has been cleared (R40). -/
def placed (a : Nat) (b : List Byte) : List (Nat × Byte) :=
  ((b.zip (List.range b.length)).map fun p => (a + p.2, p.1)).filter fun p => p.2 != 0

/-- The used return stack and spill area of the coaches of a relative core, coach by coach: address and length (R40). -/
def stackSpans (cs : List Coach) : List (Nat × Nat) :=
  cs.flatMap fun c => [(c.window.rspBase, c.window.rsp - c.window.rspBase), (c.window.spsBase, c.window.sps - c.window.spsBase)]

/-- Cut bytes into the spans given, with places. -/
def cutSpans : List (Nat × Nat) → List Byte → List (Nat × Byte)
  | [], _ => []
  | (a, n) :: t, b => placed a (b.take n) ++ cutSpans t (b.drop n)

/-! ### Reading at acceptance (R33, R34) -/

/-- A reader of image bytes: the bytes, or the status that a failed read gives. -/
abbrev Reader := State → Nat → Nat → State × Except Nat (List Byte)

/-- Read for a launch; HWERR for an uncorrectable error (R34, R381). -/
def launchReader (x : Ctx) : Reader := fun s a n =>
  match s.readVa x a n with
  | (s, .ok b) => (s, .ok b)
  | (s, .ecc) => (s, .error 9)
  | (s, _) => (s, .error 1)

/-- Read from bytes at hand. -/
def bytesReader (b : List Byte) : Reader := fun s a n =>
  if a + n ≤ b.length then (s, .ok ((b.drop a).take n)) else (s, .error 1)

/-- Read several pieces in order; the first failure ends it. -/
def imageReads (rd : Reader) : List (Nat × Nat) → State → State × Except Nat (List (List Byte))
  | [], s => (s, .ok [])
  | (a, n) :: t, s =>
    match rd s a n with
    | (s, .error e) => (s, .error e)
    | (s, .ok b) =>
      match imageReads rd t s with
      | (s, .ok l) => (s, .ok (b :: l))
      | r => r

/-- Read pieces of which each may be missing. -/
def softReads (rd : Reader) : List (Nat × Nat) → State → State × List (List Byte)
  | [], s => (s, [])
  | (a, n) :: t, s =>
    let r := rd s a n
    let q := softReads rd t r.1
    (q.1, (match r.2 with
      | .ok b => b
      | .error _ => []) :: q.2)

/-- Where an image does not say which member sat in which slot, give gang members the slots their GANG lists, in ascending coach
index; other coaches keep keys of their own: DEDUCED, log 19 (R268). -/
def slotKeys (cs : List Coach) : List Coach :=
  cs.map fun c =>
    if c.ident.slot < 32 then c
    else
    let same := cs.filter fun k => k.ident.rel == c.ident.rel && k.special.gang == c.special.gang
    let rank := (same.takeWhile fun k => k.ident.cidx != c.ident.cidx).length
    let slots := (List.range (c.special.gang.extractLsb' 0 3).toNat).map fun i => (c.special.gang.extractLsb' (8 + 8 * i) 5).toNat
    { c with ident := { c.ident with slot := (slots[rank]?).getD (32 + c.ident.cidx) } }

/-- The gang that owned a relative core's token where an image does not say: that of its lowest coach that does not wait for the
token, members by coach index (log 19). -/
def tokenOwners (cs : List Coach) : List Nat :=
  match cs.find? fun c => c.issue.wait != .token with
  | none => []
  | some c =>
    if c.special.gang.extractLsb' 0 3 = 0 then [c.ident.cidx]
    else (cs.filter fun k => k.special.gang == c.special.gang).map fun k => k.ident.cidx

/-- The tile data addresses of a coach record's tickets (R41). -/
def tilesOf (b : List Byte) : List Nat := (List.range (field b 0x2C 1)).map fun t => field b (0x38 + 16 * t) 8

/-- What the model's save engine leaves beside a rake's records and tiles: the bytes before the first coach record, and for every
tile address of its tickets the shape before it (log 15, log 17, log 19, log 46). -/
def State.readAside (s : State) (rd : Reader) (h : Header) (records : Nat) (recs : List (List Byte)) :
    State × List Byte × List (Nat × TileShape) :=
  let at_ := (recs.flatMap tilesOf).filter fun a => decide (64 ≤ a)
  let r := softReads rd ((asideAt records h.ncoach).toList ++ at_.map fun a => (a - 64, 64)) s
  let n := (asideAt records h.ncoach).toList.length
  (r.1, if n = 0 then [] else r.2.headD [],
    at_.zip ((r.2.drop n).map fun b => if b = [] then TileShape.absent else TileShape.ofBytes b))

/-- One saved rake of an image: its record, its coach records, then the data they name (R33, R39 to R42), with what the save engine
left beside them. Where the return stacks and spill areas lie behind a scratchpad segment: DESIGN CHOICE, log 16. -/
def State.readRake (s : State) (rd : Reader) (h : Header) (a : Nat) : State × Except Nat SavedRake :=
  match rd s a 192 with
  | (s, .error e) => (s, .error e)
  | (s, .ok r) =>
    if rakeBad h r then (s, .error 1)
    else
      match imageReads rd ((List.range h.ncoach).map fun i => (field r 0x18 8 + 1408 * i, 1408)) s with
      | (s, .error e) => (s, .error e)
      | (s, .ok recs) =>
        if (recs.zip (List.range h.ncoach)).any fun p => coachBad h p.2 p.1 then (s, .error 1)
        else
          let idx := recs.zip (List.range h.ncoach)
          let vd := recs.map fun b => (field b 0x90 8, 128 * (bitsOf 256 (field b 0x70 32)).length)
          let ad := recs.map fun b => (field b 0xC0 8, 16384 * (bitsOf 256 (field b 0xA0 32)).length)
          let bare := idx.map fun p => coachOf h p.2 p.1 [] [] .none
          let on (j : Nat) : List Coach := bare.filter fun c => c.ident.rel == j
          let seg (j : Nat) : Nat × Nat :=
            (field r (0x20 + 16 * j) 8, field r (0x2C + 16 * j) 4 + ((stackSpans (on j)).map (·.2)).sum)
          let wg (j : Nat) : Nat × Nat := (field r (0x60 + 8 * j) 8, if field r (0x60 + 8 * j) 8 = 0 then 0 else 32768)
          match imageReads rd
              (((field r 0x10 8, h.qmb) :: (List.range 4).map seg) ++ (List.range 4).map wg ++ vd ++ ad) s with
          | (s, .error e) => (s, .error e)
          | (s, .ok d) =>
            let x := s.readAside rd h (field r 0x18 8) recs
            let shape (a : Nat) : TileShape := ((x.2.2.find? fun p => p.1 == a).map (·.2)).getD TileShape.absent
            let nth (n : Nat) : List Byte := (d[n]?).getD []
            let scr (j : Nat) : List (Nat × Nat × Byte) :=
              (cutSpans ((field r (0x28 + 16 * j) 4, field r (0x2C + 16 * j) 4) :: stackSpans (on j)) (nth (1 + j))).map
                fun p => (j, p.1, p.2)
            (x.1, .ok {
              rake := field r 0 4
              die := asideDie x.2.1
              coaches := slotKeys (idx.map fun p =>
                coachOf h p.2 p.1 (nth (9 + p.2)) ((tilesOf p.1).map shape) (asideOf x.2.1 p.2))
              qm := placed 0 (nth 0)
              scr := (List.range 4).flatMap scr
              wgt := (List.range 4).flatMap fun j => (placed 0 (nth (5 + j))).map fun p => (j, p.1, p.2)
              acc := idx.flatMap fun p =>
                let banks := bitsOf 256 (field p.1 0xA0 32)
                (banks.zip (List.range banks.length)).map fun q =>
                  (p.2, q.1, placed 0 (entry (nth (9 + h.ncoach + p.2)) 16384 q.2))
              owners := ((List.range 4).filter fun j => (field r 0x80 1).testBit j).map fun j =>
                (j, (asideOwners x.2.1 j).getD (tokenOwners (on j))) })

/-- The saved rakes of an image's record table. -/
def State.readRakes (rd : Reader) (h : Header) : List Nat → State → State × Except Nat (List SavedRake)
  | [], s => (s, .ok [])
  | a :: t, s =>
    match s.readRake rd h a with
    | (s, .error e) => (s, .error e)
    | (s, .ok r) =>
      match State.readRakes rd h t s with
      | (s, .ok l) => (s, .ok (r :: l))
      | q => q

/-- The lift table of an image (R36). -/
def State.readLifts (s : State) (rd : Reader) (h : Header) : State × Except Nat (List LiftDesc) :=
  if h.lifts = 0 then (s, .ok [])
  else match rd s h.lifts (16 * h.nbound) with
    | (s, .error e) => (s, .error e)
    | (s, .ok b) =>
      let es := (List.range h.nbound).map (entry b 16)
      if es.any liftBad then (s, .error 1) else (s, .ok (es.map LiftDesc.ofBytes))

/-- Read and check an image in the order of R34: its parts, or the status of the refusal. -/
def State.readImage (s : State) (rd : Reader) (a : Nat) : State × Except Nat (Header × List LiftDesc × List SavedRake) :=
  if a % 64 ≠ 0 then (s, .error 1)
  else match rd s a 128 with
    | (s, .error e) => (s, .error e)
    | (s, .ok b) =>
      let h := Header.ofBytes b
      if headerBad b then (s, .error 1)
      else if h.kind = 1 ∧ h.compat ≠ s.key then (s, .error 3)
      else match s.readLifts rd h with
        | (s, .error e) => (s, .error e)
        | (s, .ok ls) =>
          match State.readRakes rd h ((List.range h.nrec).map fun i => h.rtab + 192 * i) s with
          | (s, .error e) => (s, .error e)
          | (s, .ok rs) => if fits h ls then (s, .ok (h, ls, rs)) else (s, .error 2)

/-! ### Writing (R39 to R42, R352) -/

/-- The header as a SAVED image holds it, with the places of its tables. -/
def Header.savedBytes (h : Header) (key : Dword) (next lifts rtab nrec : Nat) : List Byte :=
  leBytes 4 0x3442475A ++ leBytes 1 1 ++ leBytes 1 1 ++ leBytes 1 h.plcnt ++ leBytes 1 h.prio ++ leBytes 8 h.segb ++
  leBytes 4 h.seglen ++ leBytes 4 h.entry ++ leBytes 8 h.args.toNat ++ leBytes 4 h.rakes ++ leBytes 2 h.lanes ++
  leBytes 2 h.pregs ++ leBytes 4 h.part.toNat ++ leBytes 4 h.scrb ++ leBytes 4 h.qmb ++ leBytes 4 h.spill ++
  leBytes 2 h.rstk ++ leBytes 2 h.nbound ++ leBytes 2 h.slice ++ leBytes 2 h.deadline ++ leBytes 4 h.watchdog ++
  leBytes 4 next ++ leBytes 8 lifts ++ leBytes 8 rtab ++ leBytes 8 nrec ++ leBytes 8 key.toNat ++ leBytes 24 0

/-- The 16 bytes of a lift table entry. -/
def LiftDesc.bytes (l : LiftDesc) : List Byte :=
  leBytes 2 l.reqs ++ leBytes 2 l.scoach ++ leBytes 2 l.spregs ++ leBytes 2 l.srstk ++ leBytes 4 l.sscr ++
    leBytes 4 l.sspill

/-- WAIT of a saved coach (R41, R83, R268). A coach that waits in VIEW or VIEWL with four tickets, or in BAR or BARA for an
earlier generation, records 0 and issues its instruction again: DESIGN CHOICE, log 74. -/
def Wait.code : Wait → Nat
  | .barrier _ => 1
  | .vwait _ _ => 2
  | .evwait _ => 3
  | .dwait _ _ _ => 4
  | .sleep _ => 5
  | .token => 6
  | .malloc _ _ => 7
  | .recorded k _ => k
  | _ => 0

/-- Whether a saved coach issues the instruction it waits in again, so that its OFF names it (R83, R268, R248;
log 74). -/
def Wait.again : Wait → Bool
  | .token | .malloc _ _ | .latch | .view _ _ _ | .tdone | .rearrive _ _ => true
  | _ => false

/-- OFF of a saved coach (R41). -/
def Coach.saveOff (c : Coach) : Int := if c.issue.wait.again then c.issue.off - 1 else c.issue.off

/-- Physical registers a saved coach keeps: all of them unless PHINT named fewer (R350, R351). -/
def Coach.savedRegs (c : Coach) : List Nat :=
  if c.preempt.full then List.range c.regs.preg
  else (List.range c.regs.preg).filter fun i => c.preempt.vlive.contains i

/-- The 1,408 bytes of a coach record: the places of its registers, tiles and banks are given (R41). -/
def Coach.bytes (c : Coach) (vdata accdata : Nat) (tiles : List Nat) (banks : List Nat) : List Byte :=
  let map (l : List Nat) : Nat := l.foldl (fun a i => a ||| 2 ^ i) 0
  let w (x : Word) : List Byte := leBytes 4 x.toNat
  let d (x : Dword) : List Byte := leBytes 8 x.toNat
  let scope : Nat := match c.issue.wait with
    | .barrier b => b.toNat
    | _ => 0
  let tk (i : Nat) : List Byte :=
    match c.tickets[i]? with
    | none => leBytes 16 0
    | some t => d t.dword ++ leBytes 8 ((tiles[i]?).getD 0)
  leBytes 4 c.ident.cidx ++ w (BitVec.ofInt 32 c.saveOff) ++ w c.masks.exm ++ w c.masks.live ++ d (planeV c.masks.plane) ++
  (List.range 4).flatMap (fun p => w (vget c.masks.modes p)) ++ leBytes 1 c.window.win ++
  leBytes 1 (c.traps.mode.code.toNat + 4 * c.traps.frames.length) ++ leBytes 1 c.issue.wait.code ++ leBytes 1 scope ++
  leBytes 1 c.tickets.length ++ leBytes 1 c.pendb.toNat ++ leBytes 1 c.pdone.toNat ++ leBytes 1 0 ++
  (List.range 4).flatMap tk ++ leBytes 32 (map c.savedRegs) ++ leBytes 8 vdata ++ d c.special.posted ++
  leBytes 32 (map banks) ++ leBytes 8 accdata ++ d c.special.hcause ++
  d c.segs.seg.word ++ leBytes 8 c.special.fflags.toNat ++ d c.special.gang ++ leBytes 8 c.special.asr.toNat ++
  d c.special.mcfgr ++ d c.special.pgc ++ d c.special.svec ++
  leBytes 8 ((c.traps.frames.head?.map fun f => f.tmask.toNat).getD 0) ++ leBytes 8 c.window.sps ++ leBytes 8 c.window.rsp ++
  (let fs := (c.traps.frames.reverse.flatMap Frame.bytes); fs ++ leBytes (192 - fs.length) 0) ++
  (List.range 64).flatMap (fun i => d (c.greg (BitVec.ofNat 6 i))) ++
  (List.range 32).flatMap (fun i => w (c.kreg (BitVec.ofNat 5 i))) ++ leBytes 2 (c.regs.gk ||| 1).toNat ++ leBytes 30 0 ++
  (List.range 32).flatMap fun l => w (vget c.traps.ltcause l) ++ w (vget c.traps.ltval l)

/-- Bytes of a range from their places. -/
def unplaced (a n : Nat) (l : List (Nat × Byte)) : List Byte :=
  (List.range n).map fun i => ((l.find? fun p => p.1 == a + i).map (·.2)).getD 0

/-- The saved program scratchpad of a relative core: the smallest range that covers the live ranges of its coaches, all of
it when one was saved in full (R352). -/
def liveRange (h : Header) (cs : List Coach) : Nat × Nat :=
  if cs = [] then (0, 0)
  else if cs.any fun c => c.preempt.full then (0, h.scrb)
  else
    let rs := (cs.map fun c => (c.preempt.start, c.preempt.start + c.preempt.len)).filter fun p => p.1 != p.2
    match rs with
    | [] => (0, 0)
    | p :: t =>
      let q := t.foldl (fun a b => (min a.1 b.1, max a.2 b.2)) p
      (q.1, q.2 - q.1)

end Sys2Proof.Machine
end

