-- ==== Sys2Proof/Machine/Launch.lean ====
section
/-! DEFINITION. Accepting a haul, its completion record and signal, and the queue that launched it (R33, R34, R51 to R60,
R66, R67, R372, R373, R400). -/

namespace Sys2Proof.Machine

/-! ### The leader (R61) -/

/-- Whether a controller holds the lease and serves. -/
def State.leads (s : State) : Bool := s.dev.leader.isSome
/-- The context of a controller's supervisor accesses in an address space (R34, R400). -/
def State.ctrlCtx (s : State) (vf pasid : Nat) (asid : BitVec 16) (root : Dword) : Ctx :=
  { vf := vf, pasid := pasid, asid := asid, root := root, user := false, port := ctrlPort s.leaderDie, spec := none,
    shadow := none }

/-- The context of a haul's address space. -/
def State.haulCtx (s : State) (h : Haul) : Ctx := s.ctrlCtx h.vf h.pasid h.asid h.ptroot

/-! ### Mailbox commands (R47) -/

/-- A command ends with a status and a value. -/
def State.endCommand (s : State) (block slot status : Nat) (value : Dword) : State :=
  { s with commands := s.commands.map fun c =>
      if c.block = block ∧ c.slot = slot ∧ c.result = none then { c with result := some (status, value) } else c }

/-! ### The QCB (R55, R59) -/

def qIdle : Nat := 0
def qActive : Nat := 1
def qDraining : Nat := 2
def qError : Nat := 3

/-- Whether the leader's port reaches a queue's QCB (R357, R368; log 79). -/
def State.qcbSeen (s : State) (q : Queue) : Bool := s.portSees (ctrlPort s.leaderDie) q.qcb
/-- Write bytes of a queue's QCB; an access that the leader's port refuses is counted and not made. -/
def State.qcbPut (s : State) (q : Queue) (off : Nat) (b : List Byte) : State :=
  s.atPort (ctrlPort s.leaderDie) q.qcb fun s => s.wr (q.qcb + off) b
/-- A field of n bytes of a queue's QCB. -/
def State.qcb (s : State) (q : Queue) (off n : Nat) : Nat := s.rdNat (q.qcb + off) n
/-- STATE of a queue. -/
def State.qstate (s : State) (q : Queue) : Nat := s.qcb q 1 1
/-- The context of a queue's address space (R55). -/
def State.queueCtx (s : State) (q : Queue) : Ctx :=
  s.ctrlCtx q.vf q.pasid (BitVec.ofNat 16 (s.qcb q 0x30 2)) (BitVec.ofNat 64 (s.qcb q 0x38 8))

/-- The VF's ACTIVE queues. -/
def State.activeCount (s : State) (vf : Nat) : Nat :=
  (s.queues.filter fun q => q.vf == vf && s.qstate q == qActive).length

/-- Whether one more queue of a VF may be ACTIVE (R59, R356). -/
def State.quotaRoom (s : State) (vf : Nat) : Bool :=
  let n := ((s.vf vf).queues.extractLsb' 52 12).toNat
  n == 0 || decide (s.activeCount vf < n)

/-- The head of a VF's deferred list becomes ACTIVE when a queue of the VF has left ACTIVE (R59). -/
def State.activateDeferred (s : State) (vf : Nat) : State :=
  match (s.vf vf).deferred with
  | [] => s
  | id :: rest =>
    if !s.quotaRoom vf then s
    else
      let s := s.modVf vf fun v => { v with deferred := rest }
      match s.queue? id with
      | none => s
      | some q => s.qcbPut q 1 [BitVec.ofNat 8 qActive]

/-- Set a queue's STATE (R59). -/
def State.setQstate (s : State) (q : Queue) (n : Nat) : State :=
  let was := s.qstate q
  let s := s.qcbPut q 1 [BitVec.ofNat 8 n]
  if was = qActive ∧ n ≠ qActive then s.activateDeferred q.vf else s

/-- Write all ones at ERRSIG; a write that fails is not made (R66, R67, R400). -/
def State.writeErrsig (s : State) (q : Queue) : State :=
  let a := s.qcb q 0x18 8
  if a = 0 then s else (s.writeVa (s.queueCtx q) a (List.replicate 8 (BitVec.allOnes 8))).1

/-- A queue enters its error state; a later cause changes nothing (R67). -/
def State.queueError (s : State) (q : Queue) (cause : Nat) : State :=
  if s.qstate q = qError then s
  else
    let s := s.modVf q.vf fun v => { v with deferred := v.deferred.filter (· != q.id) }
    let s := s.setQstate q qError
    let s := s.qcbPut q 7 [BitVec.ofNat 8 cause]
    (s.writeErrsig q).modQueue q.id fun q => { q with stopped := true }

/-- KIND and BARRIER of a packet (R51). -/
def Packet.kind (p : Packet) : Nat := field p.bytes 0 1
def Packet.barrier (p : Packet) : Bool := field p.bytes 1 1 % 2 == 1 || p.kind == 4

/-- Whether a packet that has not completed holds back the packets after it (R53). -/
def Packet.holds (p : Packet) : Bool := (p.kind == 3 || p.kind == 4) && !p.done

/-- Settle a queue after a packet has completed: a drained FORCE destroy takes its last steps (R66), an ACTIVE queue with
nothing left turns IDLE (R59). While the leader's port does not reach the QCB the queue stays as it is (log 79). -/
def State.settleQueue (s : State) (id : Nat) : State :=
  match s.queue? id with
  | none => s
  | some q =>
    if !q.packets.all Packet.done then s
    else if !s.qcbSeen q then s.countRefused q.qcb
    else if q.force ≠ [] then
      let s := if s.qstate q = qError then s else (s.wr (q.qcb + 7) [5]).writeErrsig q
      let s := s.wrNat q.qcb 1 (s.rdNat q.qcb 1 / 2 * 2)
      (q.force.foldl (fun s p => s.endCommand p.1 p.2 0 0) s).dropQueues fun x => x.id == id
    else if s.qstate q = qActive ∧ q.rdidx = s.qcb q 0x10 4 then
      (s.modQueue id fun q => { q with packets := [] }).setQstate q qIdle
    else s

/-- Change the packet with this index. -/
def State.modPacket (s : State) (id index : Nat) (f : Packet → Packet) : State :=
  s.modQueue id fun q => { q with packets := q.packets.map fun p => if p.index = index then f p else p }

/-- A packet completes. -/
def State.packetDone (s : State) (id index : Nat) : State :=
  (s.modPacket id index fun p => { p with done := true }).settleQueue id

/-- The packets that a failed one holds back: those from the first later packet that may not start before it has completed
(R53, R400). -/
def heldBack (wait : Bool) (index : Nat) (ps : List Packet) : List Packet :=
  let later := (ps.dropWhile fun p => p.index != index).tail.filter fun p => !p.started
  if wait then later else later.dropWhile fun p => !p.barrier

/-- A packet's access failed, or its WAIT ran out: it counts as completed, what it held back is discarded, and the queue
enters its error state (R52, R67, R400). -/
def State.failPacket (s : State) (id index cause : Nat) : State :=
  match s.queue? id with
  | none => s
  | some q =>
    let wait := q.packets.any fun p => p.index == index && (p.kind == 3 || p.kind == 4)
    let gone := (heldBack wait index q.packets).map (·.index)
    let s := s.modQueue id fun q => { q with
      packets := (q.packets.filter fun p => !gone.contains p.index).map fun p =>
        if p.index = index then { p with done := true } else p }
    (s.queueError q cause).settleQueue id

/-! ### Completion records and signals (R52, R373) -/

/-- The 64 bytes of a completion record (R373). -/
def recordBytes (status : Nat) (detail : Word) (image launchNo rakesDone : Nat) (tAccept tEnd faddr : Dword) : List Byte :=
  leBytes 4 status ++ leBytes 4 detail.toNat ++ leBytes 8 image ++ leBytes 4 launchNo ++ leBytes 4 rakesDone ++
    leBytes 8 tAccept.toNat ++ leBytes 8 tEnd.toNat ++ leBytes 8 faddr.toNat ++ leBytes 16 0

/-- Write a completion record and subtract 1 from a signal, each made although the other fails: whether both were made or
not asked for (R52, R372, R400). A record's address that is no multiple of 64 takes none: DEDUCED, log 54. -/
def State.recordAndSignal (s : State) (x : Ctx) (record signal : Nat) (b : List Byte) : State × Bool :=
  let r : State × Bool :=
    if record = 0 then (s, true)
    else if record % 64 ≠ 0 then (s, false)
    else match s.writeVa x record b with
      | (s, .ok _) => (s, true)
      | (s, _) => (s, false)
  if signal = 0 then r
  else
    let q := r.1.atomicVa x signal 8 fun n => (n + (2 ^ 64 - 1)) % 2 ^ 64
    (q.1, r.2 && q.2)

/-! ### Acceptance (R33, R34, R60) -/

/-- Where a haul comes from: its address space, the cap on its priority (R55), and what its end writes. -/
structure Source where
  vf     : Nat
  pasid  : Nat
  asid   : BitVec 16
  root   : Dword
  cap    : Nat
  image  : Nat
  record : Nat
  signal : Nat
  packet : Option (Nat × Nat)
  qno    : Option Nat
  tcb    : Option Nat
  spec   : Bool
  psets  : List Nat
  deriving DecidableEq

/-- A saved rake as part of a haul: its coaches bear the haul's number and the rake's. -/
def SavedRake.within (r : SavedRake) (haul : Nat) : SavedRake :=
  { r with coaches := r.coaches.map fun c => { c with ident := { c.ident with haul := haul, rake := r.rake } } }

/-- The die of a rake of a SAVED image: the one the image's writer left beside its records, else a free value, log 46 (R316). -/
def SavedRake.dieIn (r : SavedRake) (haul : Nat) : Nat := r.die.getD (Config.savedDie haul r.rake % 4)

/-- The haul of an accepted image. Rakes below NEXT without a record have retired (R39); a saved one keeps its die (R316). -/
def Source.haul (x : Source) (id : Nat) (no : Word) (now : Dword) (h : Header) (ls : List LiftDesc) (rs : List SavedRake) :
    Haul where
  id := id
  vf := x.vf
  pasid := x.pasid
  asid := x.asid
  ptroot := x.root
  prio := min h.prio x.cap
  image := x.image
  record := x.record
  signal := x.signal
  packet := x.packet
  qno := x.qno
  tcb := x.tcb
  spec := x.spec
  committed := false
  psets := x.psets
  hdr := h
  lifts := ls
  launchNo := no
  tAccept := now
  nextRake := h.next
  saved := rs.map fun r => r.within id
  rakesDone := h.next - (rs.filter fun r => decide (r.rake < h.next)).length
  ended := none
  silent := false
  released := false
  heldRelease := false
  retired := false
  watch := 0
  watchFrom := none
  tEnd := 0
  last := (0, 0)
  dies := rs.map fun r => (r.rake, r.dieIn id)
  gone := []
  waits := rs.map fun r => (r.rake, now)
  promoted := []
  saving := none

/-- Read, check and accept an image: the haul's number, or the status of the refusal (R33, R34). The launch number counts
the VF's accepted launches (R131). A barrier generation that every coach of a SAVED image stands at completes (R318). -/
def State.launch (s : State) (x : Source) : State × Except Nat Nat :=
  match s.readImage (launchReader (s.ctrlCtx x.vf x.pasid x.asid x.root)) x.image with
  | (s, .error e) => (s, .error e)
  | (s, .ok (h, ls, rs)) =>
    let no := (s.vf x.vf).launches + 1
    let id := s.nextId
    let s := (s.newId).modVf x.vf fun v => { v with launches := no }
    let s := rs.foldl (fun s r => s.keepArea id r.rake) s
    (({ s with hauls := s.hauls ++ [x.haul id no s.dev.time h ls rs] } : State).completeSaved id, .ok id)

end Sys2Proof.Machine
end

