-- ==== Sys2Proof/Machine/Tasks.lean ====
section
/-! DEFINITION. Tasks: the TCB, releases, and the task instructions (R43, R44, R79 to R84, R319 to R321). -/

namespace Sys2Proof.Machine

/-! ### The TCB at its pkg home (R43) -/

def tWaiting : Nat := 0
def tReady : Nat := 1
def tRunning : Nat := 2
def tDone : Nat := 3
def tDiscarded : Nat := 4
def tFailed : Nat := 5

/-- STATUS of the TCB at a home. -/
def State.tstatus (s : State) (t : Nat) : Nat := s.peekNat t 1
/-- PRED of the TCB at a home. -/
def State.tpred (s : State) (t : Nat) : Nat := s.peekNat (t + 4) 4
/-- FLAGS.SPEC of the TCB at a home. -/
def State.tspec (s : State) (t : Nat) : Bool := (s.peekNat (t + 1) 1).testBit 0
/-- Write a field of a TCB, where the port of the writer reaches it (R357, R368; log 79). -/
def State.tcbPut (s : State) (x : Ctx) (t off n v : Nat) : State :=
  s.atPort x.port t fun s => s.poke (x.vf, x.asid) (t + off) (leBytes n v)

/-- A TCB that may not be started (R44). -/
def State.tcbBad (s : State) (t : Nat) : Bool :=
  let b := s.peek t 64
  decide (2 ≤ field b 1 1) || field b 2 2 != 0 || field b 0x14 4 != 0 || field b 0x30 16 != 0 || decide (65535 < field b 0x10 4)

/-- The publish sets a TCB names (R43). -/
def State.tcbSets (s : State) (t : Nat) : List Nat :=
  ((List.range 4).map fun i => s.peekNat (t + 0x20 + 2 * i) 2).filter (· != 0xFFFF)

/-- The record of a TCB held as spawned (R320). -/
def State.held? (s : State) (vf t : Nat) : Option Held := (s.vf vf).tasks.find? fun h => h.tcb == t

/-- Hold a TCB, if it is not held already. -/
def State.hold (s : State) (vf : Nat) (h : Held) : State :=
  if (s.held? vf h.tcb).isSome then s else s.modVf vf fun v => { v with tasks := v.tasks ++ [h] }

/-- The device no longer holds a TCB (R320). -/
def State.unhold (s : State) (vf t : Nat) : State :=
  s.modVf vf fun v => { v with
    tasks := v.tasks.filter fun h => h.tcb != t
    ready := v.ready.filter fun p => p.1 != t }

/-- RESULT of a task that ends with a status: DETAIL above it (R373). -/
def resultOf (status : Nat) (detail : Word) : Nat := status + detail.toNat * 2 ^ 32

/-- DETAIL of a refusal: for HWERR the unit code of the memory an image and a TCB lie in, 8 (R373, R383). -/
def refusalDetail (status : Nat) : Word := if status = 9 then 8 else 0

/-- The task fails: STATUS FAILED and RESULT (R44, R79). -/
def State.failTask (s : State) (vf : Nat) (x : Ctx) (t status : Nat) : State :=
  ((s.tcbPut x t 0 1 tFailed).tcbPut x t 0x28 8 (resultOf status (refusalDetail status))).unhold vf t

/-- The context of a held task's address space (R79). -/
def State.heldCtx (s : State) (vf : Nat) (h : Held) : Ctx := s.ctrlCtx vf h.pasid h.asid h.ptroot

/-- The priority of a task on the ready list: PRIO of the image it names, as the leader reads it (R79). -/
def State.taskPrio (s : State) (x : Ctx) (t : Nat) : Nat :=
  match (s.readVa { x with port := ctrlPort s.leaderDie } (s.peekNat (t + 0x18) 8 + 7) 1).2 with
  | .ok b => leNat b % 4
  | _ => 0

/-- Put a task into a ready list: by priority, then by the time of readiness (R79). -/
def joinReady (l : List (Nat × Nat)) (t prio : Nat) : List (Nat × Nat) :=
  l.takeWhile (fun p => decide (prio ≤ p.2)) ++ (t, prio) :: l.dropWhile fun p => decide (prio ≤ p.2)

/-- A task becomes READY and joins its VF's ready list (R79, R81). -/
def State.makeReady (s : State) (vf : Nat) (x : Ctx) (t : Nat) : State :=
  let p := s.taskPrio x t
  (s.tcbPut x t 0 1 tReady).modVf vf fun v => { v with ready := joinReady v.ready t p }

/-! ### Releases (R80, R81) -/

/-- The context of a release: the haul's address space, at the port of the quad that releases (R20, R357). -/
def State.releaseCtx (s : State) (h : Haul) (quad : Nat) : Ctx := { s.haulCtx h with port := quad }

/-- The step of a release on one successor: the state, KIND and COUNT of its event record (R81, R82). A TCB that the release
cannot reach takes the last row; one nobody spawned that becomes READY runs in the releaser's address space (log 18). -/
def State.releaseStep (s : State) (h : Haul) (quad va : Nat) : State × Nat × Nat :=
  let x := s.releaseCtx h quad
  if va % 64 ≠ 0 then (s, 4, 0)
  else match s.translate x .store va with
    | (s, .found t _ _) =>
      if s.poisoned t 64 then (s, 4, 0)
      else
        let pred := s.tpred t
        let st := s.tstatus t
        let open_ := st == tRunning && s.tspec t && ((s.held? h.vf t).map fun r => r.spec && !r.committed).getD false
        if st = tWaiting ∧ 1 < pred ∨ open_ ∧ 1 < pred then (s.tcbPut x t 4 4 (pred - 1), 2, pred - 1)
        else if st = tWaiting ∧ pred = 1 then
          let s := s.tcbPut x t 4 4 0
          let s := s.hold h.vf
            { tcb := t, pasid := h.pasid, asid := h.asid, ptroot := h.ptroot, vaddr := va, spec := false, committed := false }
          let y := match s.held? h.vf t with
            | some r => s.heldCtx h.vf r
            | none => s.haulCtx h
          (s.makeReady h.vf { y with port := quad } t, 3, 0)
        else if open_ ∧ pred = 1 then (s.tcbPut x t 4 4 0, 3, 0)
        else (s, 4, 0)
    | (s, _) => (s, 4, 0)

/-- Release successors one by one, each with its event record (R81). -/
def State.releaseEach (h : Haul) (quad : Nat) (src : Byte) : List Nat → State → State
  | [], s => s
  | va :: t, s =>
    let r := s.releaseStep h quad va
    let e : EventRec := {
      kind := BitVec.ofNat 8 r.2.1, status := 0, src := src, chan := 0, count := BitVec.ofNat 32 r.2.2
      addr := BitVec.ofNat 64 va }
    State.releaseEach h quad src t (r.1.modQuad quad fun q => q.post e)

/-- The dwords of a byte list. -/
def dwordsOf : Nat → List Byte → List Nat
  | 0, _ => []
  | n + 1, b => leNat (b.take 8) :: dwordsOf n (b.drop 8)

/-- A task releases its successors, once (R80); an uncommitted speculative task's release is held (R84). With a TCB that the
releasing quad's port does not reach (log 79), or a list that cannot be read (DESIGN CHOICE, log 18), the release is done and steps no
successor. -/
def State.releaseTask (s : State) (h : Haul) (quad : Nat) (src : Byte) : State :=
  match h.tcb with
  | none => s
  | some t =>
    if h.released then s
    else if h.spec && !h.committed then s.modHaul h.id fun h => { h with heldRelease := true }
    else
      let s := s.modHaul h.id fun h => { h with released := true, heldRelease := false }
      let n := s.peekNat (t + 0x10) 4
      if !s.portSees quad t then s.refusePort quad t
      else match s.readVa (s.releaseCtx h quad) (s.peekNat (t + 8) 8) (8 * n) with
      | (s, .ok b) => State.releaseEach h quad src (dwordsOf n b) s
      | (s, _) => s

/-- Whether a haul is the latest that runs its TCB, and the TCB has not been spawned anew since it was discarded (R320). -/
def State.ownsTcb (s : State) (h : Haul) (t : Nat) : Bool :=
  (((s.hauls.filter fun k => k.tcb == some t && k.vf == h.vf).getLast?).map (·.id)) == some h.id &&
  ((h.ended.map (·.1)) != some 10 || (s.held? h.vf t).isNone)

/-- Step 2 of a task's retirement: STATUS, RESULT and the release (R80, R84, R372, R374). -/
def State.retireTask (s : State) (h : Haul) : State :=
  match h.tcb with
  | none => s
  | some t =>
    let x := s.haulCtx h
    let e := h.ended.getD (0, 0, 0)
    if !s.ownsTcb h t then s
    else
      let s := s.tcbPut x t 0x28 8 (resultOf e.1 e.2.1)
      if e.1 = 0 then
        if h.spec && !h.committed then s.releaseTask h h.last.1 h.last.2
        else ((s.tcbPut x t 0 1 tDone).unhold h.vf t).releaseTask h h.last.1 h.last.2
      else (s.tcbPut x t 0 1 (if e.1 = 10 then tDiscarded else tFailed)).unhold h.vf t

/-! ### Dispatch (R79) -/

/-- What a task's haul comes from. -/
def State.taskSource (s : State) (vf : Nat) (h : Held) (spec : Bool) : Source where
  vf := vf
  pasid := h.pasid
  asid := h.asid
  root := h.ptroot
  cap := 3
  image := s.peekNat (h.tcb + 0x18) 8
  record := 0
  signal := 0
  packet := none
  qno := none
  tcb := some h.tcb
  spec := spec
  psets := s.tcbSets h.tcb

/-- Start a held task: RUNNING, or FAILED with the refusal's status (R44, R79, R84). A TCB that R44 refuses is never
started, whoever made it ready; its image is checked here, where the leader hands it on (log 18). One that the leader's port does
not reach is given up (log 79). -/
def State.startTask (s : State) (vf : Nat) (h : Held) (spec : Bool) : State :=
  let x := s.heldCtx vf h
  if !s.portSees x.port h.tcb then (s.refusePort x.port h.tcb).unhold vf h.tcb
  else if s.poisoned h.tcb 64 then s.failTask vf x h.tcb 9
  else if s.tcbBad h.tcb then s.failTask vf x h.tcb 1
  else match s.launch (s.taskSource vf h spec) with
  | (s, .error e) => s.failTask vf x h.tcb e
  | (s, .ok _) =>
    let s := s.tcbPut x h.tcb 0 1 tRunning
    if spec then s.tcbPut x h.tcb 1 1 1 else s

/-- TASK_DISPATCH: the leader starts the head of a VF's ready list (R79). -/
def execTaskDispatch (vf : Nat) (s : State) : Host.Outcome State Fault Refusal :=
  .next (match (s.vf vf).ready with
    | [] => s
    | (t, _) :: rest =>
      if !s.leads ∨ (s.vf vf).blackout.isSome ∨ (s.vf vf).flrb then s
      else
        let s := s.modVf vf fun v => { v with ready := rest }
        match s.held? vf t with
        | none => s
        | some h => s.startTask vf h false)

/-! ### The task instructions (R319 to R321) -/

/-- The checks of R319: the TCB's home, or none after a trap. A trap of a speculative issuer changes nothing (R321). -/
def State.tcbAccess (s : State) (a : BitVec 6) : State × Option Nat :=
  let x := (s.co.greg a).toNat
  if x % 64 ≠ 0 then (s.trapAll (causeAddr cMisal x), none)
  else match s.translate { s.ctx with spec := none } .store x with
    | (s', .found t _ _) =>
      if s.ctx.spec.isSome then (s.trapAll (causeAddr cSpecw x), none)
      else if s'.poisoned t 64 then (s'.eccMask s'.co.masks.exm (causeAddr cEcc x), none)
      else (s', some t)
    | (s, .absent _ _) => (s.trapAll (causeAddr cNres x), none)
    | (s, .ecc) => (s.trapAll (causeAddr cEcc x), none)
    | (s, _) => (s.trapAll (causeAddr cProt x), none)

/-- The record of a TCB that the coach in focus spawns (R79). -/
def State.newHeld (s : State) (t va : Nat) (spec : Bool) : Held where
  tcb := t
  pasid := s.ctx.pasid
  asid := s.co.special.asid
  ptroot := s.co.special.ptbase
  vaddr := va
  spec := spec
  committed := false

/-- TSPAWN (R44, R79, R320). -/
def execTspawn (m : Bool) (a : BitVec 6) (s : State) : Host.Outcome State Fault Refusal :=
  word m s fun s =>
    match s.tcbAccess a with
    | (s, none) => s
    | (s, some t) =>
      let s := s.publish 4
      let vf := s.ctx.vf
      if (s.held? vf t).isSome then s
      else
        let h := s.newHeld t (s.co.greg a).toNat false
        let x := { s.heldCtx vf h with port := s.ctx.port }
        if s.tcbBad t then s.failTask vf x t 1
        else
          let s := s.hold vf h
          if s.tpred t = 0 then s.makeReady vf x t else s.tcbPut x t 0 1 tWaiting

/-- TDONE: publish, then the task's release; a full event queue keeps the coach here (R80, R83, R320). -/
def execTdone (m : Bool) (s : State) : Host.Outcome State Fault Refusal :=
  word m s fun s =>
    let s := s.publish 4
    match s.haul? s.co.ident.haul with
    | none => s
    | some h =>
      let s := s.releaseTask h (s.co.ident.core / 4) s.co.src
      if s.holdsEvent s.co then s.modCo fun c => c.endRun .tdone else s

/-- TSPEC (R84, R320). A TCB that an earlier TSPAWN holds runs in the address space of that spawner: DESIGN CHOICE, log 80. -/
def execTspec (m : Bool) (a : BitVec 6) (s : State) : Host.Outcome State Fault Refusal :=
  word m s fun s =>
    match s.tcbAccess a with
    | (s, none) => s
    | (s, some t) =>
      let s := s.publish 4
      let vf := s.ctx.vf
      if 2 ≤ s.tstatus t then s
      else
        let h := s.newHeld t (s.co.greg a).toNat true
        let x := { s.heldCtx vf h with port := s.ctx.port }
        if s.tcbBad t then s.failTask vf x t 1
        else
          let h := match s.held? vf t with
            | some r => { r with spec := true }
            | none => h
          ((s.unhold vf t).hold vf h).startTask vf h true

/-- The haul of a speculative, uncommitted task, retired or not: the latest that runs the TCB. -/
def State.specHaul (s : State) (vf t : Nat) : Option Haul :=
  match s.held? vf t with
  | none => none
  | some r =>
    if r.spec && !r.committed then
      (s.hauls.filter fun h => h.tcb == some t && h.spec && !h.committed && h.vf == vf).getLast?
    else none

/-- TCOMMIT: the task is committed, its sets publish, and a held release is made (R84, R237, R320). A task that has already
retired is then DONE: DEDUCED, log 18. Where the port of the coach's quad does not reach the entry of a set it names, it traps and
changes nothing (R357; log 79). -/
def execTcommit (m : Bool) (a : BitVec 6) (s : State) : Host.Outcome State Fault Refusal :=
  word m s fun s =>
    match s.tcbAccess a with
    | (s, none) => s
    | (s, some t) =>
      let vf := s.ctx.vf
      match s.specHaul vf t with
      | none => s
      | some h =>
        match h.psets.findSome? fun n => (s.pset? vf n).filter fun p => !s.portSees s.ctx.port p.entry with
        | some p => s.trapAll (causeAddr cProt p.entry)
        | none =>
        let x := { s.haulCtx h with port := s.ctx.port }
        let s := s.modHaul h.id fun h => { h with committed := true }
        let s := s.modVf vf fun v => { v with
          tasks := v.tasks.map fun r => if r.tcb = t then { r with committed := true } else r }
        let s := h.psets.foldl (fun s n => s.publishSet vf n) s
        let s := if h.retired then (s.tcbPut x t 0 1 tDone).unhold vf t else s
        if h.heldRelease then s.releaseTask { h with committed := true } (s.co.ident.core / 4) s.co.src else s

/-- TDISCARD: the task's rakes are killed, and it is DISCARDED (R84, R320, R374). -/
def execTdiscard (m : Bool) (a : BitVec 6) (s : State) : Host.Outcome State Fault Refusal :=
  word m s fun s =>
    match s.tcbAccess a with
    | (s, none) => s
    | (s, some t) =>
      let vf := s.ctx.vf
      match s.specHaul vf t with
      | none => s
      | some h =>
        let s := (s.tcbPut { s.haulCtx h with port := s.ctx.port } t 0 1 tDiscarded).unhold vf t
        if h.retired then s.modHaul h.id fun h => { h with heldRelease := false, released := true }
        else s.stopHaul h.id 10 0 0

end Sys2Proof.Machine
end

