-- ==== Sys2Proof/Machine/Ray.lean ====
section
/-! DEFINITION. The geometry of views in exact real arithmetic (R276, R280 to R282, R401): numbers built from rationals and
three square roots, rays, boxes, triangles, and the one rounding of a reported value. -/

namespace Sys2Proof.Machine

/-! ### Rationals with square roots -/

/-- Numbers with n square roots adjoined: x + y √r for each level. -/
abbrev Surd : Nat → Type
  | 0 => Rat
  | n + 1 => Surd n × Surd n

/-- The rational x as a number of level n. -/
def Surd.ofRat : (n : Nat) → Rat → Surd n
  | 0, x => x
  | n + 1, x => (Surd.ofRat n x, Surd.ofRat n 0)

/-- Sum. -/
def Surd.add : (n : Nat) → Surd n → Surd n → Surd n
  | 0, x, y => (show Rat from x) + (show Rat from y)
  | n + 1, x, y => (Surd.add n x.1 y.1, Surd.add n x.2 y.2)

/-- Product with a rational. -/
def Surd.scale (c : Rat) : (n : Nat) → Surd n → Surd n
  | 0, x => c * (show Rat from x)
  | n + 1, x => (Surd.scale c n x.1, Surd.scale c n x.2)

/-- Product; r n is the radicand of level n + 1. -/
def Surd.mul (r : Nat → Rat) : (n : Nat) → Surd n → Surd n → Surd n
  | 0, x, y => (show Rat from x) * (show Rat from y)
  | n + 1, x, y =>
    (Surd.add n (Surd.mul r n x.1 y.1) (Surd.scale (r n) n (Surd.mul r n x.2 y.2)),
      Surd.add n (Surd.mul r n x.1 y.2) (Surd.mul r n x.2 y.1))

/-- The sign of a rational. -/
def signRat (x : Rat) : Int := if 0 < x then 1 else if x < 0 then -1 else 0

/-- The sign: where the two parts disagree, that of the part with the greater square. -/
def Surd.sign (r : Nat → Rat) : (n : Nat) → Surd n → Int
  | 0, x => signRat x
  | n + 1, x =>
    let a := Surd.sign r n x.1
    let b := if r n = 0 then 0 else Surd.sign r n x.2
    if b = 0 ∨ a = b then a
    else if a = 0 then b
    else a * Surd.sign r n (Surd.add n (Surd.mul r n x.1 x.1) (Surd.scale (-r n) n (Surd.mul r n x.2 x.2)))

/-- The numbers of a view: the rationals with the square roots of three radicands. -/
abbrev Real3 := Surd 3

/-- The three radicands of a pixel's numbers. -/
structure Roots where
  a : Rat
  b : Rat
  c : Rat
  deriving DecidableEq, Repr

/-- Radicand of each level. -/
def Roots.at (r : Roots) (n : Nat) : Rat := if n = 0 then r.a else if n = 1 then r.b else r.c

/-- A rational. -/
def rl (x : Rat) : Real3 := Surd.ofRat 3 x
/-- x √a. -/
def rootA (x : Rat) : Real3 := (((0, x), (0, 0)), ((0, 0), (0, 0)))
/-- x √b. -/
def rootB (x : Rat) : Real3 := (((0, 0), (x, 0)), ((0, 0), (0, 0)))
/-- x √c. -/
def rootC (x : Rat) : Real3 := (((0, 0), (0, 0)), ((x, 0), (0, 0)))

def Roots.mul (r : Roots) (x y : Real3) : Real3 := Surd.mul r.at 3 x y
def Roots.sign (r : Roots) (x : Real3) : Int := Surd.sign r.at 3 x
def radd (x y : Real3) : Real3 := Surd.add 3 x y
def rscale (c : Rat) (x : Real3) : Real3 := Surd.scale c 3 x
def rsub (x y : Real3) : Real3 := radd x (rscale (-1) y)

/-! ### Vectors -/

/-- A vector of three numbers. -/
structure Vec3 (α : Type) where
  x : α
  y : α
  z : α
  deriving DecidableEq, Repr

def Vec3.map {α β : Type} (f : α → β) (v : Vec3 α) : Vec3 β := { x := f v.x, y := f v.y, z := f v.z }
def Vec3.zip {α β γ : Type} (f : α → β → γ) (v : Vec3 α) (w : Vec3 β) : Vec3 γ :=
  { x := f v.x w.x, y := f v.y w.y, z := f v.z w.z }
def Vec3.list {α : Type} (v : Vec3 α) : List α := [v.x, v.y, v.z]

/-- Vectors of rationals. -/
abbrev RVec := Vec3 Rat
def RVec.add (v w : RVec) : RVec := Vec3.zip (· + ·) v w
def RVec.sub (v w : RVec) : RVec := Vec3.zip (· - ·) v w
def RVec.scale (c : Rat) (v : RVec) : RVec := Vec3.map (c * ·) v
def RVec.dot (v w : RVec) : Rat := v.x * w.x + v.y * w.y + v.z * w.z
def RVec.cross (v w : RVec) : RVec where
  x := v.y * w.z - v.z * w.y
  y := v.z * w.x - v.x * w.z
  z := v.x * w.y - v.y * w.x

/-- Vectors of a view's numbers. -/
abbrev XVec := Vec3 Real3
def RVec.lift (v : RVec) : XVec := Vec3.map rl v
def XVec.add (v w : XVec) : XVec := Vec3.zip radd v w
def Roots.dot (r : Roots) (v w : XVec) : Real3 := radd (r.mul v.x w.x) (radd (r.mul v.y w.y) (r.mul v.z w.z))
/-- Dot product with a rational vector. -/
def rdot (w : RVec) (v : XVec) : Real3 := radd (rscale w.x v.x) (radd (rscale w.y v.y) (rscale w.z v.z))
/-- Cross product with a rational vector. -/
def rcross (v : XVec) (w : RVec) : XVec where
  x := rsub (rscale w.z v.y) (rscale w.y v.z)
  y := rsub (rscale w.x v.z) (rscale w.z v.x)
  z := rsub (rscale w.y v.x) (rscale w.x v.y)

/-! ### F32 values -/

/-- The value of a finite F32 word. -/
def f32Val (w : Word) : Option Rat :=
  match unpack 23 w.toNat with
  | .fin neg m e => some ((if neg then -1 else 1) * (m : Rat) * (if 0 ≤ e then (2 : Rat) ^ e.toNat else 1 / (2 : Rat) ^ (-e).toNat))
  | _ => none

/-- Whether a word is +∞. -/
def isPosInf (w : Word) : Bool := w == 0x7F800000#32

/-- Three finite words as a vector. -/
def vecVal (a b c : Word) : Option RVec :=
  match f32Val a, f32Val b, f32Val c with
  | some x, some y, some z => some { x := x, y := y, z := z }
  | _, _, _ => none

/-- The value of a non-negative F32 pattern; the one after the largest finite stands for 2^128. -/
def patVal (n : Nat) : Rat := if n = 0x7F800000 then 2 ^ 128 else (f32Val (BitVec.ofNat 32 n)).getD 0

/-- The F32 word nearest a magnitude under RNE, cmp r being the sign of the magnitude less r (R401). -/
def roundMag (cmp : Rat → Int) : Nat :=
  let m := (List.range 31).foldl (fun m i =>
    let c := m + 2 ^ (30 - i)
    if c ≤ 0x7F7FFFFF ∧ 0 ≤ cmp (patVal c) then c else m) 0
  let k := cmp ((patVal m + patVal (m + 1)) / 2)
  if 0 < k then m + 1 else if k = 0 then m + m % 2 else m

/-- The word of a sign and a magnitude. -/
def roundSigned (sign : Int) (cmp : Rat → Int) : Word :=
  if sign = 0 then 0 else BitVec.ofNat 32 (roundMag cmp + if sign < 0 then 2 ^ 31 else 0)

/-- The quotient n / d rounded, d > 0. -/
def Roots.round (r : Roots) (n d : Real3) : Word :=
  let s := r.sign n
  roundSigned s fun q => r.sign (rsub (rscale s n) (rscale q d))

/-- The square root of n² × m / d² rounded with the sign of n, d > 0. -/
def Roots.roundRoot (r : Roots) (n m d : Real3) : Word :=
  let sq := r.mul (r.mul n n) m
  let dd := r.mul d d
  roundSigned (r.sign n) fun q => r.sign (rsub sq (rscale (q * q) dd))

/-- The quotient n / √m rounded, m > 0. -/
def Roots.roundOver (r : Roots) (n m : Real3) : Word :=
  let sq := r.mul n n
  roundSigned (r.sign n) fun q => r.sign (rsub sq (rscale (q * q) m))

/-! ### Rays (R280, R281) -/

/-- A ray: origin, direction before normalising (up to a positive factor), and the radicands of its numbers. -/
structure Ray where
  roots : Roots
  org   : XVec
  dir   : XVec
  deriving DecidableEq

/-- The camera vectors a pixel's ray is made of, each rational vector times 1, √a, √b or √a √b over a common positive
factor: FWD, RIGHT, UP. -/
structure Basis where
  a   : Rat
  b   : Rat
  /-- FWD, RIGHT and UP as directions -/
  fwd   : XVec
  right : XVec
  up    : XVec
  /-- RIGHT and UP at their lengths, for an orthographic origin -/
  right1 : XVec
  up1    : XVec
  deriving DecidableEq

/-- The basis of a camera given by its vectors. -/
def Basis.plain (f r u : RVec) : Basis where
  a := 0
  b := 0
  fwd := RVec.lift f
  right := RVec.lift r
  up := RVec.lift u
  right1 := RVec.lift r
  up1 := RVec.lift u

/-- The unit axis i. -/
def axis (i : Nat) : RVec where
  x := if i % 3 = 0 then 1 else 0
  y := if i % 3 = 1 then 1 else 0
  z := if i % 3 = 2 then 1 else 0

/-- The lowest axis along the smallest-magnitude component (R281). -/
def smallAxis (v : RVec) : Nat :=
  let m (x : Rat) : Rat := if x < 0 then -x else x
  if m v.x ≤ m v.y ∧ m v.x ≤ m v.z then 0 else if m v.y ≤ m v.z then 1 else 2

/-- The stand-in for UP that R281 takes with forward vector f: |F × Û| < 2^−20 where |f × Û|² < |f|² × 2^−40. -/
def upFor (f u : RVec) : RVec :=
  let ok (w : RVec) : Bool := decide (RVec.dot f f / 2 ^ 40 ≤ RVec.dot (RVec.cross f w) (RVec.cross f w))
  let i := smallAxis u
  if ok u then u else if ok (axis i) then axis i else if ok (axis (i + 1)) then axis (i + 1) else axis (i + 2)

/-- The basis VIEWL builds from f and the camera's UP (R281): with a = |f|² and b = |f × Û|², F = f / √a, RIGHT = (f × Û) / √b
and UP = ((f × Û) × f) / (√a √b); directions are these times √a √b. -/
def Basis.built (f u : RVec) : Basis :=
  let r := RVec.cross f (upFor f u)
  let w := RVec.cross r f
  let a := RVec.dot f f
  let b := RVec.dot r r
  let ab (x : Rat) : Real3 := (((0, 0), (0, x)), ((0, 0), (0, 0)))
  { a := a
    b := b
    fwd := Vec3.map rootB f
    right := Vec3.map rootA r
    up := RVec.lift w
    right1 := Vec3.map (fun x => rootB (x / b)) r
    up1 := Vec3.map (fun x => ab (x / (a * b))) w }

/-- The ray of pixel i of a W × W view (R280), none for a pixel without a ray or with direction zero. -/
def pixelRay (kind : Nat) (org : RVec) (k : Basis) (tanh : Rat) (W i : Nat) : Option Ray :=
  let u : Rat := (2 * (i % W) + 1 : Nat) / (W : Rat) - 1
  let v : Rat := 1 - (2 * (i / W) + 1 : Nat) / (W : Rat)
  let q := 1 - u * u - v * v
  let side (r w : XVec) (c : Rat) : XVec := XVec.add (Vec3.map (rscale (u * c)) r) (Vec3.map (rscale (v * c)) w)
  let rt : Roots := { a := k.a, b := k.b, c := if kind = 2 ∧ 0 ≤ q then q else 0 }
  let out (o d : XVec) : Option Ray :=
    if d.list.all fun x => rt.sign x == 0 then none else some { roots := rt, org := o, dir := d }
  match kind with
  | 0 => out (RVec.lift org) (XVec.add k.fwd (side k.right k.up tanh))
  | 1 => out (XVec.add (RVec.lift org) (side k.right1 k.up1 tanh)) k.fwd
  | _ =>
    if q < 0 then none
    else out (RVec.lift org) (XVec.add (side k.right k.up 1) (Vec3.map (fun x => rt.mul x (rootC 1)) k.fwd))

/-! ### The range of t (R282): s is the parameter along the direction before normalising, t = s |d| -/

/-- NEAR, min(FAR, MAXD) (none for +∞), and |d|². -/
structure Span where
  near : Rat
  far  : Option Rat
  dd   : Real3
  deriving DecidableEq

/-- Whether t at parameter n / d is at least NEAR, d > 0. -/
def Roots.pastNear (r : Roots) (k : Span) (n d : Real3) : Bool :=
  decide (0 ≤ r.sign n) &&
    decide (0 ≤ r.sign (rsub (r.mul (r.mul n n) k.dd) (rscale (k.near * k.near) (r.mul d d))))

/-- Whether t at parameter n / d is at most the far bound, d > 0. -/
def Roots.beforeFar (r : Roots) (k : Span) (n d : Real3) : Bool :=
  match k.far with
  | none => true
  | some f =>
    decide (r.sign n ≤ 0 ∧ 0 ≤ f) ||
      (decide (0 ≤ f) && decide (r.sign (rsub (r.mul (r.mul n n) k.dd) (rscale (f * f) (r.mul d d))) ≤ 0))

/-! ### Boxes (R401) -/

/-- A bound of a box as an extended real: none for a NaN; −1 and 1 stand for −∞ and +∞. -/
inductive Bound where
  | fin (x : Rat)
  | inf (neg : Bool)
  deriving DecidableEq, Repr

/-- A bound from its word. -/
def Bound.ofWord (w : Word) : Option Bound :=
  match unpack 23 w.toNat with
  | .nan _ => none
  | .inf neg => some (.inf neg)
  | _ => (f32Val w).map .fin

/-- Whether x ≤ y. -/
def Bound.le : Bound → Bound → Bool
  | .inf true, _ | _, .inf false => true
  | .fin x, .fin y => decide (x ≤ y)
  | _, _ => false

/-- A box: min and max per axis, none when it is never met for a NaN or an inverted axis. -/
def boxOf (ws : List Word) : Option (List (Bound × Bound)) :=
  let b := ws.map Bound.ofWord
  let pair (i : Nat) : Option (Bound × Bound) :=
    match b[i]?.bind id, b[i + 3]?.bind id with
    | some x, some y => if x.le y then some (x, y) else none
    | _, _ => none
  if b.any Option.isNone then none
  else match pair 0, pair 1, pair 2 with
    | some x, some y, some z => some [x, y, z]
    | _, _, _ => none

/-- The constraints of one axis: lower and upper bounds of the parameter as quotients n / d with d > 0; none when no point
of the ray satisfies it. -/
def Roots.slab (r : Roots) (o d : Real3) (b : Bound × Bound) :
    Option (List (Real3 × Real3) × List (Real3 × Real3)) :=
  let s := r.sign d
  let quot (x : Rat) : Real3 × Real3 := (rscale s (rsub (rl x) o), rscale s d)
  match b with
  | (.inf false, _) | (_, .inf true) => none
  | (lo, hi) =>
    if s = 0 then
      let below := match lo with
        | .fin x => decide (r.sign (rsub o (rl x)) < 0)
        | _ => false
      let above := match hi with
        | .fin x => decide (0 < r.sign (rsub o (rl x)))
        | _ => false
      if below || above then none else some ([], [])
    else
      let l := match lo with
        | .fin x => [quot x]
        | _ => []
      let h := match hi with
        | .fin x => [quot x]
        | _ => []
      some (if 0 < s then (l, h) else (h, l))

/-- Whether the ray meets a box within the span: every lower bound lies at or below every upper bound. -/
def Roots.meets (r : Roots) (k : Span) (o d : XVec) (box : Option (List (Bound × Bound))) : Bool :=
  match box with
  | none => false
  | some bs =>
    match bs with
    | [bx, b2, bz] =>
      match r.slab o.x d.x bx, r.slab o.y d.y b2, r.slab o.z d.z bz with
      | some p, some q, some t =>
        let lo := p.1 ++ q.1 ++ t.1
        let hi := p.2 ++ q.2 ++ t.2
        (match k.far with
          | none => true
          | some f => decide (k.near ≤ f)) &&
        lo.all (fun x => hi.all fun y => decide (r.sign (rsub (r.mul x.1 y.2) (r.mul y.1 x.2)) ≤ 0)) &&
        hi.all (fun y => r.pastNear k y.1 y.2) && lo.all fun x => r.beforeFar k x.1 x.2
      | _, _, _ => false
    | _ => false

/-! ### Triangles (R401) -/

/-- A hit: the parameter num / den (den > 0), the barycentric numerators, the facing, and which instance and triangle. -/
structure Hit where
  num  : Real3
  den  : Real3
  b1   : Real3
  b2   : Real3
  face : Bool
  inst : Nat
  tri  : Nat
  instId : Nat
  prim : Nat
  mat  : Word
  deriving DecidableEq

/-- The intersection of a ray, in object space, with a triangle within the span: parameter, denominator, b1, b2, facing. -/
def Roots.triangle (r : Roots) (k : Span) (o d : XVec) (v0 v1 v2 : RVec) : Option (Real3 × Real3 × Real3 × Real3 × Bool) :=
  let e1 := RVec.sub v1 v0
  let e2 := RVec.sub v2 v0
  let p := rcross d e2
  let det := rdot e1 p
  let s := r.sign det
  if s = 0 then none
  else
    let t := XVec.add o (RVec.lift (RVec.scale (-1) v0))
    let q := rcross t e1
    let a := rscale s det
    let b1 := rscale s (r.dot t p)
    let b2 := rscale s (r.dot d q)
    let n := rscale s (rdot e2 q)
    if decide (r.sign b1 < 0) || decide (r.sign b2 < 0) || decide (r.sign (rsub a (radd b1 b2)) < 0) ||
        !r.pastNear k n a || !r.beforeFar k n a then none
    else some (n, a, b1, b2, decide (0 < s))

/-- Whether hit x comes before hit y: nearer, then the lower instance, then the lower triangle (R282). -/
def Roots.before (r : Roots) (x y : Hit) : Bool :=
  let s := r.sign (rsub (r.mul x.num y.den) (r.mul y.num x.den))
  decide (s < 0) || (s == 0 && (decide (x.inst < y.inst) || (x.inst == y.inst && decide (x.tri < y.tri))))

/-- The nearer of the hit found so far and a new one. -/
def Roots.better (r : Roots) (best : Option Hit) (h : Hit) : Option Hit :=
  match best with
  | none => some h
  | some b => if r.before h b then some h else some b

/-! ### Instances (R274, R276) -/

/-- A 3 × 4 transform of finite words, row-major. -/
def xformOf (ws : List Word) : Option (List Rat) :=
  let v := ws.map f32Val
  if v.all Option.isSome then some (v.filterMap id) else none

/-- The linear part of a transform applied to a vector. -/
def linear (m : List Rat) (v : XVec) : XVec :=
  let row (i : Nat) : RVec := { x := (m[4 * i]?).getD 0, y := (m[4 * i + 1]?).getD 0, z := (m[4 * i + 2]?).getD 0 }
  { x := rdot (row 0) v, y := rdot (row 1) v, z := rdot (row 2) v }

/-- The translation column of a transform. -/
def column3 (m : List Rat) : RVec := { x := (m[3]?).getD 0, y := (m[7]?).getD 0, z := (m[11]?).getD 0 }

/-- 2^e as a rational. -/
def pow2 (e : Int) : Rat := if 0 ≤ e then (2 : Rat) ^ e.toNat else 1 / (2 : Rat) ^ (-e).toNat

/-- The level of detail (R276): with λ = log2(d / LODD) + LODB / 256, the number of k from 0 up to NLOD − 2 with λ ≥ k, where
λ ≥ k holds exactly when (d² / LODD²)^128 ≥ 2^(256 k − LODB); LODD is none for +∞. -/
def lodOf (org at_ : RVec) (lodd : Option Rat) (lodb : Int) (nlod : Nat) : Nat :=
  let d2 := RVec.dot (RVec.sub org at_) (RVec.sub org at_)
  match lodd with
  | none => 0
  | some l =>
    if d2 = 0 then 0
    else
      let x := (d2 / (l * l)) ^ 128
      ((List.range (nlod - 1)).filter fun (k : Nat) => decide (pow2 (256 * (k : Int) - lodb) ≤ x)).length

end Sys2Proof.Machine
end

