-- ==== Sys2Proof/Machine/Views.lean ====
section
/-! DEFINITION. Views: records, requests, traversal, shading coaches, tickets and tiles (R271 to R294). -/

namespace Sys2Proof.Machine

/-! ### The records (R271 to R275) -/

/-- Word i of a record. -/
def wordAt (b : List Byte) (i : Nat) : Word := BitVec.ofNat 32 (field b (4 * i) 4)

/-- The descriptor in 64 bytes (R271). -/
def ViewDesc.ofBytes (b : List Byte) : ViewDesc where
  cam := field b 0 8
  scene := field b 8 8
  cut := BitVec.ofNat 64 (field b 0x10 8)
  shseg := field b 0x18 8
  entry := field b 0x20 4
  shlen := field b 0x24 4
  res := field b 0x28 1
  shpl := field b 0x29 1
  out0 := field b 0x2A 1
  out1 := field b 0x2B 1
  lodb := (BitVec.ofNat 16 (field b 0x2C 2)).toInt
  fill := wordAt b 12
  maxd := wordAt b 13
  sharg := BitVec.ofNat 64 (field b 0x38 8)

/-- Whether a word is an F32 value greater than 0, +∞ allowed. -/
def positive (w : Word) : Bool := isPosInf w || decide (0 < (f32Val w).getD 0)

/-- A descriptor that breaks R271. -/
def viewBad (b : List Byte) : Bool :=
  let d := ViewDesc.ofBytes b
  d.cam % 64 != 0 || d.scene % 64 != 0 || decide (4 ≤ d.res) || d.out0 == 0 || decide (4 ≤ d.out0) || decide (4 ≤ d.out1) ||
  field b 0x2E 2 != 0 || !positive d.maxd ||
  (if d.shseg = 0 then d.entry != 0 || d.shlen != 0 || d.shpl != 0 || d.sharg != 0 || d.out0 == 1 || d.out1 == 1
   else d.shlen == 0 || decide (2 ^ 20 < d.shlen) || decide (d.shlen ≤ d.entry) || decide (d.shpl < 2) || decide (4 < d.shpl) ||
     decide (2 ^ 52 ≤ d.shseg) || d.shseg % (segOf d.shseg d.shpl d.shlen).stride != 0)

/-- Pixel words of a pixel, side, and pixels of a view (R271). -/
def ViewDesc.words (d : ViewDesc) : Nat := if d.out1 = 0 then 1 else 2
def ViewDesc.side (d : ViewDesc) : Nat := 2 ^ (d.res + 1)
def ViewDesc.pixels (d : ViewDesc) : Nat := d.side * d.side

/-- The camera record in 64 bytes (R272). -/
def Camera.ofBytes (b : List Byte) : Camera where
  vecs := Vector.ofFn fun i => wordAt b i.val
  kind := field b 0x30 1
  tanh := wordAt b 13
  near := wordAt b 14
  far := wordAt b 15

/-- Vector i of a camera: ORG, FWD, RIGHT, UP. -/
def Camera.vec (c : Camera) (i : Nat) : Option RVec :=
  vecVal (vget c.vecs (3 * i)) (vget c.vecs (3 * i + 1)) (vget c.vecs (3 * i + 2))

/-- A camera that breaks R272. -/
def cameraBad (b : List Byte) : Bool :=
  let c := Camera.ofBytes b
  (List.range 4).any (fun i => (c.vec i).isNone) ||
  (match c.vec 1 with
    | some v => RVec.dot v v == 0
    | none => true) ||
  decide (2 < c.kind) || field b 0x31 3 != 0 || (f32Val c.tanh).isNone || (c.kind != 2 && decide ((f32Val c.tanh).getD 0 ≤ 0)) ||
  (f32Val c.near).isNone || decide ((f32Val c.near).getD 0 < 0) ||
  !(isPosInf c.far || ((f32Val c.far).isSome && decide ((f32Val c.near).getD 0 < (f32Val c.far).getD 0)))

/-- The scene header in 64 bytes (R273). -/
def Scene.ofBytes (b : List Byte) : Scene where
  ninst := field b 8 4
  nnode := field b 0xC 4
  inst := field b 0x10 8
  nodes := field b 0x18 8
  tris := field b 0x20 8
  ntri := field b 0x28 4
  topRoot := field b 0x2C 4
  topNodes := field b 0x30 8
  ntop := field b 0x38 4

/-- A scene header that breaks R273. -/
def sceneBad (b : List Byte) : Bool :=
  let s := Scene.ofBytes b
  let count (n m : Nat) : Bool := n == 0 || decide (m < n)
  field b 0 4 != 0x4B424353 || field b 4 2 != 1 || field b 6 2 != 0 || count s.ninst (2 ^ 20) || count s.nnode (2 ^ 30) ||
  count s.ntri (2 ^ 24) || count s.ntop (2 ^ 30) || decide (s.ntop ≤ s.topRoot) || field b 0x3C 4 != 0 ||
  s.inst % 64 != 0 || s.nodes % 64 != 0 || s.tris % 64 != 0 || s.topNodes % 64 != 0

/-- An instance entry that breaks R274. -/
def instanceBad (b : List Byte) : Bool :=
  let n := field b 0x74 1
  n == 0 || decide (4 < n) || (List.range 4).any (fun i => decide (n ≤ i) && field b (0x60 + 4 * i) 4 != 0) ||
  decide (64 ≤ field b 0x75 1) || field b 0x76 2 != 0 || decide (4096 ≤ field b 0x78 4) || field b 0x7C 4 != 0 ||
  !positive (wordAt b 28)

/-! ### Traversal (R282, R401) -/

/-- How a traversal comes out: a value, or the status and the address it ends with. -/
abbrev Trav (α : Type) := Except (Nat × Nat) α

/-- Bytes at a home as a view request has read them: the word of a granule read ahead, else what stands there now; none where a
granule holds an error (R292, R381). -/
def State.peekSeen (s : State) (seen : List (Nat × Option Word)) (h n : Nat) : Option (List Byte) :=
  (List.range n).mapM fun i =>
    let g := granule (h + i)
    let w := match seen.find? fun p => p.1 == g with
      | some p => p.2
      | none => if s.poisoned g 4 then none else some (s.homeWord g)
    w.map fun w => w.extractLsb' (8 * ((h + i) % 4)) 8

/-- Read a scene record piece by piece; FAULT or ECC where a piece fails (R282, R292). -/
def State.sceneRead (x : Ctx) : List (Nat × Nat) → State → State × Trav (List Byte)
  | [], s => (s, .ok [])
  | (a, n) :: t, s =>
    match s.translate x .load a with
    | (s, .found h _ _) =>
      match s.peekSeen x.seen h n with
      | some b =>
        match State.sceneRead x t s with
        | (s, .ok l) => (s, .ok (b ++ l))
        | r => r
      | none => (s, .error (6, a))
    | (s, .ecc) => (s, .error (6, a))
    | (s, _) => (s, .error (5, a))

/-- A child reference that is reserved or reaches beyond its array of n nodes or m leaves (R275, R282). -/
def refBad (n m ref : Nat) : Bool :=
  let low := ref % 2 ^ 30
  match ref / 2 ^ 30 with
  | 0 => low != 0
  | 1 => decide (n ≤ low)
  | 2 => decide (m < low % 2 ^ 24 + low / 2 ^ 24 + 1)
  | _ => true

/-- The leaves of a run, one after the other. -/
def runLeaves {β : Type} (leaf : Nat → β → State → State × Trav β) : List Nat → β → State → State × Trav β
  | [], acc, s => (s, .ok acc)
  | j :: js, acc, s =>
    match leaf j acc s with
    | (s, .ok acc) => runLeaves leaf js acc s
    | r => r

/-- A depth-first walk of a tree of n nodes at an address, over a stack of references, child 0 before child 1: every node
whose box the ray meets is entered and counted, onto a count that the result carries (R401). -/
def State.walkTree {β : Type} (x : Ctx) (base n m : Nat) (r : Roots) (k : Span) (o d : XVec)
    (leaf : Nat → β → State → State × Trav β) : Nat → List Nat → Nat → β → State → State × Trav (Nat × β)
  | 0, _, count, acc, s => (s, .ok (count, acc))
  | _ + 1, [], count, acc, s => (s, .ok (count, acc))
  | fuel + 1, ref :: stack, count, acc, s =>
    let low := ref % 2 ^ 30
    if ref / 2 ^ 30 = 0 then State.walkTree x base n m r k o d leaf fuel stack count acc s
    else if ref / 2 ^ 30 = 2 then
      match runLeaves leaf ((List.range (low / 2 ^ 24 + 1)).map (low % 2 ^ 24 + ·)) acc s with
      | (s, .ok acc) => State.walkTree x base n m r k o d leaf fuel stack count acc s
      | (s, .error e) => (s, .error e)
    else
      let a := base + 64 * low
      if n ≤ low ∨ n ≤ count then (s, .error (4, a))
      else
        match State.sceneRead x (spans a 64) s with
        | (s, .error e) => (s, .error e)
        | (s, .ok b) =>
          let ref0 := field b 0x30 4
          let ref1 := field b 0x34 4
          if field b 0x38 8 ≠ 0 ∨ refBad n m ref0 ∨ refBad n m ref1 then (s, .error (4, a))
          else
            let box (i : Nat) := boxOf ((List.range 6).map fun j => wordAt b (6 * i + j))
            let met (i ref : Nat) : List Nat := if ref / 2 ^ 30 ≠ 0 ∧ r.meets k o d (box i) then [ref] else []
            State.walkTree x base n m r k o d leaf fuel (met 0 ref0 ++ met 1 ref1 ++ stack) (count + 1) acc s

/-- One triangle of an instance (R282, R401). -/
def State.triangleLeaf (x : Ctx) (sc : Scene) (r : Roots) (k : Span) (o d : XVec) (inst instId j : Nat)
    (best : Option Hit) (s : State) : State × Trav (Option Hit) :=
  let a := sc.tris + 48 * j
  match State.sceneRead x (spans a 48) s with
  | (s, .error e) => (s, .error e)
  | (s, .ok b) =>
    if 2 ^ 20 ≤ field b 0x24 4 ∨ field b 0x2C 4 ≠ 0 then (s, .error (4, a))
    else
      let v (i : Nat) := vecVal (wordAt b (3 * i)) (wordAt b (3 * i + 1)) (wordAt b (3 * i + 2))
      match v 0, v 1, v 2 with
      | some v0, some v1, some v2 =>
        (s, .ok (match r.triangle k o d v0 v1 v2 with
          | none => best
          | some (n, den, b1, b2, face) => r.better best {
              num := n, den := den, b1 := b1, b2 := b2, face := face, inst := inst, tri := j, instId := instId,
              prim := field b 0x24 4, mat := wordAt b 10 }))
      | _, _, _ => (s, .ok best)

/-- What a ray has met: its nearest hit, and how many nodes of each instance it has entered (R282). -/
structure Met where
  hit     : Option Hit
  entered : List (Nat × Nat)

/-- One instance: its checks, its cut group, its level of detail, and its tree in object space (R274, R276, R401). -/
def State.instanceLeaf (x : Ctx) (sc : Scene) (desc : ViewDesc) (eye : RVec) (r : Roots) (k : Span) (o d : XVec) (j : Nat)
    (met : Met) (s : State) : State × Trav Met :=
  let a := sc.inst + 128 * j
  match State.sceneRead x (spans a 128) s with
  | (s, .error e) => (s, .error e)
  | (s, .ok b) =>
    if instanceBad b then (s, .error (4, a))
    else if !desc.cut.getLsbD (field b 0x75 1) then (s, .ok met)
    else
      match xformOf ((List.range 12).map (wordAt b)), xformOf ((List.range 12).map fun i => wordAt b (12 + i)) with
      | some m, some im =>
        let l := lodOf eye (column3 m) (f32Val (wordAt b 28)) desc.lodb (field b 0x74 1)
        let o' := XVec.add (linear im o) (RVec.lift (column3 im))
        let d' := linear im d
        let before := ((met.entered.find? fun p => p.1 == j).map (·.2)).getD 0
        let root := field b (0x60 + 4 * l) 4
        if sc.nnode ≤ root then (s, .error (4, sc.nodes + 64 * root))
        else match State.walkTree x sc.nodes sc.nnode sc.ntri r k o' d'
            (fun t acc s => s.triangleLeaf x sc r k o' d' j (field b 0x78 4) t acc)
            (2 * sc.nnode + 4) [2 ^ 30 + root] before met.hit s with
        | (s, .ok (n, best)) => (s, .ok { hit := best, entered := (j, n) :: met.entered.filter fun p => p.1 != j })
        | (s, .error e) => (s, .error e)
      | _, _ => (s, .ok met)

/-- The nearest hit of a ray; eye is the camera origin of R276. -/
def State.castRay (x : Ctx) (sc : Scene) (desc : ViewDesc) (eye : RVec) (near : Rat) (far : Option Rat) (ray : Ray)
    (s : State) : State × Trav (Option Hit) :=
  let r := ray.roots
  let k : Span := { near := near, far := far, dd := r.dot ray.dir ray.dir }
  match State.walkTree x sc.topNodes sc.ntop sc.ninst r k ray.org ray.dir
      (fun j acc s => s.instanceLeaf x sc desc eye r k ray.org ray.dir j acc)
      (2 * sc.ntop + 4) [2 ^ 30 + sc.topRoot] 0 { hit := none, entered := [] : Met } s with
  | (s, .ok (_, met)) => (s, .ok met.hit)
  | (s, .error e) => (s, .error e)

/-! ### Hit records (R284, R290) -/

/-- The 16 fields of a pixel's hit record. -/
def hitFields (ray : Option Ray) (h : Option Hit) (i lane : Nat) : List Word :=
  let none32 := BitVec.allOnes 32
  let dirs : List Word := match ray with
    | none => [0, 0, 0]
    | some y => y.dir.list.map fun c => y.roots.roundOver c (y.roots.dot y.dir y.dir)
  let px := BitVec.ofNat 32 i
  let ln := BitVec.ofNat 32 lane
  match ray, h with
  | some y, some h =>
    let r := y.roots
    let pos (o d : Real3) : Word := r.round (radd (r.mul o h.den) (r.mul h.num d)) h.den
    [r.roundRoot h.num (r.dot y.dir y.dir) h.den, r.round h.b1 h.den, r.round h.b2 h.den, BitVec.ofNat 32 h.instId,
      BitVec.ofNat 32 h.prim, h.mat, if h.face then 1 else 0, pos y.org.x y.dir.x, pos y.org.y y.dir.y,
      pos y.org.z y.dir.z] ++ dirs ++ [px, ln, BitVec.ofNat 32 h.tri]
  | _, _ => [0x7F800000#32, 0, 0, none32, none32, 0, 0, 0, 0, 0] ++ dirs ++ [px, ln, none32]

/-- The default of a pixel word of a kind (R284). -/
def pixelDefault (kind : Nat) (f : List Word) : Word :=
  let at' (i : Nat) : Word := (f[i]?).getD 0
  match kind with
  | 1 => 0
  | 2 => at' 0
  | _ => if at' 15 = BitVec.allOnes 32 then BitVec.allOnes 32 else (at' 3 <<< 20) ||| at' 4

/-! ### A view request (R277 to R283) -/

/-- The views of a request: requesting lane, and the lane's own origin and forward vector under VIEWL. -/
def ViewReq.eyes (v : ViewReq) : List (Nat × Option (List Word)) :=
  match v.lanes with
  | none => [(0, none)]
  | some ls => ls.map fun p => (p.1, some p.2)

/-- Pixels dealt for the request (R283). -/
def ViewReq.dealt (v : ViewReq) : Nat := v.eyes.length * v.desc.pixels

/-- Shading coaches of the request (R283). -/
def ViewReq.ncoach (v : ViewReq) : Nat := if v.desc.shseg = 0 then 0 else (v.dealt + 31) / 32

/-- Whether the request's ticket is complete (R283, R284). -/
def ViewReq.complete (v : ViewReq) : Bool := v.traversed && (v.status != 1 || decide (v.ncoach ≤ v.retired))

/-- Request slots: none held by a request that entered no FIFO (R278). -/
def slotsFor (d : ViewDesc) (lanes : Option (List (Nat × List Word))) : Nat :=
  match lanes with
  | none => 1
  | some ls => (ls.length * d.pixels * d.words * 4 + 2047) / 2048

/-- Context of a view's scene reads: the requester's address space and mode, the quad's port, and what it has read ahead (R292,
R357). -/
def State.viewCtx (s : State) (v : ViewReq) : Ctx :=
  { vf := v.vf
    pasid := ((s.haul? v.haul).map (·.pasid)).getD 0
    asid := v.asid
    root := v.ptbase
    user := v.mode == .u
    port := v.quad
    spec := (s.haul? v.haul).bind fun h => if h.spec && !h.committed then some h.psets else none
    shadow := none
    seen := v.seen }

/-- Origin and basis of one view: of the camera, or of a lane (R280, R281). Every pixel is a miss without an origin, and
without a basis no pixel has a ray. -/
def ViewReq.basis (v : ViewReq) (ws : Option (List Word)) : Option (Option RVec × Basis) :=
  match ws with
  | none =>
    match v.cam.vec 0, v.cam.vec 1, v.cam.vec 2, v.cam.vec 3 with
    | some o, some f, some r, some u => some (some o, Basis.plain f r u)
    | _, _, _, _ => none
  | some w =>
    let at' (i : Nat) : Word := (w[i]?).getD 0
    match vecVal (at' 3) (at' 4) (at' 5), v.cam.vec 3 with
    | some f, some u => if RVec.dot f f = 0 then none else some (vecVal (at' 0) (at' 1) (at' 2), Basis.built f u)
    | _, _ => none

/-- The hit records of pixels of one view; a miss for want of an origin has its ray's direction (R281, R290). -/
def State.tracePixels (v : ViewReq) (lane : Nat) (b : Option (Option RVec × Basis)) :
    List Nat → State → State × Trav (List (List Word))
  | [], s => (s, .ok [])
  | i :: is, s =>
    let near := (f32Val v.cam.near).getD 0
    let far : Option Rat :=
      match f32Val v.cam.far, f32Val v.desc.maxd with
      | some x, some y => some (if x ≤ y then x else y)
      | some x, none => some x
      | none, y => y
    let ray := b.bind fun p => pixelRay v.cam.kind (p.1.getD { x := 0, y := 0, z := 0 }) p.2 ((f32Val v.cam.tanh).getD 0) v.desc.side i
    let got : State × Trav (Option Hit) :=
      match ray, b.bind (·.1) with
      | some y, some o => State.castRay (s.viewCtx v) v.scene v.desc o near far y s
      | _, _ => (s, .ok none)
    match got with
    | (s, .error e) => (s, .error e)
    | (s, .ok h) =>
      match State.tracePixels v lane b is s with
      | (s, .ok l) => (s, .ok (hitFields ray h i lane :: l))
      | r => r

/-- The hit records of every dealt pixel, in the deal order (R283). -/
def State.traceViews (v : ViewReq) : List (Nat × Option (List Word)) → State → State × Trav (List (List Word))
  | [], s => (s, .ok [])
  | (lane, ws) :: t, s =>
    match State.tracePixels v lane (v.basis ws) (List.range v.desc.pixels) s with
    | (s, .error e) => (s, .error e)
    | (s, .ok l) =>
      match State.traceViews v t s with
      | (s, .ok m) => (s, .ok (l ++ m))
      | r => r

/-- The place in a request's tile of pixel word w of dealt pixel p. -/
def ViewReq.place (v : ViewReq) (p w : Nat) : Nat :=
  (p / v.desc.pixels * v.desc.words + w) * v.desc.pixels + p % v.desc.pixels

/-- A request's tile before shading (R284). -/
def ViewReq.defaults (v : ViewReq) (hits : List (List Word)) : List Word :=
  (List.range (v.dealt * v.desc.words)).map fun t =>
    let wh := v.desc.pixels
    let w := t / wh % v.desc.words
    pixelDefault (if w = 0 then v.desc.out0 else v.desc.out1) ((hits[t / (wh * v.desc.words) * wh + t % wh]?).getD [])

/-- VIEW_TRAVERSAL_END (R282, R284); the engine pauses while the quad's clock changes (R376). -/
def execViewTraversalEnd (request : Nat) (s : State) : Host.Outcome State Fault Refusal :=
  .next (match s.view? request with
    | none => s
    | some v =>
      if !v.started || v.traversed || (s.quad v.quad).changing then s
      else
        match State.traceViews v v.eyes s with
        | (s, .error e) => s.modView request fun v =>
          { v with traversed := true, status := e.1, failAddr := BitVec.ofNat 32 e.2 }
        | (s, .ok hits) => s.modView request fun v =>
          { v with traversed := true, status := 1, hits := hits, tile := v.defaults hits })

/-! ### Lifts (R36, R279) -/

/-- Change a lift of a quad, given by its level. -/
def Quad.modLift (q : Quad) (level : Nat) (f : Lift → Lift) : Quad :=
  { q with lifts := q.lifts.map fun l => if l.level = level then f l else l }

/-- A lift of a quad. -/
def State.lift? (s : State) (quad level : Nat) : Option Lift := (s.quad quad).lifts.find? fun l => l.level == level

/-- VIEW_REQUEST_START: the head of a FIFO leaves it once its slots are free (R279); an entry that holds an uncorrectable
error ends its haul with HWERR (R381). The engine pauses while the quad's clock changes (R376). -/
def execViewRequestStart (quad lift : Nat) (s : State) : Host.Outcome State Fault Refusal :=
  .next (if (s.quad quad).changing then s else match s.lift? quad lift with
    | none => s
    | some l =>
      match l.fifo with
      | [] => s
      | id :: rest =>
        match s.view? id with
        | none => s
        | some v =>
          if l.free < v.slots then s
          else if s.poisoned (Config.fifoAt id) 8 then s.stopHaul v.haul 9 8 0
          else
            (s.modView id fun v => { v with started := true }).modQuad quad fun q => q.modLift lift fun l =>
              { l with free := l.free - v.slots, fifo := rest, serving := l.serving ++ [id] })

/-! ### Shading coaches (R71, R283) -/

/-- Coach slots of a core that no coach holds (R71). -/
def State.freeSlots (s : State) (core : Nat) : List Nat :=
  (List.range 32).filter fun n => s.allCoaches.all fun c => c.ident.core != core || c.ident.slot != n

/-- The issue port with the fewest coaches bound, the lowest among equals (R71); the core has four (R5). -/
def State.portFor (s : State) (core : Nat) : Nat :=
  let n (p : Nat) : Nat := (s.allCoaches.filter fun c => c.ident.core == core && c.ident.port == p).length
  ([0, 1, 2, 3].find? fun p => ([0, 1, 2, 3] : List Nat).all fun q => decide (n p ≤ n q)).getD 0

/-- The lowest n KiB of a core's register region that hold no coach's registers, for a coach that takes its place there
(R15, R30): DESIGN CHOICE, log 13. -/
def State.freeRegs (s : State) (core n : Nat) : List Nat :=
  let used := (s.allCoaches.filter fun c => c.ident.core == core).flatMap fun c => c.window.regPool
  ((List.range (n + used.length)).filter fun b => !used.contains b).take n

/-- The window of a shading coach of a lift (R193), its registers in the pool's blocks given. -/
def LiftDesc.window (l : LiftDesc) (base : Nat) (pool : List Nat) : Window :=
  { coachNone.window with
    rsp := l.sscr, rspBase := l.sscr, rspEnd := l.sscr + l.srstk, sps := l.sscr + l.srstk, spsBase := l.sscr + l.srstk,
    spsEnd := l.alloc, scrBase := base, scrSize := l.alloc, scrProg := l.sscr, regPool := pool }

/-- Shading coach c of a request as it starts (R283); it fetches no word older than this (R307). -/
def shadeCoach (v : ViewReq) (l : LiftDesc) (c id core slot port shade base now : Nat) (pool : List Nat) : Coach :=
  let px (lane : Nat) : Nat := 32 * c + lane
  let live : LaneMask := laneMask fun lane => decide (px lane < v.dealt)
  let hit (lane i : Nat) : Word := (((v.hits[px lane]?).getD [])[i]?).getD 0
  let g := segOf v.desc.shseg v.desc.shpl v.desc.shlen
  let rd (f : Nat → Word) : LaneVec := laneVec fun lane => if live.getLsbD lane then f lane else 0
  let gs : List (Nat × Dword) :=
    [(1, v.desc.sharg), (2, v.ticket), (3, BitVec.ofNat 64 c), (4, BitVec.ofNat 64 v.ncoach), (5, BitVec.ofNat 64 v.dealt)]
  { coachNone with
    ident := {
      id := id, haul := v.haul, rake := v.rake, cidx := c, level := v.lift, core := core, rel := core % 4, slot := slot,
      port := port, view := some (v.id, c), shade := shade }
    regs := { coachNone.regs with
      preg := l.spregs
      g := gs.foldl (fun r p => vset r p.1 p.2) coachNone.regs.g
      v := vset (vset (vset (vset coachNone.regs.v 0 (laneVec fun lane => BitVec.ofNat 32 (px lane)))
        1 (rd fun lane => BitVec.ofNat 32 ((hit lane 13).toNat % v.desc.side)))
        2 (rd fun lane => BitVec.ofNat 32 ((hit lane 13).toNat / v.desc.side)))
        3 (rd fun lane => hit lane 14) }
    masks := { coachNone.masks with
      exm := live, live := live
      plane := Vector.ofFn fun lane => if live.getLsbD lane.val && hit lane.val 15 == BitVec.allOnes 32 then 1 else 0 }
    window := l.window base pool
    segs := { seg := g, lim := v.desc.shlen, home := g, homeLen := v.desc.shlen }
    special := { coachNone.special with nbound := v.nbound, asid := v.asid, ptbase := v.ptbase }
    issue := { coachNone.issue with phase := .ready, off := v.desc.entry, next := v.desc.entry, since := now, codeSince := now } }

/-- SHADING_LAUNCH: the next shading coach of a traversed request takes a free shading slot, once every request that left
the FIFO earlier has launched its own (R283). The program scratchpad reads as zero (R35). -/
def execShadingLaunch (request shadingSlot coachSlot : Nat) (s : State) : Host.Outcome State Fault Refusal :=
  .next (match s.view? request with
    | none => s
    | some v =>
      match s.lift? v.quad v.lift, s.haul? v.haul with
      | some lf, some h =>
        let core := 4 * v.quad + shadingSlot % 4
        let earlier := lf.serving.takeWhile fun r => r != v.id
        let waiting (r : Nat) : Bool := match s.view? r with
          | none => false
          | some u => !u.traversed || (u.status == 1 && decide (u.launched < u.ncoach))
        if !v.traversed || v.status != 1 || decide (v.ncoach ≤ v.launched) || !lf.shade.contains shadingSlot ||
            !(s.freeSlots core).contains coachSlot || earlier.any waiting || h.ended.isSome || (s.quad v.quad).changing then s
        else
          match h.lifts[v.lift - 1]? with
          | none => s
          | some d =>
            let base := liftScr h.hdr h.lifts v.lift shadingSlot
            let co := shadeCoach v d v.launched s.nextId core coachSlot (s.portFor core) shadingSlot base s.fresh
              (s.freeRegs core (d.spregs / 8))
            let s := { (s.clear (homeScr core base) d.sscr).newId with coaches := s.coaches ++ [co] }
            let s := s.modCore core fun k => { k with warm := true }
            (s.modView request fun v => { v with launched := v.launched + 1 }).modQuad v.quad fun q =>
              q.modLift v.lift fun l => { l with shade := l.shade.filter (· != shadingSlot) }
      | _, _ => s)

/-! ### VIEW and VIEWL (R277, R278, R287) -/

/-- The lowest free ticket slot and the ticket it gives (R285). -/
def Coach.newTicket (c : Coach) : Nat × Dword :=
  let slot := ([0, 1, 2, 3].find? fun n => c.tickets.all fun t => t.slot != n).getD 0
  (slot, BitVec.ofNat 64 (slot + 4 * (c.tcount % 2 ^ 30)))

/-- Read a record for VIEW or VIEWL at its pkg home under the checks of R277 step 3: its bytes, or none after a trap. -/
def State.viewRecord (s : State) (a : Nat) : State × Option (List Byte) :=
  match s.residentAccess .load a 64 with
  | (s, .error k) => (s.trapAll k, none)
  | (s, .ok h) =>
    if s.poisoned h 64 then (s.eccMask s.co.masks.exm (causeAddr cEcc a), none) else (s, some (s.peek h 64))

/-- Why a request is refused, or complete at once (R278, R287). -/
def State.viewRefusal (s : State) (d : ViewDesc) (lanes : Option (List (Nat × List Word))) : Option Nat :=
  let c := s.co
  let lifts := ((s.haul? c.ident.haul).map (·.lifts)).getD []
  if c.special.nbound ≤ c.ident.level ∨ lifts = [] then some 2
  else if lanes = some [] then some 1
  else if ((lifts[c.ident.level]?).map (·.reqs)).getD 0 < slotsFor d lanes then some 3
  else none

/-- The request of the coach in focus. -/
def State.viewReq (s : State) (id : Nat) (d : BitVec 6) (desc : ViewDesc) (cam : Camera) (sc : Scene)
    (lanes : Option (List (Nat × List Word))) (ticket : Dword) (status : Option Nat) : ViewReq where
  id := id
  coach := s.co.ident.id
  haul := s.co.ident.haul
  quad := s.co.ident.core / 4
  rake := s.co.ident.rake
  lift := s.co.ident.level + 1
  d := d
  lanes := lanes
  desc := desc
  cam := cam
  scene := sc
  vf := s.ctx.vf
  asid := s.co.special.asid
  ptbase := s.co.special.ptbase
  mode := s.co.traps.mode
  nbound := s.co.special.nbound
  ticket := ticket
  slots := if status.isSome then 0 else slotsFor desc lanes
  started := status.isSome
  traversed := status.isSome
  status := status.getD 0
  failAddr := 0
  tile := []
  hits := []
  seen := []
  launched := 0
  retired := if status.isSome then ((match lanes with | none => 1 | some l => l.length) * desc.pixels + 31) / 32 else 0

/-- Create the ticket and the request, and put an accepted one into its lift's FIFO (R277 steps 5 to 7, R285). -/
def State.accept (s : State) (d a : BitVec 6) (desc : ViewDesc) (cam : Camera) (sc : Scene)
    (lanes : Option (List (Nat × List Word))) (status : Option Nat) : State :=
  let t := s.co.newTicket
  let v := s.viewReq s.nextId d desc cam sc lanes t.2 status
  let s := { s.newId with views := s.views ++ [v] }
  let s := s.modCo fun c =>
    { c.setG (a + 1) t.2 with
      tcount := (c.tcount + 1) % 2 ^ 30
      tickets := c.tickets ++ [{ slot := t.1, dword := t.2, req := v.id, tile := none }] }
  if status.isSome then s
  else s.modQuad v.quad fun q => q.modLift v.lift fun l => { l with fifo := l.fifo ++ [v.id] }

/-- The camera of no record. -/
def cameraNone : Camera := { vecs := Vector.replicate 12 0, kind := 0, tanh := 0, near := 0, far := 0 }
/-- The scene of no record. -/
def sceneNone : Scene :=
  { ninst := 0, nnode := 0, inst := 0, nodes := 0, tris := 0, ntri := 0, topRoot := 0, topNodes := 0, ntop := 0 }

/-- Steps 3 to 7 of R277 with G[a] = g. -/
def State.viewSteps (s : State) (d a : BitVec 6) (g : Dword) (lanes : Option (List (Nat × List Word))) : State :=
  match s.viewRecord g.toNat with
  | (s, none) => s
  | (s, some b) =>
    let desc := ViewDesc.ofBytes b
    if viewBad b ∨ (lanes.isSome ∧ 1 < desc.res) then s.trapAll (causeAddr cViewx g.toNat)
    else
      match s.viewRefusal desc lanes with
      | some status => s.accept d a desc cameraNone sceneNone lanes (some status)
      | none =>
        match s.viewRecord desc.cam with
        | (s, none) => s
        | (s, some cb) =>
          if cameraBad cb then s.trapAll (causeAddr cViewx desc.cam)
          else
            match s.viewRecord desc.scene with
            | (s, none) => s
            | (s, some sb) =>
              if sceneBad sb then s.trapAll (causeAddr cViewx desc.scene)
              else s.accept d a desc (Camera.ofBytes cb) (Scene.ofBytes sb) lanes none

/-- VIEW and VIEWL: publish, then wait for a commit with four tickets outstanding, otherwise steps 3 to 7 (R277). -/
def State.viewIssue (s : State) (i : Instr) (d a : BitVec 6) (lanes : Option (List (Nat × List Word))) : State :=
  let s := s.publish 4
  let g := s.co.greg a
  if 4 ≤ s.co.tickets.length then s.modCo fun c => c.endRun (.view i g lanes) else s.viewSteps d a g lanes

/-- VIEW (R277). -/
def execView (m : Bool) (d a : BitVec 6) (s : State) : Host.Outcome State Fault Refusal :=
  word m s fun s => s.viewIssue (.view m d a) d a none

/-- VIEWL (R277, R287); a register of its lanes that holds an error traps the word, which makes no request then (R381). -/
def execViewl (m : Bool) (d a b : BitVec 6) (s : State) : Host.Outcome State Fault Refusal :=
  word m s fun s =>
    if s.co.issue.bad ≠ [] then s
    else s.viewIssue (.viewl m d a b) d a
      (some (s.co.viewLanes.map fun l => (l, (List.range 6).map fun i => s.co.vreg (b.toNat + i) l)))

/-! ### Commits (R285, R288) -/

/-- The status word of a request (R284), code 0 while it is not complete. -/
def ViewReq.statusWord (v : ViewReq) : Dword :=
  if v.complete then (if 4 ≤ v.status ∧ v.status ≤ 6 then v.failAddr ++ BitVec.ofNat 32 v.status
    else BitVec.ofNat 64 v.status)
  else 0

/-- The words of a request's tile as VWAIT writes them: FILL for any status but OK (R284). -/
def ViewReq.outTile (v : ViewReq) : List Word :=
  if v.status = 1 then v.tile else List.replicate (v.dealt * v.desc.words) v.desc.fill

/-- Shape of a request's tile. -/
def ViewReq.shape (v : ViewReq) : TileShape where
  d := v.d
  words := v.desc.words
  wh := v.desc.pixels
  lanes := v.lanes.map fun l => l.map (·.1)
  status := v.statusWord
  fill := v.desc.fill

/-- Write a tile into the registers through the current window, masks playing no part (R285). -/
def Coach.landTile (c : Coach) (t : TileShape) (ws : List Word) : Coach :=
  let at' (i : Nat) : Word := (ws[i]?).getD 0
  let d := t.d.toNat
  match t.lanes with
  | none =>
    let n := (t.wh + 31) / 32
    (List.range t.words).foldl (fun c w => (List.range n).foldl (fun c j =>
      c.setVec (d + w * n + j) (laneMask fun l => decide (32 * j + l < t.wh))
        (laneVec fun l => at' (w * t.wh + 32 * j + l))) c) c
  | some ls =>
    (List.range t.words).foldl (fun c w => (List.range t.wh).foldl (fun c i =>
      (ls.zip (List.range ls.length)).foldl (fun c p =>
        c.setVec (d + w * t.wh + i) (laneBit p.1) (laneVec fun _ => at' ((p.2 * t.words + w) * t.wh + i))) c) c) c

/-- Forget a request: its slots are free again, while its lift still serves it (R279, R288). -/
def State.dropView (s : State) (v : ViewReq) : State :=
  let s := { s with views := s.views.filter fun u => u.id != v.id }
  s.modQuad v.quad fun q => q.modLift v.lift fun l =>
    { l with
      free := if l.serving.contains v.id then l.free + v.slots else l.free
      fifo := l.fifo.filter (· != v.id)
      serving := l.serving.filter (· != v.id) }

/-- Context in which a commit reads an image's tiles: the haul's own address space, at the coach's quad (R365). -/
def State.tileCtx (s : State) (h : Haul) : Ctx :=
  { vf := h.vf, pasid := h.pasid, asid := h.asid, root := h.ptroot, user := false, port := s.co.ident.core / 4, spec := none
    shadow := none }

/-- The words of a tile in an image, as a commit or a save reads them: those that lie there, free words where the area can be read
no more (R365; free value, log 17), FILL and status ECC where one holds an error (R284, R381). -/
def State.tileAt (s : State) (x : Ctx) (a : Nat) (sh : TileShape) : State × TileShape × List Word :=
  match s.readVa x a (4 * sh.size) with
  | (s, .ok b) => (s, sh, (List.range sh.size).map (wordAt b))
  | (s, .ecc) => (s, { sh with status := 6 }, List.replicate sh.size sh.fill)
  | (s, _) => (s, sh, (List.range sh.size).map (Config.tileWord s.fresh))

/-- Commit the oldest ticket of the coach in focus, when it is complete (R288): the state and its status word. A ticket
reattached from an image takes its tile from the address the image gave (R365). -/
def State.commitOldest (s : State) : State × Option Dword :=
  match s.co.tickets with
  | [] => (s, none)
  | t :: rest =>
    match t.tile with
    | some a =>
      match s.haul? s.co.ident.haul with
      | none => (s, none)
      | some h =>
        let (s, sh, ws) := s.tileAt (s.tileCtx h) a.1 a.2
        (s.modCo fun c => { c.landTile sh ws with tickets := rest }, some sh.status)
    | none =>
      match s.view? t.req with
      | none => (s.modCo fun c => { c with tickets := rest }, some 1)
      | some v =>
        if !v.complete then (s, none)
        else ((s.modCo fun c => { c.landTile v.shape v.outTile with tickets := rest }).dropView v, some v.statusWord)

/-- Whether a dword is an outstanding ticket of the coach. -/
def Coach.hasTicket (c : Coach) (t : Dword) : Bool := c.tickets.any fun k => k.dword == t

/-- VWAIT (R288). -/
def execVwait (m : Bool) (d a : BitVec 6) (s : State) : Host.Outcome State Fault Refusal :=
  word m s fun s =>
    let t := s.co.greg a
    if s.co.hasTicket t then s.modCo fun c => c.endRun (.vwait t d) else s.trapAll (causeWord cViewx (t.extractLsb' 0 32))

/-- The operands of a VIEW or VIEWL. -/
def viewOps : Instr → BitVec 6 × BitVec 6
  | .view _ d a => (d, a)
  | .viewl _ d a _ => (d, a)
  | _ => (0, 0)

/-- The waiting VIEW or VIEWL goes on with steps 3 to 7 at its park; a trap is taken there, at its own offset (R277). -/
def State.viewResume (s : State) (i : Instr) (g : Dword) (lanes : Option (List (Nat × List Word))) : State :=
  let off := s.co.issue.off
  let s := s.modCo fun c => { c with issue := { c.issue with off := off - 1, next := off, wait := .none } }
  let s := s.viewSteps (viewOps i).1 (viewOps i).2 g lanes
  if s.co.issue.traps ≠ [] ∨ s.co.issue.bare ≠ none then s.park
  else (s.modCo fun c => { c with issue := { c.issue with off := off } }).endWait

/-- The ticket a coach in VWAIT waits for and where its status goes; of a restored one by the operands its image names, else by the
word it waits in (R288, R353; log 15). -/
def State.vwaitOf (s : State) : State × Option (Dword × BitVec 6) :=
  match s.co.issue.wait with
  | .vwait t d => (s, some (t, d))
  | .recorded 2 (some (t, d)) => (s, some (t, d.extractLsb' 0 6))
  | .recorded 2 none =>
    match s.waitInstr with
    | (s, some (.vwait _ d a)) => (s, some (s.co.greg a, d))
    | (s, _) => (s, none)
  | _ => (s, none)

/-- Commit for a VWAIT: it ends with the ticket named (R288). -/
def State.commitFor (s : State) (t : Dword) (d : BitVec 6) : State :=
  let oldest := s.co.tickets.head?
  match s.commitOldest with
  | (s, some w) => if (oldest.map (·.dword)) = some t then ((s.modCo fun c => c.setG d w).refresh 4).endWait else s
  | (s, none) => s

/-- TICKET_COMMIT: the oldest ticket, once complete, is committed; the wait ends with the ticket named, or with the first
commit for a VIEW that met four (R277, R288), which issues nothing at its save point (R350). The coach pauses while its quad's clock
changes (R376). -/
def execTicketCommit (coach : Nat) (s : State) : Host.Outcome State Fault Refusal :=
  .next (s.within coach fun s =>
    if s.co.ident.id ≠ coach ∨ s.co.issue.phase ≠ .waiting ∨ (s.quad (s.co.ident.core / 4)).changing then s
    else match s.co.issue.wait with
      | .view i g lanes =>
        if s.co.preempt.atSave then s
        else match s.commitOldest with
        | (s, some _) => s.viewResume i g lanes
        | (s, none) => s
      | _ =>
        match s.vwaitOf with
        | (s, some (t, d)) => s.commitFor t d
        | (s, none) => s)

/-- VPOLL, deferred (R289). -/
def execVpoll (m : Bool) (d a : BitVec 6) (s : State) : Host.Outcome State Fault Refusal :=
  word m s fun s =>
    let t := s.co.greg a
    match s.co.tickets.find? fun k => k.dword == t with
    | none => s.trapAll (causeWord cViewx (t.extractLsb' 0 32))
    | some k =>
      match k.tile with
      | some p => s.groupD d fun _ => p.2.status
      | none => s.groupD d fun _ => ((s.view? k.req).map ViewReq.statusWord).getD 0

/-! ### Shading instructions (R290, R291) -/

/-- The request a shading coach works for, with its index. -/
def State.shading (s : State) : Option (ViewReq × Nat) :=
  match s.co.ident.view with
  | none => none
  | some (r, c) => (s.view? r).map fun v => (v, c)

/-- VOUT (R290). -/
def execVout (m : Bool) (a : BitVec 6) (w : BitVec 1) (s : State) : Host.Outcome State Fault Refusal :=
  word m s fun s =>
    match s.shading with
    | none => s.trapPlane (causeWord cViewx (Instr.vout m a w).word)
    | some (v, c) =>
      if w = 1 ∧ v.desc.out1 = 0 then s.trapPlane (causeWord cViewx (Instr.vout m a w).word)
      else
        let co := s.co
        s.modView v.id fun v => { v with
          tile := (lanesOf co.active).foldl (fun t l => t.set (v.place (32 * c + l) w.toNat) (co.vreg a.toNat l)) v.tile }

/-- VHIT, deferred (R290). -/
def execVhit (m : Bool) (d : BitVec 6) (sel : BitVec 4) (s : State) : Host.Outcome State Fault Refusal :=
  word m s fun s =>
    match s.shading with
    | none => s.trapPlane (causeWord cViewx (Instr.vhit m d sel).word)
    | some (v, c) => s.laneD d fun _ l => ((((v.hits[32 * c + l]?).getD [])[sel.toNat]?).getD 0, 0)

/-- The value VLVL gives (R291). -/
def State.levelValue (s : State) (l : Nat) : Dword :=
  let c := s.co
  if l = 0 then
    BitVec.ofNat 64 (c.ident.level + c.special.nbound * 2 ^ 8 + (c.special.nbound - c.ident.level) * 2 ^ 16)
  else if c.special.nbound < l then 0
  else match s.lift? (c.ident.core / 4) l with
    | none => 0
    | some f => BitVec.ofNat 64 (f.free + f.fifo.length % 2 ^ 16 * 2 ^ 16 + f.shade.length * 2 ^ 32)

/-- VLVL: l above 4 is refused by the check of R286. -/
def execVlvl (m : Bool) (d l : BitVec 6) (s : State) : Host.Outcome State Fault Refusal :=
  word m s fun s =>
    if 4 < l.toNat then s.trapPlane (causeIll subField (Instr.vlvl m d l).word) else s.group d fun _ => s.levelValue l.toNat

end Sys2Proof.Machine
end

