-- ==== Sys2Proof/Machine/Retire.lean ====
section
/-! DEFINITION. How coaches, rakes and hauls end: EXIT's retirement, the end of a haul under R87, and the steps of R372 (R38,
R87, R88, R124, R371 to R374). -/

namespace Sys2Proof.Machine

/-! ### The watchdog's count (R38) -/

/-- Bring the count of a haul's watchdog up to date: TIME counts while a rake of the haul is resident (R38). -/
def State.recountWatch (s : State) (haul : Nat) : State :=
  let now := s.dev.time
  let resident := s.rakes.any fun r => r.haul == haul
  s.modHaul haul fun h => { h with
    watch := match h.watchFrom with
      | none => h.watch
      | some t => h.watch + (now - t).toNat
    watchFrom := if resident then some now else none }

/-- Ticks of TIME in a microsecond (R21). -/
def ticksPerUs : Nat := 100

/-- Ticks the watchdog of a haul has counted up to now. -/
def State.watched (s : State) (h : Haul) : Nat :=
  match h.watchFrom with
  | none => h.watch
  | some t => h.watch + (s.dev.time - t).toNat

/-- WATCHDOG_EXPIRY: WATCHDOG ms have passed and the haul has not retired; a last rake that retires in the same tick comes
first (R38, R87, R88). -/
def execWatchdogExpiry (haul : Nat) (s : State) : Host.Outcome State Fault Refusal :=
  .next (match s.haul? haul with
    | none => s
    | some h =>
      if h.hdr.watchdog ≠ 0 ∧ h.hdr.watchdog * 1000 * ticksPerUs < s.watched h ∧ h.ended = none ∧ !h.retired ∧
          h.rakesDone < h.hdr.rakes then s.stopHaul haul 4 0 0
      else s)

/-! ### A coach retires (R124, R371) -/

/-- Whether a ticket is complete: its request is, or its tile came with an image (R284, R365). -/
def State.ticketDone (s : State) (t : Ticket) : Bool :=
  t.tile.isSome || ((s.view? t.req).map ViewReq.complete).getD true

/-- Discard the complete tickets of the coach in focus, which frees their request slots (R124 step 2). -/
def State.discardTickets (s : State) : State :=
  let done := s.co.tickets.filter s.ticketDone
  let s' := done.foldl (fun s t => match s.view? t.req with
    | none => s
    | some v => if t.tile.isSome then s else s.dropView v) s
  s'.modCo fun c => { c with tickets := c.tickets.filter fun t => !done.contains t }

/-- What is kept of a coach that has retired in a rake that has not: it stands at its EXIT, its files freed. -/
def Coach.atExit (c : Coach) : Coach :=
  { c with
    regs := { coachNone.regs with preg := c.regs.preg }
    window := { c.window with win := 0, hr := 0, rsp := c.window.rspBase, sps := c.window.spsBase }
    special := { c.special with gang := 0 }
    issue := { coachNone.issue with phase := .saved, off := c.issue.off - 1, next := c.issue.off - 1 }
    wbuf := []
    snap := []
    sets := []
    tickets := []
    preempt := { coachNone.preempt with full := true } }

/-- Whether EXIT's waits are over: array work, tickets, and a shading coach's posted page requests (R124 step 2). -/
def State.mayRetire (s : State) : Bool :=
  let c := s.co
  !s.arrayBusy c.ident.core c.ident.id && c.tickets.isEmpty &&
    (c.ident.level == 0 || decide (c.special.posted.toNat ≤ c.special.pgc.toNat))

/-- A level-0 coach leaves its rake; with the last of its coaches the rake retires and its room is free (R371). -/
def State.outOfRake (s : State) (c : Coach) : State :=
  let h := c.ident.haul
  let k := c.ident.rake
  let s := s.modHaul h fun h => { h with last := (c.ident.core / 4, c.src) }
  if s.allCoaches.any fun x => x.ident.haul == h && x.ident.rake == k && x.ident.level == 0 then
    s.modHaul h fun h =>
      let old := ((h.gone.find? fun p => p.1 == k).map (·.2)).getD []
      { h with gone := (k, old ++ [c.atExit]) :: h.gone.filter fun p => p.1 != k }
  else
    let s := { s with rakes := s.rakes.filter fun r => !(r.haul == h && r.rake == k) }
    (s.modHaul h fun h => { h with
      rakesDone := h.rakesDone + 1, gone := h.gone.filter fun p => p.1 != k }).recountWatch h

/-- The same, with the barrier generations that waited for it alone: those of coaches saved out complete at once, those of
resident ones by their own step (R318). -/
def State.leaveRake (s : State) (c : Coach) : State := (s.outOfRake c).completeSaved c.ident.haul

/-- A shading coach leaves its lift; its view completes with the last of them (R283, R284). -/
def State.leaveLift (s : State) (c : Coach) : State :=
  match c.ident.view with
  | none => s
  | some (r, _) =>
    (s.modView r fun v => { v with retired := v.retired + 1 }).modQuad (c.ident.core / 4) fun q =>
      q.modLift c.ident.level fun l => { l with shade := c.ident.shade :: l.shade }

/-- The coach in focus retires: PUBL.pkg, then its gang, token, banks, slot and files are freed (R124 steps 3 and 4, R263,
R267). -/
def State.retireCoach (s : State) : State :=
  let s := (s.publish 4).drain.leaveArray
  let c := s.co
  let s := s.dropCoach c.ident.id
  if c.ident.level = 0 then s.leaveRake c else s.leaveLift c

/-- COACH_RETIRE: the complete tickets are discarded; the coach retires once nothing is left to wait for (R124); it pauses
while its quad's clock changes (R376). -/
def execCoachRetire (coach : Nat) (s : State) : Host.Outcome State Fault Refusal :=
  .next (s.within coach fun s =>
    if s.co.ident.id ≠ coach ∨ s.co.issue.phase ≠ .retiring ∨ (s.quad (s.co.ident.core / 4)).changing then s
    else
      let s := s.discardTickets
      if s.mayRetire then s.retireCoach else s)

/-! ### A haul ends (R87, R372 to R374) -/

/-- Set a core free of a haul: latch, waiting operations, banks and token (R87, R238). -/
def Core.vacate (k : Core) : Core :=
  { k with token := 0, banks := [], freeing := [], latch := [], joint := [], mallocs := [] }

/-- A quad is free of its haul: its lifts are released (R72). -/
def Quad.vacate (q : Quad) : Quad := { q with haul := none, lifts := [], draining := false }

/-- Release a quad with its cores. -/
def State.vacate (s : State) (quad : Nat) : State :=
  (List.range 4).foldl (fun s j => s.modCore (4 * quad + j) Core.vacate) (s.modQuad quad Quad.vacate)

/-- The quads that serve a haul. -/
def State.quadsOf (s : State) (haul : Nat) : List Nat := (s.quads.filter fun p => p.2.haul == some haul).map (·.1)

/-- Whether matrix work of a haul is still queued (R87 step 2). -/
def State.arraysBusy (s : State) (haul : Nat) : Bool :=
  (s.quadsOf haul).any fun q => (List.range 4).any fun j => (s.core (4 * q + j)).queue != []

/-- Steps 3 to 6 of R87: write buffers drain, shading work, requests, tickets and rakes are dropped, the quads are
released. -/
def State.tearDown (s : State) (haul : Nat) : State :=
  let mine (c : Coach) : Bool := c.ident.haul == haul
  let s := (s.allCoaches.filter mine).foldl (fun s c => s.within c.ident.id State.drain) s
  let s := (s.quadsOf haul).foldl State.vacate s
  let s := { s with
    co := if mine s.co then coachNone else s.co
    coaches := s.coaches.filter fun c => !mine c
    rakes := s.rakes.filter fun r => r.haul != haul
    views := s.views.filter fun v => v.haul != haul }
  (s.modHaul haul fun h => { h with
    saved := [], waits := [], promoted := [], gone := [], nextRake := h.hdr.rakes }).recountWatch haul

/-- Steps 2 to 4 of R372: the task, the completion record, the signal; then the LAUNCH packet completes, or takes the fate
of R400. -/
def State.completeHaul (s : State) (id : Nat) : State :=
  match s.haul? id with
  | none => s
  | some h =>
    let s := s.retireTask h
    let e := h.ended.getD (0, 0, 0)
    let b := recordBytes e.1 e.2.1 h.image h.launchNo.toNat h.rakesDone h.tAccept h.tEnd e.2.2
    let r := s.recordAndSignal (s.haulCtx h) h.record h.signal b
    match h.packet with
    | none => r.1
    | some (q, i) => if r.2 then r.1.packetDone q i else r.1.failPacket q i 4

/-- A haul has retired: its record follows at once, is held while no controller serves (R65), or is never written
(R360). A mailbox SAVE that was still saving it finds no such haul; a MIGOUT goes on without it. -/
def State.retireHaul (s : State) (h : Haul) : State :=
  let s := s.modHaul h.id fun h => { h with retired := true, tEnd := s.dev.time, saving := none }
  let s := match h.saving with
    | none => s
    | some p => if (s.vf h.vf).blackout = some p then s else s.endCommand p.1 p.2 5 0
  if h.silent then s
  else if s.leads then s.completeHaul h.id
  else s.modDev fun d => { d with heldCompletions := d.heldCompletions ++ [h.id] }

/-- Whether shading work or view requests of a haul are left (R372). -/
def State.viewsLeft (s : State) (haul : Nat) : Bool :=
  s.views.any (fun v => v.haul == haul) || s.allCoaches.any fun c => c.ident.haul == haul && c.ident.level != 0

/-- HAUL_RETIRE: a haul whose rakes, Dray commands and views are done retires; one that ends otherwise does so once its
issued Dray and matrix work is complete (R87, R372). With the last haul of a VF whose reset is in progress, that ends
(R360). -/
def execHaulRetire (haul : Nat) (s : State) : Host.Outcome State Fault Refusal :=
  .next (match s.haul? haul with
    | none => s
    | some h =>
      if h.retired ∨ s.drayBusy fun c => c.haul == haul then s
      else match h.ended with
        | none => if h.hdr.rakes ≤ h.rakesDone ∧ !s.viewsLeft haul then (s.retireHaul h).finishReset h.vf else s
        | some _ => if s.arraysBusy haul then s else ((s.tearDown haul).retireHaul h).finishReset h.vf)

end Sys2Proof.Machine
end

