-- ==== Sys2Proof/Machine/Place.lean ====
section
/-! DEFINITION. Placing and scheduling: the swap-in queue, the placement of rakes on quads and their restore, the choice of
an issue port, time slices and the change of haul (R68 to R77, R350, R353, R358). -/

namespace Sys2Proof.Machine

/-! ### An issue port chooses (R73, R74, R123) -/

/-- Effective priority of a coach of a haul (R74). -/
def State.effPrio (s : State) (c : Coach) : Nat :=
  min 3 (((s.haul? c.ident.haul).map (·.prio)).getD 0 + c.ident.level)

/-- Whether a port may choose a coach: ready, and not at its save point (R73, R350). -/
def Coach.choosable (c : Coach) (core port : Nat) : Bool :=
  c.ident.core == core && c.ident.port == port && c.issue.phase == .ready && !c.preempt.atSave

/-- Whether a port takes coach a rather than b: priority, then the longer wait, then the lower slot (R74). -/
def State.prefers (s : State) (a b : Coach) : Bool :=
  let p := s.effPrio a
  let q := s.effPrio b
  decide (q < p) || (p == q && (decide (a.issue.since < b.issue.since) ||
    (a.issue.since == b.issue.since && decide (a.ident.slot < b.ident.slot))))

/-- The coach a port chooses at a boundary: one that has just yielded only when no other is ready (R74, R123). -/
def State.choice (s : State) (core port : Nat) : Option Coach :=
  let cs := s.allCoaches.filter fun c => c.choosable core port
  let others := cs.filter fun c => !c.issue.yielded
  match (if others = [] then cs else others) with
  | [] => none
  | c :: t => some (t.foldl (fun a b => if s.prefers b a then b else a) c)

/-- COACH_SELECT: at a run boundary a port chooses a coach, whose run begins (R74). One that has an error in a result to report, which
its save point put off, enters its trap instead (R117, R350; log 72). -/
def execCoachSelect (core port : Nat) (s : State) : Host.Outcome State Fault Refusal :=
  .next (
    if (s.quad (core / 4)).changing ||
        s.allCoaches.any (fun c => c.ident.core == core && c.ident.port == port && c.issue.phase == .issuing) then s
    else match s.choice core port with
      | none => s
      | some c =>
        let next (k : Coach) : Coach :=
          if k.ident.id = c.ident.id then { k with issue := { k.issue with
            phase := if c.hasErr then .ready else .issuing, yielded := false } }
          else if k.ident.core = core ∧ k.ident.port = port then { k with issue := { k.issue with yielded := false } }
          else k
        let s : State := { s with co := next s.co, coaches := s.coaches.map next }
        if c.hasErr then s.within c.ident.id State.enterTrap else s)

/-! ### The swap-in queue (R76, R77) -/

/-- A rake that waits to be placed. -/
structure Waiting where
  haul  : Nat
  rake  : Nat
  prio  : Nat
  since : Nat
  front : Bool
  deriving DecidableEq, Repr

/-- Whether rakes of a haul may be placed: it runs, nothing saves it, and its VF is enabled, not being locked or reset and not
migrating (R350, R354, R356, R360). -/
def State.runs (s : State) (h : Haul) : Bool :=
  let v := s.vf h.vf
  h.ended.isNone && !h.retired && h.saving.isNone && v.en && !v.flrb && v.locking.isNone && v.blackout.isNone

/-- The rakes of a haul that may be next: those saved, and the FRESH one of lowest index (R69, R76). -/
def Haul.waiting (h : Haul) : List Waiting :=
  let rs := h.saved.map (·.rake) ++ if h.nextRake < h.hdr.rakes then [h.nextRake] else []
  rs.map fun r => {
    haul := h.id, rake := r, prio := h.prio
    since := (((h.waits.find? fun p => p.1 == r).map (·.2)).getD h.tAccept).toNat
    front := h.promoted.contains r }

/-- Whether a waiting rake stands ahead of another (R77). -/
def Waiting.ahead (a b : Waiting) : Bool :=
  if a.front != b.front then a.front
  else if !a.front && a.prio != b.prio then decide (b.prio < a.prio)
  else decide (a.since ≤ b.since)

/-- Put a waiting rake into a queue. -/
def joinSwap (a : Waiting) : List Waiting → List Waiting
  | [] => [a]
  | b :: t => if a.ahead b then a :: b :: t else b :: joinSwap a t

/-- The swap-in queue of a VF (R76, R77). -/
def State.swapIn (s : State) (vf : Nat) : List Waiting :=
  ((s.hauls.filter fun h => h.vf == vf && s.runs h).flatMap Haul.waiting).foldr joinSwap []

/-- SWAP_IN_PROMOTE: a rake that has waited longer than 8 × SLICE of its haul moves to the head of the queue (R77). -/
def execSwapInPromote (haul rake : Nat) (s : State) : Host.Outcome State Fault Refusal :=
  .next (match s.haul? haul with
    | none => s
    | some h =>
      match h.waiting.find? fun w => w.rake == rake with
      | none => s
      | some w =>
        if s.runs h ∧ !w.front ∧ w.since + 8 * h.hdr.sliceUs * ticksPerUs < s.dev.time.toNat then
          s.modHaul haul fun h => { h with promoted := h.promoted ++ [rake] }
        else s)

/-! ### Room on a quad (R37, R69 to R72) -/

/-- Whether a VF still holds a quad: it is enabled and lists it (R356, R358). -/
def State.lists (s : State) (vf quad : Nat) : Bool := (s.vf vf).en && (s.vf vf).quads.getLsbD quad

/-- Ticks of the SLICE of a VF, 2,000 µs where it is 0 (R356). -/
def State.vfSlice (s : State) (vf : Nat) : Nat :=
  (if (s.vf vf).slice = 0 then 2000 else (s.vf vf).slice.toNat) * ticksPerUs

/-- The other VFs that share a quad and have a rake waiting, from the serving one on, wrapping (R358). -/
def State.sharers (s : State) (quad : Nat) : List Nat :=
  ((List.range 31).map fun i => ((s.quad quad).vf + 1 + i) % 32).filter fun n =>
    s.lists n quad && (s.vf n).shr && s.swapIn n != []

/-- Whether the serving VF has had its slice of a shared quad, and another waits for it (R358). -/
def State.vfOver (s : State) (quad : Nat) : Bool :=
  let q := s.quad quad
  (s.vf q.vf).shr && decide (s.vfSlice q.vf ≤ (s.dev.time - q.vfSince).toNat) && s.sharers quad != []

/-- Whether a quad may take a rake of a haul: it is one of the VF's and serves it, it holds this haul or none, it does not
drain, its VF's slice is not over, and it is powered (R68, R69, R72, R86, R358). -/
def State.quadOpen (s : State) (h : Haul) (quad : Nat) : Bool :=
  let q := s.quad quad
  decide (quad < 64) && s.lists h.vf quad && (q.vf == h.vf || !s.lists q.vf quad) &&
  (q.haul == none || q.haul == some h.id) && !q.draining && !s.vfOver quad && (q.power == .on || q.power == .idle)

/-- The core of a relative core under a rotation (R70). -/
def coreAt (quad rot j : Nat) : Nat := 4 * quad + (rot + j) % 4

/-- The lowest 1 KiB boundary of a region, from lo to below hi, at which n bytes lie beside ranges in use, each given by its
base and size; none where the free room is in pieces too small (R197; DESIGN CHOICE, log 13). -/
def freeBase (lo hi n : Nat) (used : List (Nat × Nat)) : Option Nat :=
  ((lo :: used.map fun u => roundTo 1024 (u.1 + u.2)).filter fun b =>
    decide (lo ≤ b) && decide (b + n ≤ hi) && used.all fun u => !overlaps b n u.1 u.2).min?

/-- The bases a rake would take on a quad under a rotation, beside those in use and below the lifts: in quad memory, and in the
scratchpad region of each relative core's pool (R15, R29, R37, R197). -/
def State.rakeBases (s : State) (h : Haul) (quad rot : Nat) : Option Nat × List (Option Nat) :=
  let here := s.rakes.filter fun r => r.quad == quad
  let d := h.hdr
  (freeBase 0 (8 * 2 ^ 20 - liftQm h.lifts) d.qmb (here.map fun r => (r.qmBase, d.qmb)),
    (List.range 4).map fun j =>
      let p := coreAt quad rot j % 4
      freeBase d.regBytes (d.regBytes + d.scrBytes - (liftUse h.lifts p).2.2) (d.alloc j) (here.map fun r =>
        let k := (4 + p - r.rot % 4) % 4
        ((r.scr[k]?).getD 0, d.alloc k)))

/-- Whether a rake fits on a quad under a rotation beside what the quad holds: by the sums of R37, and with a base in one piece for
each of its allocations (log 13); a saved one also needs its tokens, for which no gang waits, and its banks free (R37, R70, R265,
R268). -/
def State.room (s : State) (h : Haul) (rake quad rot : Nat) : Bool :=
  s.quadOpen h quad && decide (rot < 4) &&
  fitsOn h.hdr h.lifts ((s.rakes.filter fun r => r.quad == quad).map (·.rot) ++ [rot]) &&
  (s.rakeBases h quad rot).1.isSome && (s.rakeBases h quad rot).2.all Option.isSome &&
  match h.saved.find? fun r => r.rake == rake with
  | none => true
  | some r =>
    (r.owners.all fun p => (s.core (coreAt quad rot p.1)).token == 0 && (s.core (coreAt quad rot p.1)).joint == []) &&
    r.acc.all fun p =>
      let k := s.core (coreAt quad rot (p.1 % 4))
      !(k.banks.any fun b => b.1 == p.2.1) && !k.freeing.contains p.2.1

/-- Whether no rake ahead of this one in the queue could take the quad instead (R76, R77). -/
def State.isNext (s : State) (h : Haul) (rake quad : Nat) : Bool :=
  let q := s.swapIn h.vf
  let mine (w : Waiting) : Bool := w.haul == h.id && w.rake == rake
  q.any mine && (q.takeWhile fun w => !mine w).all fun w =>
    match s.haul? w.haul with
    | none => true
    | some k => !(List.range 4).any fun r => s.room k w.rake quad r

/-- Whether two coaches of a saved rake stand in one gang (R268). -/
def sameGang (cs : List Coach) (a b : Coach) : Bool :=
  a.ident.rel == b.ident.rel && cs.any fun c =>
    c.ident.rel == a.ident.rel && (gangSlots c.special.gang).contains a.ident.slot &&
      (gangSlots c.special.gang).contains b.ident.slot

/-- Whether the slots chosen for the coaches are free, differ on each core, and keep the order of gang members (R71,
R268). -/
def State.slotsOk (s : State) (cs : List Coach) (quad rot : Nat) (slots : List Nat) : Bool :=
  let at_ := cs.zip slots
  slots.length == cs.length &&
  (at_.all fun p => (s.freeSlots (coreAt quad rot p.1.ident.rel)).contains p.2) &&
  at_.all fun p => at_.all fun r =>
    p.1.ident.cidx == r.1.ident.cidx || p.1.ident.rel != r.1.ident.rel ||
    (p.2 != r.2 && (!sameGang cs p.1 r.1 || (decide (p.1.ident.slot < r.1.ident.slot) == decide (p.2 < r.2))))

/-! ### Coaches as they start (R35) and resume (R353) -/

/-- A coach of a FRESH rake (R35). -/
def Haul.freshCoach (h : Haul) (rake i : Nat) : Coach :=
  let d := h.hdr
  let gs : List (Nat × Nat) := [(1, d.args.toNat), (2, rake), (3, i), (4, d.rakes), (5, d.ncoach)]
  { coachNone with
    ident := { coachNone.ident with haul := h.id, rake := rake, cidx := i, rel := i % 4 }
    regs := { coachNone.regs with
      preg := d.pregs
      g := gs.foldl (fun r p => vset r p.1 (BitVec.ofNat 64 p.2)) coachNone.regs.g
      v := vset coachNone.regs.v 0 (laneVec fun l => BitVec.ofNat 32 (32 * i + l)) }
    masks := { coachNone.masks with exm := d.liveMask i, live := d.liveMask i }
    window := d.window i
    segs := { seg := d.seg, lim := d.seglen, home := d.seg, homeLen := d.seglen }
    special := { coachNone.special with nbound := d.nbound, asid := h.asid, ptbase := h.ptroot }
    issue := { coachNone.issue with phase := .ready, off := d.entry, next := d.entry } }

/-- Rewrite a GANG value: each listed slot becomes the slot its coach has taken; NMEM and BRK stay (R268). -/
def regang (new : Nat → Nat) (g : Dword) : Dword :=
  let n := (g.extractLsb' 0 3).toNat
  (List.range n).foldl (fun w i =>
      w ||| (BitVec.ofNat 64 (new (g.extractLsb' (8 + 8 * i) 5).toNat) <<< (8 + 8 * i)))
    (g &&& 0x8000000000000007#64)

/-- A saved coach as it resumes: the haul's address space, no request pending; ready, in its recorded wait, or ready to
issue again the instruction it waited in; its fetch limit is the rule's (R55, R248, R268, R330, R353). -/
def Coach.revive (c : Coach) (h : Haul) (now : Nat) : Coach :=
  let ready := c.issue.wait == .none || c.issue.wait.again
  { c with
    special := { c.special with asid := h.asid, ptbase := h.ptroot, nbound := h.hdr.nbound }
    issue := { c.issue with
      phase := if ready then .ready else .waiting
      wait := if ready then .none else c.issue.wait
      off := c.saveOff
      next := c.saveOff
      since := now
      yielded := false }
    segs := { c.segs with lim := c.segs.limOf c.segs.seg }
    preempt := coachNone.preempt }

/-- The groups the callers hold, from the return stack: the sum of f less the groups spilled (R137). -/
def State.heldGroups (s : State) (c : Coach) : Nat :=
  let w := c.window
  let at_ (i : Nat) : Nat := homeScr c.ident.core (w.scrBase + w.rspBase + 8 * i)
  ((List.range ((w.rsp - w.rspBase) / 8)).map fun i => s.rdNat (at_ i) 8 / 2 ^ 32 % 8).sum - (w.sps - w.spsBase) / 1024

/-! ### Placing (R69 to R71, R268, R353) -/

/-- Write bytes at their places from a home on. -/
def State.putAt (s : State) (home : Nat) (l : List (Nat × Byte)) : State :=
  { s with mem := l.foldl (fun m p => Memory.put m (home + p.1) p.2) s.mem }

/-- A quad takes a haul: its partition word, its lifts; weights +0, banks and tokens free (R68, R238). -/
def State.takeQuad (s : State) (h : Haul) (quad : Nat) : State :=
  let lifts := (h.lifts.zip (List.range h.lifts.length)).map fun p =>
    { level := p.2 + 1, free := p.1.reqs, fifo := [], shade := List.range p.1.scoach, serving := [] : Lift }
  let s := s.modQuad quad fun q => { q with
    haul := some h.id, lifts := lifts, vf := h.vf, vfSince := if q.vf = h.vf then q.vfSince else s.dev.time }
  (List.range 4).foldl (fun s j =>
    (s.modCore (4 * quad + j) fun k => { k.vacate with part := h.hdr.part }).clear (homeWgt (4 * quad + j) 0) 32768) s

/-- The rake as it becomes resident, with the bases it takes (R15, R29, R197). -/
def State.newRake (s : State) (h : Haul) (rake quad rot : Nat) : Rake :=
  let b := s.rakeBases h quad rot
  { haul := h.id, rake := rake, quad := quad, rot := rot, since := s.dev.time
    qmBase := b.1.getD 0, scr := b.2.map fun a => a.getD h.hdr.regBytes }

/-- Give a coach its core, slot, port, registers and bases, and make it resident (R15, R70, R71, R137). One that comes to be here
fetches no word older than this (R307). -/
def State.seat (s : State) (r : Rake) (c : Coach) (slot : Nat) : State :=
  let core := r.core c.ident.rel
  let fresh := c.ident.id == 0
  let c := { c with
    ident := { c.ident with
      id := if fresh then s.nextId else c.ident.id, core := core, slot := slot, port := s.portFor core }
    window := { c.window with
      scrBase := (r.scr[c.ident.rel]?).getD 0, qmBase := r.qmBase, regPool := s.freeRegs core c.groups } }
  let c := { c with
    window := { c.window with hr := s.heldGroups c }
    issue := { c.issue with since := s.fresh, codeSince := if fresh then s.fresh else c.issue.codeSince } }
  let s := if fresh then s.newId else s
  { s with coaches := s.coaches ++ [c] }

/-- Seat coaches in their slots. -/
def State.seatAll (s : State) (r : Rake) (cs : List (Coach × Nat)) : State :=
  cs.foldl (fun s p => s.seat r p.1 p.2) s

/-- The resident coach of a rake with a coach index. -/
def State.member (s : State) (r : Rake) (i : Nat) : Option Coach :=
  s.allCoaches.find? fun c =>
    c.ident.haul == r.haul && c.ident.rake == r.rake && c.ident.cidx == i && c.ident.level == 0

/-- Give a restored rake's tokens and weights, and its coaches' banks (R268). -/
def State.giveArray (s : State) (r : Rake) (v : SavedRake) : State :=
  let s := v.owners.foldl (fun s p =>
    let core := r.core p.1
    let mask := maskOf (p.2.filterMap fun i => (s.member r i).map (·.ident.slot))
    ((s.modCore core fun k => { k with token := mask }).clear (homeWgt core 0) 32768).putAt (homeWgt core 0)
      ((v.wgt.filter fun w => w.1 == p.1).map (·.2))) s
  v.acc.foldl (fun s p =>
    match s.member r p.1 with
    | none => s
    | some c =>
      let a := homeAcc c.ident.core (16384 * p.2.1)
      ((s.modCore c.ident.core fun k => { k with banks := k.banks ++ [(p.2.1, c.ident.id)] }).clear a 16384).putAt a p.2.2) s

/-- Write back what was saved of a rake's quad memory and scratchpads, of the stacks in use the bytes that are 0 too (R40,
R353). What an image has for a relative core that holds no coach of the rake has no place and is dropped: DESIGN CHOICE, log 73. -/
def State.fillRake (s : State) (h : Haul) (r : Rake) (v : SavedRake) : State :=
  let s := s.putAt (homeQm r.quad r.qmBase) v.qm
  let s := v.coaches.foldl (fun s c =>
    let base := homeScr (r.core c.ident.rel) ((r.scr[c.ident.rel]?).getD 0)
    (stackSpans [c]).foldl (fun s p => s.clear (base + p.1) p.2) s) s
  (List.range 4).foldl (fun s j =>
    if h.hdr.coachesOn j = 0 then s
    else s.putAt (homeScr (r.core j) ((r.scr[j]?).getD 0)) ((v.scr.filter fun p => p.1 == j).map (·.2))) s

/-- The room a rake takes reads as zero: quad memory and program scratchpad (R35, R40). -/
def State.clearRake (s : State) (h : Haul) (r : Rake) : State :=
  let s := s.clear (homeQm r.quad r.qmBase) h.hdr.qmb
  (List.range 4).foldl (fun s j =>
    if h.hdr.coachesOn j = 0 then s else s.clear (homeScr (r.core j) ((r.scr[j]?).getD 0)) h.hdr.scrb) s

/-- The instruction caches of a quad's cores fetch ahead from now on (R307, log 4). -/
def State.warmCode (s : State) (quad : Nat) : State :=
  (List.range 4).foldl (fun s j => s.modCore (4 * quad + j) fun k => { k with warm := true }) s

/-- Place a rake on a quad: its coaches, its memory and, for a saved one, its array state (R35, R69 to R71, R353). -/
def State.place (s : State) (h : Haul) (r : Rake) (cs : List (Coach × Nat)) (v : Option SavedRake) : State :=
  let s := (if (s.quad r.quad).haul = none then s.takeQuad h r.quad else s).modQuad r.quad fun q => { q with power := .on, idleFrom := none }
  let s := (s.warmCode r.quad).clearRake h r
  let s := match v with
    | none => s
    | some v => s.fillRake h r v
  let s := { s.seatAll r cs with rakes := s.rakes ++ [r] }
  let s := match v with
    | none => s
    | some v => s.giveArray r v
  (s.modHaul h.id fun h => { h with
    nextRake := if v.isNone then h.nextRake + 1 else h.nextRake
    saved := h.saved.filter fun x => x.rake != r.rake
    waits := h.waits.filter fun p => p.1 != r.rake
    promoted := h.promoted.filter fun x => x != r.rake
    dies := if h.dies.any fun p => p.1 == r.rake then h.dies else h.dies ++ [(r.rake, r.quad / 16)] }).recountWatch h.id

/-- The coaches of a rake that waits, as they will start or resume before they have their places. -/
def Haul.coachesToSeat (h : Haul) (rake now : Nat) : List Coach :=
  match h.saved.find? fun r => r.rake == rake with
  | some r => r.coaches.map fun c => c.revive h now
  | none => (List.range h.hdr.ncoach).map fun i => h.freshCoach rake i

/-- RAKE_PLACE: a waiting rake is placed whole on a quad with room, in the order of the swap-in queue (R69 to R71, R76,
R268, R353). A restore that meets an uncorrectable error in the saved rake ends the haul with HWERR (R381). -/
def execRakePlace (haul rake quad rot : Nat) (slots : List Nat) (s : State) : Host.Outcome State Fault Refusal :=
  .next (match s.haul? haul with
    | none => s
    | some h =>
      let cs := h.coachesToSeat rake s.fresh
      if s.room h rake quad rot && s.isNext h rake quad && s.slotsOk cs quad rot slots then
        let at_ := cs.zip slots
        let new (rel old : Nat) : Nat :=
          ((at_.find? fun p => p.1.ident.rel == rel && p.1.ident.slot == old).map (·.2)).getD old
        if (h.saved.any fun r => r.rake == rake) && s.areaBad haul rake then s.stopHaul haul 9 8 0
        else s.place h (s.newRake h rake quad rot)
          (at_.map fun p =>
            ({ p.1 with special := { p.1.special with gang := regang (new p.1.ident.rel) p.1.special.gang } }, p.2))
          (h.saved.find? fun r => r.rake == rake)
      else s)

/-! ### Pre-emption requests (R350) -/

/-- Raise a request on a coach: one that waits is at its save point at once, unless it is still to re-execute an offset (R350;
log 20). -/
def Coach.request (c : Coach) (now : Dword) : Coach :=
  if c.preempt.pending then c
  else
    let w := c.issue.phase == .waiting && c.issue.rex.isNone
    { c with preempt := { coachNone.preempt with pending := true, atSave := w, full := w, since := now } }

/-- Whether a coach is one of a rake's own (R26, R350: shading coaches are never saved). -/
def Coach.of (c : Coach) (haul rake : Nat) : Bool :=
  c.present && c.ident.haul == haul && c.ident.rake == rake && c.ident.level == 0

/-- Change every coach of a rake. -/
def State.modRake (s : State) (haul rake : Nat) (f : Coach → Coach) : State :=
  let g (c : Coach) : Coach := if c.of haul rake then f c else c
  { s with co := g s.co, coaches := s.coaches.map g }

/-- Raise a request on every coach of a rake (R350). -/
def State.requestRake (s : State) (haul rake : Nat) : State := s.modRake haul rake fun c => c.request s.dev.time

/-- Raise a request on every resident rake that f names. -/
def State.requestWhere (s : State) (f : Rake → Bool) : State :=
  (s.rakes.filter f).foldl (fun s r => s.requestRake r.haul r.rake) s

/-- PREEMPTION_DEADLINE: a coach that has met no PHINT within DEADLINE of its request is at its save point, in full, at the
end of its run (R350). -/
def execPreemptionDeadline (haul rake : Nat) (s : State) : Host.Outcome State Fault Refusal :=
  .next (match s.haul? haul with
    | none => s
    | some h =>
      s.modRake haul rake fun c =>
        if c.preempt.pending && !c.preempt.atSave && c.issue.rex.isNone &&
            decide (h.hdr.deadlineUs * ticksPerUs ≤ (s.dev.time - c.preempt.since).toNat) then
          { c with preempt := { c.preempt with atSave := true, full := true } }
        else c)

/-! ### Time slices, shared quads, changes of haul (R72, R76, R358) -/

/-- Whether rake a has been resident longer than b, or as long with a lower index (R76). -/
def Rake.older (a b : Rake) : Bool :=
  decide (a.since.toNat < b.since.toNat) || (a.since == b.since && decide (a.rake < b.rake))

/-- The victim of a quad: its rake resident longest, once it has been there for its haul's SLICE (R76). -/
def State.victim (s : State) (quad : Nat) : Option Rake :=
  match s.rakes.filter fun r => r.quad == quad with
  | [] => none
  | r :: t =>
    let v := t.foldl (fun a b => if b.older a then b else a) r
    match s.haul? v.haul with
    | none => none
    | some h => if h.hdr.sliceUs * ticksPerUs ≤ (s.dev.time - v.since).toNat then some v else none

/-- Whether one of the sources of R350 asks for a resident rake: a SAVE or MIGOUT of its haul, a lock request of its VF, or time
slicing, which drains the rake's quad or has it as its victim while a rake of the VF waits (R76, R358). -/
def State.asked (s : State) (h : Haul) (r : Rake) : Bool :=
  h.saving.isSome || (s.vf h.vf).locking.isSome || (s.quad r.quad).draining ||
  (s.swapIn (s.quad r.quad).vf != [] && s.victim r.quad == some r)

/-- PREEMPTION_REQUEST: a source raises its request on every coach of a rake (R350). -/
def execPreemptionRequest (haul rake : Nat) (s : State) : Host.Outcome State Fault Refusal :=
  .next (match s.haul? haul, s.rake? haul rake with
    | some h, some r => if s.asked h r then s.requestRake haul rake else s
    | _, _ => s)

/-- TIME_SLICE: while a rake of the VF waits, the quad's victim is requested; for a rake of another haul every rake is, and
the quad drains (R76). -/
def execTimeSlice (quad : Nat) (s : State) : Host.Outcome State Fault Refusal :=
  .next (match s.victim quad, s.swapIn (s.quad quad).vf with
    | some v, w :: _ =>
      if w.haul = v.haul then s.requestRake v.haul v.rake
      else (s.requestWhere fun r => r.quad == quad).modQuad quad fun q => { q with draining := true }
    | _, _ => s)

/-- VF_SLICE_SWITCH: a shared quad whose VF has held it for its SLICE saves its rakes and drains when another VF that lists
it has a rake waiting; once nothing of it is left it serves the next such VF in ascending number, wrapping (R358). -/
def execVfSliceSwitch (quad : Nat) (s : State) : Host.Outcome State Fault Refusal :=
  .next (match s.sharers quad with
    | [] => s
    | n :: _ =>
      if !s.vfOver quad then s
      else if (s.quad quad).haul = none then
        s.modQuad quad fun q => { q with vf := n, vfSince := s.dev.time, draining := false }
      else (s.requestWhere fun r => r.quad == quad).modQuad quad fun q => { q with draining := true })

/-- Whether a quad may leave its haul: no rake of it resident, nothing in its lifts (R72). -/
def State.drained (s : State) (quad haul : Nat) : Bool :=
  !(s.rakes.any fun r => r.quad == quad) &&
  !(s.views.any fun v => v.quad == quad && v.haul == haul && !v.complete) &&
  !(s.allCoaches.any fun c => c.ident.core / 4 == quad) &&
  (s.quad quad).lifts.all fun l => l.fifo.isEmpty

/-- QUAD_HAUL_CHANGE: a drained quad releases its haul's lifts and may take the next haul (R72). -/
def execQuadHaulChange (quad : Nat) (s : State) : Host.Outcome State Fault Refusal :=
  .next (match (s.quad quad).haul with
    | none => s
    | some h => if s.drained quad h then s.vacate quad else s)

end Sys2Proof.Machine
end

