-- ==== Sys2Proof/Machine/Power.lean ====
section
/-! DEFINITION. Power control, clocks, gating, and integrity events (R85, R86, R342, R375 to R383). -/

namespace Sys2Proof.Machine

/-! ### Clocks and cadence (R21, R240, R376, R377) -/

/-- A clock power control may set: 0.6 to 1.9 GHz in 25 MHz steps (R375). -/
def clockOk (mhz : Nat) : Bool := decide (600 ≤ mhz ∧ mhz ≤ 1900) && mhz % 25 == 0

/-- A quad's clock begins to change: its cores and engines pause (R376). -/
def Quad.changeTo (q : Quad) (mhz : Nat) : Quad := if q.changing then q else { q with changing := true, target := mhz }

/-- CLOCK_CHANGE (R376). -/
def execClockChange (quad mhz : Nat) (s : State) : Host.Outcome State Fault Refusal :=
  .next (if clockOk mhz then s.modQuad quad fun q => q.changeTo mhz else s)

/-- CLOCK_STABLE: the quad resumes; its held traps are taken, each by its TRAP_ENTRY (R342). -/
def execClockStable (quad : Nat) (s : State) : Host.Outcome State Fault Refusal :=
  .next (s.modQuad quad fun q => if q.changing then { q with changing := false, clock := q.target } else q)

/-- The effective priority of a quad: the highest of its coaches', counted from 1, 0 without one (R74, R376): DESIGN CHOICE, log
63. -/
def State.quadPrio (s : State) (quad : Nat) : Nat :=
  ((s.allCoaches.filter fun c => c.ident.core / 4 == quad).map fun c => s.effPrio c + 1).foldl max 0

/-- The clock a quad has, or is changing to. -/
def Quad.clockTo (q : Quad) : Nat := if q.changing then q.target else q.clock

/-- A quad's clock is cut to a limit; a change in progress ends no higher (R376). -/
def Quad.cutTo (q : Quad) (mhz : Nat) : Quad := if q.changing then { q with target := min q.target mhz } else q.changeTo mhz

/-- POWER_LIMIT_CROSSED: the quads of lowest effective priority among those above the limit are cut to it, and with the next
such step those of the next (R376). -/
def execPowerLimitCrossed (mhz : Nat) (s : State) : Host.Outcome State Fault Refusal :=
  let above := (List.range 64).filter fun n => decide (mhz < (s.quad n).clockTo)
  .next (if clockOk mhz then
      (above.filter fun n => above.all fun k => decide (s.quadPrio n ≤ s.quadPrio k)).foldl
        (fun s n => s.modQuad n fun q => q.cutTo mhz) s
    else s)

/-- RIC_WRITE: a core's cadence, 1 to 16 (R240, R377). -/
def execRicWrite (core cadence : Nat) (s : State) : Host.Outcome State Fault Refusal :=
  .next (if 1 ≤ cadence ∧ cadence ≤ 16 then s.modCore core fun k => { k with ric := BitVec.ofNat 5 cadence } else s)

/-! ### Gating (R85, R86, R378) -/

/-- Whether a band of a core is selected by an operation not yet performed (R239, R378). -/
def Core.selected (k : Core) (band : Nat) : Bool := k.queue.any fun op => op.selects.getLsbD band

/-- BAND_GATE: a band that nothing has selected for 4 µs is gated; its weights survive (R239, R378). -/
def execBandGate (core band : Nat) (s : State) : Host.Outcome State Fault Refusal :=
  .next (if 4 ≤ band ∨ (s.core core).selected band ∨ s.dev.wakes.contains (true, 4 * core + band) ∨
        (s.dev.time - vget (s.core core).bandUsed band).toNat < 4 * ticksPerUs then s
    else s.modCore core fun k => { k with gated := k.gated ||| (1#4 <<< band) })

/-- BAND_WAKE: the wake of a gated band that an operation waits for joins the in-rush arbiter's queue (R378). -/
def execBandWake (core band : Nat) (s : State) : Host.Outcome State Fault Refusal :=
  let unit := 4 * core + band
  .next (if (s.core core).gated.getLsbD band ∧ (s.core core).selected band ∧ !s.dev.wakes.contains (true, unit) then
      s.modDev fun d => { d with wakes := d.wakes ++ [(true, unit)] }
    else s)

/-- Whether a quad has nothing to do: no coach, no shading work, no Dray command, no event record (R85). -/
def State.quiet (s : State) (quad : Nat) : Bool :=
  let q := s.quad quad
  !(s.allCoaches.any fun c => c.ident.core / 4 == quad) && !(s.views.any fun v => v.quad == quad && !v.complete) &&
  q.events.isEmpty && q.held.isEmpty &&
  (List.range 4).all fun n =>
    let ch := vget q.chans n
    ch.queue.isEmpty && ch.held.isEmpty && ch.running.isNone

/-- QUAD_IDLE: the idle timer of a quad with nothing pending starts, and at 100 µs the quad becomes idle; a placement stops it
(R85, R86). -/
def execQuadIdle (quad : Nat) (s : State) : Host.Outcome State Fault Refusal :=
  .next (if (s.quad quad).power ≠ .on then s
    else if !s.quiet quad then s.modQuad quad fun q => { q with idleFrom := none }
    else match (s.quad quad).idleFrom with
      | none => s.modQuad quad fun q => { q with idleFrom := some s.dev.time }
      | some t =>
        if (s.dev.time - t).toNat < 100 * ticksPerUs then s
        else s.modQuad quad fun q => { q with power := .idle, idleFrom := none })

/-- QUAD_GATE: the gating of an idle quad begins; it holds no haul then. A quad that has work again is idle no more
(R85, R86). -/
def execQuadGate (quad : Nat) (s : State) : Host.Outcome State Fault Refusal :=
  .next (if (s.quad quad).power ≠ .idle then s
    else if s.quiet quad then (s.vacate quad).modQuad quad fun q => { q with power := .gating }
    else s.modQuad quad fun q => { q with power := .on, idleFrom := none })

/-- GATING_COMPLETE: the quad is gated (R86). -/
def execGatingComplete (quad : Nat) (s : State) : Host.Outcome State Fault Refusal :=
  .next (s.modQuad quad fun q => if q.power = .gating then { q with power := .gated } else q)

/-- QUAD_WAKE: a gated quad that a dispatch waits for joins the in-rush arbiter's queue (R86, R378). -/
def execQuadWake (quad : Nat) (s : State) : Host.Outcome State Fault Refusal :=
  .next (if (s.quad quad).power = .gated ∧ ((List.range 32).any fun n => s.lists n quad && s.swapIn n != []) then
      (s.modQuad quad fun q => { q with power := .waking }).modDev fun d => { d with wakes := d.wakes ++ [(false, quad)] }
    else s)

/-- WAKE_CHAIN_END: the unit that holds the grant is usable, and the grant passes to the next queued wake (R378). -/
def execWakeChainEnd (s : State) : Host.Outcome State Fault Refusal :=
  .next (match s.dev.wakes with
    | [] => s
    | (band, n) :: rest =>
      let s := s.modDev fun d => { d with wakes := rest }
      if band then s.modCore (n / 4) fun k => { k with gated := k.gated &&& ~~~(1#4 <<< (n % 4)) }
      else s.modQuad n fun q => { q with power := .on })

/-! ### Errors (R380 to R383) -/

/-- Units of a kind on each die (R48, R383); 0 for a code that is none. -/
def unitsOf (code : Nat) : Nat :=
  match code with
  | 1 => 2
  | 2 => 4
  | 3 | 5 => 16
  | 4 | 6 => 64
  | 7 => 1
  | 8 => 2
  | _ => 0

/-- Whether a unit exists. -/
def unitOk (die unit index : Nat) : Bool := decide (die < 4 ∧ index < unitsOf unit)

/-- Change the entry of a unit in the error counts: corrected, uncorrectable, degraded. -/
def countIn (die unit index : Nat) (f : Nat × Nat × Bool → Nat × Nat × Bool) :
    List (Nat × Nat × Nat × Nat × Nat × Bool) → List (Nat × Nat × Nat × Nat × Nat × Bool)
  | [] => [(die, unit, index, f (0, 0, false))]
  | (d, u, i, x) :: t =>
    if d = die ∧ u = unit ∧ i = index then (d, u, i, f x) :: t else (d, u, i, x) :: countIn die unit index f t

/-- A corrected error is counted; past its threshold the unit is degraded (R380, R383). -/
def State.corrected (s : State) (die unit index : Nat) : State :=
  s.modDev fun d => { d with
    errors := countIn die unit index (fun x => (x.1 + 1, x.2.1, x.2.2 || Config.degrades s.fresh)) d.errors }

/-- An uncorrectable error is counted (R383). -/
def State.uncorrected (s : State) (die unit index : Nat) : State :=
  s.modDev fun d => { d with errors := countIn die unit index (fun x => (x.1, x.2.1 + 1, x.2.2)) d.errors }

/-- Bytes of the codeword of a unit's memory: 32 for HBM, 8 for SRAM, quad memory, L1 and L2 (R380). -/
def codeword (unit : Nat) : Nat := if unit = 8 then 32 else 8

/-- Whether a home address lies in the memory of a unit: a stack's eight channel groups, a die's, a quad's memory, a core's
pool; an L1 may hold a granule of any global home (R14 to R16, R383). -/
def unitHolds (die unit index addr : Nat) : Bool :=
  let core := 64 * die + index
  match unit with
  | 4 => (isScr addr && addr / homeSpan == homeScr core 0 / homeSpan && decide (addr % homeSpan < poolBytes)) ||
      addr / homeSpan == homeAcc core 0 / homeSpan
  | 5 => addr / homeSpan == homeQm (16 * die + index) 0 / homeSpan
  | 6 => isGlobal addr
  | 7 => decide (addr < devBytes) && groupOf addr / 16 == die
  | 8 => decide (addr < devBytes) && groupOf addr / 8 == 2 * die + index
  | _ => true

/-- The words of a coach's registers that lie in given granules of its core's pool: physical register and lane (R15). -/
def Coach.regsAt (c : Coach) (gs : List Nat) : List (Nat × Nat) :=
  gs.filterMap fun g =>
    let a := g % homeSpan
    if g / homeSpan = homeScr c.ident.core 0 / homeSpan ∧ c.window.regPool.contains (a / 1024) then
      some (8 * (c.window.regPool.takeWhile fun b => b != a / 1024).length + a % 1024 / 128, a % 128 / 4)
    else none

/-- Poison the granules of the codeword that holds a home address; one of the register region of a pool poisons the register
word it holds (R15, R381). -/
def State.poison (s : State) (unit addr : Nat) : State :=
  let n := codeword unit
  let gs := (List.range (n / 4)).map fun i => addr / n * n + 4 * i
  let up (c : Coach) : Coach :=
    let rs := if c.present then c.regsAt gs else []
    if rs = [] then c else { c with regs := { c.regs with bad := c.regs.bad ++ rs.filter fun r => !c.regs.bad.contains r } }
  let inReg (g : Nat) : Bool := s.allCoaches.any fun c => c.regsAt [g] != []
  { s with co := up s.co, coaches := s.coaches.map up }.poisonAll (gs.filter fun g => !inReg g)

/-- An access that a crossbar or a Coupler carries fails: one of a coach that is in flight now, or any that reads the granule in
the next step (R380, R381). -/
def State.failAccess (s : State) (g : Nat) : State :=
  let s := s.modDev fun d => { d with lost := (g, s.fresh + 1) :: d.lost.filter fun p => decide (s.fresh < p.2) }
  match s.allCoaches.find? fun c => c.issue.deferred.any fun d => d.needs g with
  | none => s
  | some c => s.modCoach c.ident.id fun c => c.failLoads g

/-- FLIT_RETRY: a bad flit of a die-to-die or Coupler link is sent again (R380). -/
def execFlitRetry (die unit index : Nat) (s : State) : Host.Outcome State Fault Refusal :=
  .next (if unitOk die unit index ∧ (unit = 1 ∨ unit = 2) then s.corrected die unit index else s)

/-- Every haul of the device ends with HWERR (R374, R380). -/
def State.endAll (s : State) (status : Nat) (detail : Word) : State :=
  (s.hauls.filter fun h => !h.retired && h.ended.isNone).foldl (fun s h => s.stopHaul h.id status detail 0) s

/-- LINK_RETRAIN: after eight retries the link retrains; a die-to-die link that fails ends every haul with HWERR (R380). -/
def execLinkRetrain (die unit index : Nat) (ok : Bool) (s : State) : Host.Outcome State Fault Refusal :=
  .next (if !unitOk die unit index ∨ (unit ≠ 1 ∧ unit ≠ 2) ∨ ok then s
    else
      let s := s.uncorrected die unit index
      if unit = 1 then s.endAll 9 1 else s)

/-- UNCORRECTABLE_ERROR: a memory's error poisons the granules it touches; one of a crossbar or a Coupler fails an access
(R380, R381). -/
def execUncorrectableError (die unit index addr : Nat) (s : State) : Host.Outcome State Fault Refusal :=
  .next (if !unitOk die unit index ∨ unit = 1 ∨ !unitHolds die unit index addr then s
    else
      let s := s.uncorrected die unit index
      if unit = 2 ∨ unit = 3 then s.failAccess (granule addr) else s.poison unit addr)

/-- SCRUB: a correctable error of a memory is corrected in place, by the scrubber of HBM, the L2 or quad memory or at an access
of an SRAM pool or an L1; what the scrubber cannot correct it poisons (R380, R381). -/
def execScrub (die unit index addr : Nat) (correctable : Bool) (s : State) : Host.Outcome State Fault Refusal :=
  .next (if !unitOk die unit index ∨ unit < 4 ∨ !unitHolds die unit index addr then s
    else if correctable then s.corrected die unit index
    else if unit = 4 ∨ unit = 6 then s
    else (s.uncorrected die unit index).poison unit addr)

end Sys2Proof.Machine
end

