-- ==== Sys2Proof/Machine/Queues.lean ====
section
/-! DEFINITION. Kicks, the queue table, packets, and the lead die controller's reading of them (R50 to R60, R64, R67,
R400). -/

namespace Sys2Proof.Machine

/-! ### The queue table (R54, R55) -/

/-- A level-1 entry that may be used (R54). -/
def l1Ok (e : Dword) : Bool := e.getLsbD 0 && e.extractLsb' 52 12 == 0 && e.extractLsb' 3 9 == 0

/-- A QCB that may be used: V, and every field within its limits (R55). ERRSIG may be any address: DESIGN CHOICE, log 75. -/
def qcbOk (b : List Byte) : Bool :=
  let f (o n : Nat) : Nat := field b o n
  f 0 1 % 2 == 1 && decide (f 0 1 < 8) && decide (f 1 1 < 4) && decide (4 ≤ f 2 1 ∧ f 2 1 ≤ 16) && decide (f 3 1 < 4) &&
  decide (f 4 2 < 4096) && decide (f 6 1 < 4) && decide (f 7 1 < 6) && f 8 8 % (64 * 2 ^ f 2 1) == 0 && f 0x24 4 == 0 &&
  f 0x32 2 == 0 && f 0x34 4 == 0 && f 0x38 8 % 4096 == 0 && decide (f 0x38 8 < 2 ^ 52)

/-- How a walk of the queue table ends: dropped, held on a non-present entry, or at a QCB with its level-1 entry. -/
inductive Walk where
  | drop
  | hold (entry : Nat)
  | found (l1 qcb : Nat)
  deriving DecidableEq, Repr

/-- The walk of R57 steps 1 and 2 for a PASID and queue number. -/
def State.walkQueue (s : State) (vf pasid qno : Nat) : State × Walk :=
  let q := (s.vf vf).queues
  if (q.extractLsb' 0 12).toNat ≤ pasid then (s, .drop)
  else match s.gpaHome vf ((q.extractLsb' 12 40).toNat * 4096 + 8 * pasid) false with
    | (s, none) => (s, .drop)
    | (s, some a) =>
      let e : Dword := BitVec.ofNat 64 (s.rdNat a 8)
      if s.poisoned a 8 || !l1Ok e then (s, .drop)
      else if !e.getLsbD 1 then (s, .hold a)
      else match s.gpaHome vf ((e.extractLsb' 12 40).toNat * 4096 + 64 * qno) false with
        | (s, none) => (s, .drop)
        | (s, some c) =>
          if s.poisoned c 64 || !qcbOk (s.rd c 64) then (s, .drop)
          else if !(s.rdNat c 1).testBit 1 then (s, .hold c)
          else (s, .found a c)

/-- The leader comes to know a queue. -/
def State.knowQueue (s : State) (vf pasid qno qcb : Nat) : State :=
  if s.queues.any fun q => q.vf == vf && q.qcb == qcb then s
  else { s.newId with queues := s.queues ++ [{
    id := s.nextId, vf := vf, pasid := pasid, qno := qno, qcb := qcb, rdidx := s.rdNat (qcb + 0x14) 4, packets := [], reading := none, force := [], stopped := false }] }

/-- Set bit KSLOT of a die's pending-kick bitmap (R57, R58). -/
def State.setKick (s : State) (die slot : Nat) : State :=
  s.modDev fun d => { d with kicks := vset d.kicks die (vget d.kicks die ||| (1#4096 <<< slot)) }

/-- A kick of a VF, walked (R57): dropped and counted, held on a non-present entry, or taken. -/
def State.walkKick (s : State) (vf : Nat) (word : Word) (pasid : BitVec 20) : State :=
  if word.toNat / 1024 ≠ 0 ∨ (s.vf vf).flrb ∨ !(s.vf vf).en then s.bumpVf vf 0
  else match s.walkQueue vf pasid.toNat (word.toNat % 1024) with
    | (s, .drop) => s.bumpVf vf 0
    | (s, .hold e) => s.modVf vf fun v => { v with heldKicks := v.heldKicks ++ [(e, word, pasid)] }
    | (s, .found a c) =>
      let s := s.wrNat a 1 (s.rdNat a 1 ||| 4)
      let s := s.wrNat c 1 (s.rdNat c 1 ||| 4)
      let s := s.wrNat (c + 0x20) 4 (s.rdNat (c + 0x20) 4 + 1)
      (s.setKick (s.rdNat (c + 6) 1) (s.rdNat (c + 4) 2)).knowQueue vf pasid.toNat (word.toNat % 1024) c

/-- KICK: a write of a VF's notify page, with the VF's default PASID where it has none (R56, R57). -/
def execKick (vf : Nat) (w : BitVec 32) (pasid : Option (BitVec 20)) (s : State) : Host.Outcome State Fault Refusal :=
  .next (if vf < 32 then s.walkKick vf w (pasid.getD (s.vf vf).dpasid) else s)

/-- Firmware's act on a non-present entry that is valid: it sets P, or clears V; free value, log 70 (R57 step 2). One that the
leader's port does not reach stays as it is (R357, R368; log 79). -/
def State.settleEntry (s : State) (entry : Nat) : State :=
  s.atPort (ctrlPort s.leaderDie) entry fun s =>
    let x := s.rdNat entry 1
    if !x.testBit 0 || x.testBit 1 then s else s.wrNat entry 1 (if Config.makesPresent s.fresh then x ||| 2 else x - 1)

/-- KICK_REWALK: firmware settles an entry that kicks are held for, and they are walked again in arrival order (R57). -/
def execKickRewalk (vf entry : Nat) (s : State) : Host.Outcome State Fault Refusal :=
  let held := (s.vf vf).heldKicks.filter fun k => k.1 == entry
  .next (if held = [] ∨ !s.leads then s
    else
      let s := (s.settleEntry entry).modVf vf fun v => { v with heldKicks := v.heldKicks.filter fun k => k.1 != entry }
      held.foldl (fun s k => s.walkKick vf k.2.1 k.2.2) s)

/-! ### Taking kicks (R58, R59) -/

/-- A kick or rescan finds a queue: an IDLE one with packets becomes ACTIVE, or joins the deferred list (R59). -/
def State.examine (s : State) (q : Queue) : State :=
  if !s.qcbSeen q then s.countRefused q.qcb
  else if s.qstate q ≠ qIdle ∨ s.qcb q 0x10 4 = q.rdidx ∨ q.force ≠ [] ∨ (s.vf q.vf).deferred.contains q.id then s
  else if s.quotaRoom q.vf then s.setQstate q qActive
  else s.modVf q.vf fun v => { v with deferred := v.deferred ++ [q.id] }

/-- Bits of one word of a pending-kick bitmap (R3, R58). -/
def kickBits : Nat := 32

/-- The leader comes to know the queues of one PASID that a test on their QCBs names. -/
def State.discoverPasid (vf : Nat) (f : State → Nat → Bool) (s : State) (pasid : Nat) : State :=
  (List.range 1024).foldl (fun s qno =>
    match s.walkQueue vf pasid qno with
    | (s, .found _ qcb) => if f s qcb then s.knowQueue vf pasid qno qcb else s
    | (s, _) => s) s

/-- The leader comes to know every queue in the tables of the enabled VFs that a test names, kicked before or not (R54,
R58). -/
def State.discover (s : State) (f : State → Nat → Bool) : State :=
  (List.range 32).foldl (fun s vf =>
    if (s.vf vf).en then
      (List.range ((s.vf vf).queues.extractLsb' 0 12).toNat).foldl (State.discoverPasid vf f) s
    else s) s

/-- Whether the QCB at a home lies on a slot of a bitmap word taken with these bits set (R55, R58). -/
def onSlot (die word : Nat) (bits : BitVec kickBits) (s : State) (qcb : Nat) : Bool :=
  s.rdNat (qcb + 6) 1 == die && s.rdNat (qcb + 4) 2 / kickBits == word && bits.getLsbD (s.rdNat (qcb + 4) 2 % kickBits)

/-- Take a bitmap word: swap it with zero and examine every queue on the slots taken (R58). -/
def State.takeKicks (s : State) (die word : Nat) : State :=
  let bits := (vget s.dev.kicks die).extractLsb' (kickBits * word) kickBits
  let mask : BitVec 4096 := (BitVec.allOnes kickBits).zeroExtend 4096 <<< (kickBits * word)
  if bits = 0 then s
  else
    let s := s.modDev fun d => { d with kicks := vset d.kicks die (vget d.kicks die &&& ~~~mask) }
    let s := s.discover (onSlot die word bits)
    (s.queues.filter fun q => onSlot die word bits s q.qcb).foldl State.examine s

/-- PENDING_KICK_TAKE (R58). -/
def execPendingKickTake (die word : Nat) (s : State) : Host.Outcome State Fault Refusal :=
  .next (if s.leads ∧ die < 4 ∧ word < 4096 / kickBits then s.takeKicks die word else s)

/-! ### Reading packets (R50, R51, R67) -/

/-- Whether every dword of a packet but those at the offsets given is zero, from 0x08 on. -/
def restZero (b : List Byte) (used : List Nat) : Bool :=
  (List.range 7).all fun i => used.contains (8 + 8 * i) || field b (8 + 8 * i) 8 == 0

/-- A packet address: bits [63:52] are reserved (R51). -/
def addrOk (b : List Byte) (o : Nat) : Bool := decide (field b o 8 < 2 ^ 52)
/-- A signal: an aligned dword (R51). -/
def signalOk (b : List Byte) (o : Nat) : Bool := addrOk b o && field b o 8 % 8 == 0

/-- Whether a packet breaks the format of R51. The ADDR of a WAIT counts as a signal, that of a MARKER does not: DESIGN CHOICE, log
75. -/
def packetBad (b : List Byte) : Bool :=
  let arg := field b 4 4
  decide (2 ≤ field b 1 1) || field b 2 2 != 0 ||
  match field b 0 1 with
  | 0 => arg != 0 || !restZero b []
  | 1 => arg != 0 || !restZero b [8, 16, 24] || !addrOk b 8 || !signalOk b 16 || !addrOk b 24
  | 2 => decide (3 ≤ arg) || !restZero b [8, 16] || !signalOk b 8
  | 3 => decide (4 ≤ arg) || !restZero b [8, 16, 24] || !signalOk b 8 || decide (2 ^ 32 ≤ field b 24 8)
  | 4 => decide (2 ≤ arg) || !restZero b []
  | 5 => arg != 0 || !restZero b [8, 16] || !addrOk b 8
  | 6 => arg != 0 || !restZero b [8, 16, 24, 32] || !addrOk b 8 || !addrOk b 16 || field b 24 8 == 0 ||
      decide (2 ^ 32 < field b 24 8) || !signalOk b 32
  | _ => true

/-- Whether the leader reads packets of a queue (R50, R59, R66, R354). -/
def State.reads (s : State) (q : Queue) : Bool :=
  s.leads && s.qstate q == qActive && q.force == [] && !q.stopped && (s.vf q.vf).blackout.isNone && !(s.vf q.vf).flrb

/-- A packet that has been read goes into the journal: RDIDX passes it, and its format is checked (R50, R51, R64, R67). -/
def State.journalPacket (s : State) (q : Queue) (b : List Byte) : State :=
  let rd := q.rdidx
  let s := (s.wrNat (q.qcb + 0x14) 4 ((rd + 1) % 2 ^ 32)).modQueue q.id fun q => { q with
    reading := none, rdidx := (rd + 1) % 2 ^ 32 }
  if packetBad b then (s.queueError q 2).settleQueue q.id
  else
    let p : Packet := { index := rd, bytes := b, started := false, done := false, at_ := 0 }
    s.modQueue q.id fun q => { q with packets := (q.packets.filter fun p => !p.done) ++ [p] }

/-- Read the next packet of a queue; until it is journalled a controller that takes over reads it again (R50, R65, R67). A queue
with nothing to read is settled (R59). -/
def State.fetchPacket (s : State) (q : Queue) : State :=
  let wr := s.qcb q 0x10 4
  let rd := q.rdidx
  let size := 2 ^ s.qcb q 2 1
  if wr = rd then s.settleQueue q.id
  else if size < (wr + 2 ^ 32 - rd) % 2 ^ 32 then (s.queueError q 1).settleQueue q.id
  else match s.readVa (s.queueCtx q) (s.qcb q 8 8 + 64 * (rd % size)) 64 with
    | (s, .ok b) => s.modQueue q.id fun q => { q with reading := some b }
    | (s, _) => (s.queueError q 4).settleQueue q.id

/-- PACKET_FETCH: a packet is read, and with the next such step journalled (R50, R64). -/
def execPacketFetch (queue : Nat) (s : State) : Host.Outcome State Fault Refusal :=
  .next (match s.queue? queue with
    | none => s
    | some q =>
      if s.leads && !s.qcbSeen q then s.countRefused q.qcb
      else if !s.reads q then s
      else match q.reading with
        | none => s.fetchPacket q
        | some b => s.journalPacket q b)

/-! ### Starting packets (R52, R53) -/

/-- Whether a controller acts on the packets of a VF: it serves, and the VF neither migrates nor is being reset (R57, R354,
R360). -/
def State.acts (s : State) (vf : Nat) : Bool := s.leads && (s.vf vf).blackout.isNone && !(s.vf vf).flrb

/-- The leader acts on a packet of a queue: an act that meets a QCB its port does not reach is counted (R368; log 79). -/
def State.tried (s : State) (queue : Nat) : State :=
  match s.queue? queue with
  | none => s
  | some q => if s.leads && !s.qcbSeen q then s.countRefused q.qcb else s

/-- A packet that may start now: read, not started, every earlier one started, none of them holding it back, and with
BARRIER every earlier one complete (R53). -/
def State.startable (s : State) (queue index kind : Nat) : Option (Queue × Packet) :=
  match s.queue? queue with
  | none => none
  | some q =>
    let before := q.packets.takeWhile fun p => p.index != index
    match q.packets.find? fun p => p.index == index with
    | none => none
    | some p =>
      if s.acts q.vf && s.qcbSeen q && !p.started && p.kind == kind && before.all Packet.started &&
          !before.any Packet.holds && (!p.barrier || before.all Packet.done) then some (q, p)
      else none

/-- A packet of this kind that has started and not completed. -/
def State.pending (s : State) (queue index kind : Nat) : Option (Queue × Packet) :=
  match s.queue? queue with
  | none => none
  | some q =>
    match q.packets.find? fun p => p.index == index with
    | none => none
    | some p =>
      if s.acts q.vf && s.qcbSeen q && p.started && !p.done && p.kind == kind then some (q, p) else none

/-- A packet starts (R53, R65). -/
def State.startPacket (s : State) (queue index : Nat) : State :=
  s.modPacket queue index fun p => { p with started := true, at_ := s.dev.time }

/-- A dword of a packet. -/
def Packet.dw (p : Packet) (o : Nat) : Nat := field p.bytes o 8
/-- ARG of a packet. -/
def Packet.arg (p : Packet) : Nat := field p.bytes 4 4

/-- A packet ends: complete, or failed (R52, R400). -/
def State.endPacket (s : State) (queue index : Nat) (ok : Bool) : State :=
  if ok then s.packetDone queue index else s.failPacket queue index 4

/-- NOP_PACKET (R52). -/
def execNopPacket (queue index : Nat) (s : State) : Host.Outcome State Fault Refusal :=
  .next (match s.startable queue index 0 with
    | none => s.tried queue
    | some _ => (s.startPacket queue index).packetDone queue index)

/-- What a LAUNCH packet's haul comes from (R52, R55). -/
def State.launchSource (s : State) (q : Queue) (p : Packet) : Source where
  vf := q.vf
  pasid := q.pasid
  asid := BitVec.ofNat 16 (s.qcb q 0x30 2)
  root := BitVec.ofNat 64 (s.qcb q 0x38 8)
  cap := s.qcb q 3 1 % 4
  image := p.dw 8
  record := p.dw 24
  signal := p.dw 16
  packet := some (q.id, p.index)
  qno := some q.qno
  tcb := none
  spec := false
  psets := []

/-- LAUNCH_PACKET: the image is accepted, or refused with its record and signal at once (R52, R60, R373). -/
def execLaunchPacket (queue index : Nat) (s : State) : Host.Outcome State Fault Refusal :=
  .next (match s.startable queue index 1 with
    | none => s.tried queue
    | some (q, p) =>
      let s := s.startPacket queue index
      match s.launch (s.launchSource q p) with
      | (s, .ok _) => s
      | (s, .error e) =>
        let b := recordBytes e (if e = 9 then 8 else 0) (p.dw 8) 0 0 s.dev.time s.dev.time 0
        let r := s.recordAndSignal (s.queueCtx q) (p.dw 24) (p.dw 16) b
        r.1.endPacket queue index r.2)

/-- The new value of a signal (R52). -/
def signalOp (op value old : Nat) : Nat :=
  match op with
  | 0 => value
  | 1 => (old + value) % 2 ^ 64
  | _ => (old + 2 ^ 64 - value) % 2 ^ 64

/-- SIGNAL_PACKET (R52, R400). -/
def execSignalPacket (queue index : Nat) (s : State) : Host.Outcome State Fault Refusal :=
  .next (match s.startable queue index 2 with
    | none => s.tried queue
    | some (q, p) =>
      let s := s.startPacket queue index
      let r := s.atomicVa (s.queueCtx q) (p.dw 8) 8 (signalOp p.arg (p.dw 16))
      r.1.endPacket queue index r.2)

/-- The condition of a WAIT (R51). -/
def waitCond (cond x y : Nat) : Bool :=
  match cond with
  | 0 => x == y
  | 1 => x != y
  | 2 => decide (y ≤ x)
  | _ => decide (x < y)

/-- WAIT_PACKET: the wait begins (R52). -/
def execWaitPacket (queue index : Nat) (s : State) : Host.Outcome State Fault Refusal :=
  .next (match s.startable queue index 3 with
    | none => s.tried queue
    | some _ => s.startPacket queue index)

/-- Whether more than TIMEOUT µs have passed since a WAIT started (R52). -/
def State.waitOver (s : State) (p : Packet) : Bool :=
  p.dw 24 != 0 && decide (p.dw 24 * ticksPerUs < (s.dev.time - p.at_).toNat)

/-- WAIT_POLL: the dword is read at its home, a host granule's pkg copy standing for it (R297); the packet completes when the condition holds before TIMEOUT has passed (R52,
R400). -/
def execWaitPoll (queue index : Nat) (s : State) : Host.Outcome State Fault Refusal :=
  .next (match s.pending queue index 3 with
    | none => s.tried queue
    | some (q, p) =>
      if s.waitOver p then s.failPacket queue index 3
      else match s.translate (s.queueCtx q) .load (p.dw 8) with
      | (s, .found h _ _) =>
        if s.poisoned h 8 then s.failPacket queue index 4
        else if waitCond p.arg (s.peekNat h 8) (p.dw 16) then s.packetDone queue index
        else s
      | (s, _) => s.failPacket queue index 4)

/-- WAIT_TIMEOUT: TIMEOUT µs have passed (R52). What the packet held back is discarded with it (R53): DEDUCED, log 22. -/
def execWaitTimeout (queue index : Nat) (s : State) : Host.Outcome State Fault Refusal :=
  .next (match s.pending queue index 3 with
    | none => s.tried queue
    | some (_, p) =>
      if p.dw 24 ≠ 0 ∧ p.dw 24 * ticksPerUs ≤ (s.dev.time - p.at_).toNat then s.failPacket queue index 3 else s)

/-- FENCE_PACKET: with SCOPE 1 the host copies of every haul launched from the queue are flushed (R52, R313). -/
def execFencePacket (queue index : Nat) (s : State) : Host.Outcome State Fault Refusal :=
  .next (match s.startable queue index 4 with
    | none => s.tried queue
    | some (q, p) =>
      let s := s.startPacket queue index
      let s := if p.arg = 1 then ((s.hauls.filter fun h => h.fromQueue q).map fun h => (h.vf, h.asid)).dedup.foldl State.flushHost s else s
      s.packetDone queue index)

/-- MARKER_PACKET: TAG and the TIME at start, each written although the other fails (R52, R400). -/
def execMarkerPacket (queue index : Nat) (s : State) : Host.Outcome State Fault Refusal :=
  .next (match s.startable queue index 5 with
    | none => s.tried queue
    | some (q, p) =>
      let s := s.startPacket queue index
      let r := s.writeVa (s.queueCtx q) (p.dw 8) (leBytes 8 (p.dw 16))
      let t := r.1.writeVa (s.queueCtx q) (p.dw 8 + 8) (leBytes 8 s.dev.time.toNat)
      t.1.endPacket queue index (decide (r.2 = .ok []) && decide (t.2 = .ok [])))

/-- Copy n bytes one by one in ascending order; false at the first that fails (R52, R400). -/
def State.copyBytes (x : Ctx) : Nat → Nat → Nat → State → State × Bool
  | 0, _, _, s => (s, true)
  | n + 1, a, d, s =>
    match s.readVa x a 1 with
    | (s, .ok b) =>
      match s.writeVa x d b with
      | (s, .ok _) => State.copyBytes x n (a + 1) (d + 1) s
      | (s, _) => (s, false)
    | (s, _) => (s, false)

/-- DCOPY_PACKET: the copy begins on the service channel (R52). -/
def execDcopyPacket (queue index : Nat) (s : State) : Host.Outcome State Fault Refusal :=
  .next (match s.startable queue index 6 with
    | none => s.tried queue
    | some _ => s.startPacket queue index)

/-- DCOPY_PACKET_COMPLETE: the bytes are copied and the signal decremented, or the copy stops at the first that fails (R52,
R400). -/
def execDcopyPacketComplete (queue index : Nat) (s : State) : Host.Outcome State Fault Refusal :=
  .next (match s.pending queue index 6 with
    | none => s.tried queue
    | some (q, p) =>
      let x := s.queueCtx q
      match State.copyBytes x (p.dw 24) (p.dw 8) (p.dw 16) s with
      | (s, false) => s.failPacket queue index 4
      | (s, true) =>
        let r := s.recordAndSignal x 0 (p.dw 32) []
        r.1.endPacket queue index r.2)

end Sys2Proof.Machine
end

