-- ==== Sys2Proof/Machine/Mailbox.lean ====
section
/-! DEFINITION. The firmware mailbox, the commands that neither save nor migrate, and the page-request rings (R46 to R49, R66,
R89, R219, R234, R355, R383). -/

namespace Sys2Proof.Machine

/-! ### The mailbox in the host window (R46, R47) -/

/-- Home of the mailbox header. -/
def mbHeader : Nat := homeWin 0x2000
/-- Home of a VF's command block. -/
def mbBlock (v : Nat) : Nat := homeWin (0x3000 + 0x680 * v)
/-- Home of a slot. -/
def mbSlot (v i : Nat) : Nat := mbBlock v + 0x40 + 64 * i

/-- Whether MBSTATE is ready and the leader serves (R46, R47). -/
def State.mbReady (s : State) : Bool := s.rdNat mbHeader 4 == 1 && s.leads

/-- Set MBSTATE. -/
def State.setMbState (s : State) (n : Nat) : State := s.wrNat mbHeader 4 n

/-! ### Arguments (R48) -/

/-- The mask of ARG4 that a command may use in a block. -/
def arg4Ok (op block x : Nat) : Bool :=
  if block = 0 ∧ ([1, 2, 3, 7, 8, 9, 10] : List Nat).contains op then decide (x < 32) else x == 0

/-- Whether a command's arguments are within the limits of R48. -/
def argsOk (op block : Nat) (args : List Dword) : Bool :=
  let a (i : Nat) : Nat := ((args[i]?).getD 0).toNat
  arg4Ok op block (a 4) &&
  match op with
  | 1 => decide (a 0 < 2 ^ 20 ∧ a 1 < 2 ^ 10 ∧ a 2 < 2) && a 3 == 0
  | 2 => decide (a 0 < 2 ^ 20) && a 2 == 0 && a 3 == 0
  | 3 => decide (a 0 < 2 ^ 20)
  | 4 | 5 => decide (a 0 < 32) && a 3 == 0
  | 6 => decide (a 0 < 32) && a 1 == 0 && a 2 == 0 && a 3 == 0
  | 7 => decide (a 0 < 2 ^ 16) && a 3 == 0
  | 8 => a 0 % 64 == 0 && decide (a 1 ≤ 65535) && a 2 == 0 && a 3 == 0
  | 9 => decide (a 0 < 2 ^ 16 ∧ a 1 < 2) && a 2 == 0 && a 3 == 0
  | 10 =>
    decide (a 0 < 2 ^ 16) && a 1 % 64 == 0 && a 2 % 64 == 0 && a 3 == a 3 % 32 + a 3 / 256 % 32 * 256 &&
    decide (4 ≤ a 3 % 32 ∧ a 3 % 32 ≤ 16 ∧ 4 ≤ a 3 / 256 % 32 ∧ a 3 / 256 % 32 ≤ 16)
  | 11 => decide (a 0 < 4 ∧ a 1 < 256) && (unitsOf (a 1) == 0 || decide (a 2 < unitsOf (a 1))) && a 3 == 0
  | _ => a 0 == 0 && a 1 == 0 && a 2 == 0 && a 3 == 0

/-- The VF a command acts on (R48). -/
def commandVf (op block : Nat) (args : List Dword) : Nat :=
  if block ≠ 0 then block
  else if op = 4 ∨ op = 5 ∨ op = 6 then ((args[0]?).getD 0).toNat % 32
  else ((args[4]?).getD 0).toNat % 32

/-- The status of a command that is refused before it starts: BADOP, DENIED, BADARG (R48, R49); one that is both DENIED and
BADARG takes DENIED: DESIGN CHOICE, log 76. -/
def refusal? (op block : Nat) (args : List Dword) : Option Nat :=
  if op = 0 ∨ 12 < op then some 2
  else if (op = 4 ∨ op = 5 ∨ op = 6) ∧ block ≠ 0 then some 4
  else if argsOk op block args then none else some 3

/-! ### Taking and completing commands (R47) -/

/-- The leader reads a slot: one that is POSTED becomes TAKEN (R47 step 2). -/
def State.takeSlot (s : State) (block slot : Nat) : State :=
  let a := mbSlot block slot
  if s.rdNat (a + 2) 1 ≠ 1 then s
  else
    let op := s.rdNat a 2
    let args : List Dword := (List.range 5).map fun i => BitVec.ofNat 64 (s.rdNat (a + 8 + 8 * i) 8)
    let s := s.wr (a + 2) [2]
    { s with commands := s.commands ++ [{
      block := block, slot := slot, op := op, args := args, vf := commandVf op block args, started := false
      result := (refusal? op block args).map fun e => (e, 0) }] }

/-- A doorbell write as the leader takes it (R47). -/
def State.doorbell (s : State) (block : Nat) (value : Word) : State :=
  if 24 < value.toNat then s.bumpVf block 0x10 else s.takeSlot block value.toNat

/-- MAILBOX_DOORBELL: a doorbell is taken, or held while the mailbox is not ready (R47). -/
def execMailboxDoorbell (block : Nat) (value : BitVec 32) (s : State) : Host.Outcome State Fault Refusal :=
  .next (if 32 ≤ block then s
    else if s.mbReady then s.doorbell block value
    else s.modDev fun d => { d with doorbells := d.doorbells ++ [(block, value)] })

/-- Whether a command has neither started nor been refused (R47). -/
def Command.waits (c : Command) : Bool := !c.started && c.result.isNone

/-- A command that has been taken and has not ended, once every command that its block took before it has started (R47). -/
def State.command? (s : State) (block slot op : Nat) : Option Command :=
  let mine (c : Command) : Bool := c.block == block && c.slot == slot && c.op == op && c.result.isNone
  if s.leads && !(s.commands.takeWhile fun c => !mine c).any fun c => c.block == block && c.waits then s.commands.find? mine
  else none

/-- A command starts (R47). -/
def State.startCommand (s : State) (c : Command) : State :=
  { s with commands := s.commands.map fun k =>
      if k.block = c.block ∧ k.slot = c.slot ∧ k.result = none then { k with started := true } else k }

/-- An argument of a command. -/
def Command.arg (c : Command) (i : Nat) : Nat := ((c.args[i]?).getD 0).toNat

/-- Add 1 to DONESIG's dword, through the VF's second stage; a failing add is dropped (R46). One that is no multiple of 8 is
made at the eight bytes it names: DESIGN CHOICE, log 75. -/
def State.doneSignal (s : State) (block : Nat) : State :=
  let g := s.rdNat (mbBlock block + 8) 8
  if g = 0 then s
  else match s.gpaHome block g true with
    | (s, none) => s
    | (s, some h) => s.atomicAt h 8 fun n => (n + 1) % 2 ^ 64

/-- MAILBOX_COMPLETION: STATUS, VALUE and DONE, DONECNT, then DONESIG (R47 step 3). -/
def execMailboxCompletion (block slot : Nat) (s : State) : Host.Outcome State Fault Refusal :=
  .next (if !s.leads then s
    else match s.commands.find? fun c => c.block == block && c.slot == slot && c.result.isSome with
    | none => s
    | some c =>
      let r := c.result.getD (0, 0)
      let a := mbSlot block slot
      let s := { s with commands := s.commands.erase c }
      let s := (s.wrNat (a + 4) 4 r.1).wrNat (a + 0x30) 8 r.2.toNat
      let s := s.wr (a + 2) [3]
      (s.wrNat (mbBlock block + 4) 4 (s.rdNat (mbBlock block + 4) 4 + 1)).doneSignal block)

/-- Run a command: f gives the state with its end, or with its start. -/
def State.onCommand (s : State) (block slot op : Nat) (f : State → Command → State) : State :=
  match s.command? block slot op with
  | none => s
  | some c => f (s.startCommand c) { c with started := true }

/-! ### DESTROYQ and ABORT (R66, R89) -/

/-- Whether a queue may not be destroyed without FORCE (R66). A packet read in full and not yet started makes it busy: DESIGN CHOICE,
log 76. -/
def State.busyQueue (s : State) (q : Queue) : Bool := s.qcb q 0x10 4 != q.rdidx || q.packets.any fun p => !p.done

/-- Destroy a known queue: at once, BUSY, or drained first (R66). -/
def State.destroy (s : State) (c : Command) (q : Queue) : State :=
  if c.arg 2 = 0 then
    if s.busyQueue q then s.endCommand c.block c.slot 1 0
    else
      let s := s.wrNat q.qcb 1 (s.rdNat q.qcb 1 / 2 * 2)
      (s.endCommand c.block c.slot 0 0).dropQueues fun x => x.id == q.id
  else
    let s := s.modVf q.vf fun v => { v with deferred := v.deferred.filter (· != q.id) }
    let s := if s.qstate q = qError then s else s.setQstate q qDraining
    (s.modQueue q.id fun q => { q with force := q.force ++ [(c.block, c.slot)] }).settleQueue q.id

/-- DESTROYQ (R66). A queue whose entry or QCB is valid and not present is NOTFOUND: DESIGN CHOICE, log 76. -/
def execDestroyq (block slot : Nat) (s : State) : Host.Outcome State Fault Refusal :=
  .next (s.onCommand block slot 1 fun s c =>
    match s.walkQueue c.vf (c.arg 0) (c.arg 1) with
    | (s, .found _ qcb) =>
      let s := s.knowQueue c.vf (c.arg 0) (c.arg 1) qcb
      match s.queues.find? fun q => q.vf == c.vf && q.qcb == qcb with
      | none => s
      | some q => if q.force.contains (block, slot) then s else s.destroy c q
    | (s, _) => s.endCommand block slot 5 0)

/-- The haul that a command names by PASID and image address (R48): of several the one accepted first: DESIGN CHOICE, log 76. -/
def State.namedHaul (s : State) (c : Command) : Option Haul :=
  s.hauls.find? fun h =>
    h.vf == c.vf && h.pasid == c.arg 0 && h.image == c.arg 1 && !h.retired && h.ended.isNone

/-- ABORT (R89). -/
def execAbort (block slot : Nat) (s : State) : Host.Outcome State Fault Refusal :=
  .next (s.onCommand block slot 2 fun s c =>
    match s.namedHaul c with
    | none => s.endCommand block slot 5 0
    | some h => (s.stopHaul h.id 5 0 0).endCommand block slot 0 0)

/-- STUBRET: the stub is retired and forwarding ends (R355). -/
def execStubret (block slot : Nat) (s : State) : Host.Outcome State Fault Refusal :=
  .next (s.onCommand block slot 6 fun s c =>
    (s.modVf c.vf fun v => { v with forwarding := false, frameMap := [], stub := [] }).endCommand block slot 0 0)

/-! ### Publish sets (R234) -/

/-- PSTABLE (R234). -/
def execPstable (block slot : Nat) (s : State) : Host.Outcome State Fault Refusal :=
  .next (s.onCommand block slot 8 fun s c =>
    (s.modVf c.vf fun v => { v with pstable := (c.arg 0, c.arg 1) }).endCommand block slot 0 0)

/-- Whether an entry breaks the limits of R234. -/
def psetBad (b : List Byte) : Bool :=
  let f (o n : Nat) : Nat := field b o n
  let page := 2 ^ 15
  f 0 8 % page != 0 || decide (2 ^ 52 ≤ f 0 8) || f 8 8 % page != 0 || f 8 8 == 0 || decide (2 ^ 40 < f 8 8) ||
  f 0x10 1 != 1 || !(f 0x11 1 == 2 || f 0x11 1 == 3) || (List.range 3).any (fun i => f (0x20 + 8 * i) 8 % page != 0) ||
  (f 0x11 1 == 2 && f 0x30 8 != 0) || f 0x38 8 != 0

/-- The set an entry registers, its entry at a home (R234). -/
def psetOf (id entry : Nat) (b : List Byte) : PSet where
  id := id
  entry := entry
  base := field b 0 8
  length := field b 8 8
  nslot := field b 0x11 1
  cur := 0
  pinned := 0
  refused := BitVec.ofNat 32 (field b 0x14 4)
  gen := 0
  slots := (List.range (field b 0x11 1)).map fun i => field b (0x20 + 8 * i) 8

/-- Register a set: its status (R234). -/
def State.registerSet (s : State) (vf id : Nat) : State × Nat :=
  if (s.pset? vf id).isSome then (s, 11)
  else match s.gpaHome vf ((s.vf vf).pstable.1 + 64 * id) true with
    | (s, none) => (s, 11)
    | (s, some h) =>
      let b := s.rd h 64
      if psetBad b then (s, 11)
      else
        let p := psetOf id h b
        ((s.modVf vf fun v => { v with psets := v.psets ++ [p] }).modSet vf p, 0)

/-- PSREG (R234). -/
def execPsreg (block slot : Nat) (s : State) : Host.Outcome State Fault Refusal :=
  .next (s.onCommand block slot 9 fun s c =>
    let id := c.arg 0
    if (s.vf c.vf).pstable.2 ≤ id then s.endCommand block slot 5 0
    else if c.arg 1 = 1 then
      let r := s.registerSet c.vf id
      r.1.endCommand block slot r.2 0
    else if (s.pset? c.vf id).isNone then s.endCommand block slot 5 0
    else (s.modVf c.vf fun v => { v with psets := v.psets.filter fun p => p.id != id }).endCommand block slot 0 0)

/-! ### Page-request rings (R219) -/

/-- PRRING: one pair of rings for each ASID (R219). An ASID that no queue has is registered like any other: DESIGN CHOICE, log
80. -/
def execPrring (block slot : Nat) (s : State) : Host.Outcome State Fault Refusal :=
  .next (s.onCommand block slot 10 fun s c =>
    let asid := BitVec.ofNat 16 (c.arg 0)
    if (s.vf c.vf).rings.any fun r => r.asid == asid then s.endCommand block slot 11 0
    else
      (s.modVf c.vf fun v => { v with rings := v.rings ++ [{
        asid := asid, req := c.arg 1, comp := c.arg 2, logReq := c.arg 3 % 32, logComp := c.arg 3 / 256 % 32 }] }
        ).endCommand block slot 0 0)

/-- The rings of an ASID. -/
def State.rings? (s : State) (vf : Nat) (asid : BitVec 16) : Option Rings := (s.vf vf).rings.find? fun r => r.asid == asid

/-- WRIDX and RDIDX of a ring at a guest physical address, with the home of its header (R219). -/
def State.ringIndices (s : State) (vf gpa : Nat) : State × Option (Nat × Nat × Nat) :=
  match s.gpaHome vf gpa true with
  | (s, none) => (s, none)
  | (s, some h) => (s, some (h, s.rdNat h 4, s.rdNat (h + 4) 4))

/-- The 32 bytes of a request record (R219). -/
def PageReq.bytes (r : PageReq) : List Byte :=
  leBytes 8 r.va ++ leBytes 8 r.tag.toNat ++ leBytes 4 r.asid.toNat ++ leBytes 4 r.size.toNat ++ leBytes 8 0

/-- Post a request into its ring; a full or unreachable ring leaves it held (R219). -/
def State.postRequest (s : State) (vf : Nat) (r : PageReq) (g : Rings) : State :=
  match s.ringIndices vf g.req with
  | (s, none) => s
  | (s, some (h, w, d)) =>
    if 2 ^ g.logReq ≤ (w + 2 ^ 32 - d) % 2 ^ 32 then s
    else match s.gpaHome vf (g.req + 0x40 + 32 * (w % 2 ^ g.logReq)) true with
      | (s, none) => s
      | (s, some a) =>
        ((s.wr a r.bytes).wrNat h 4 ((w + 1) % 2 ^ 32)).modVf vf fun v => { v with requests := v.requests.erase r }

/-- PAGE_REQUEST_POST: the oldest held request of an ASID is posted (R219). -/
def execPageRequestPost (vf asid : Nat) (s : State) : Host.Outcome State Fault Refusal :=
  .next (match (s.vf vf).requests.find? fun r => r.asid.toNat == asid, s.rings? vf (BitVec.ofNat 16 asid) with
    | some r, some g => if asid < 2 ^ 16 then s.postRequest vf r g else s
    | _, _ => s)

/-- Whether a TAG names a coach of a haul with this launch number (R218, R219). -/
def tagNames (tag : Dword) (c : Coach) : Bool :=
  let level := (tag.extractLsb' 29 3).toNat
  c.ident.level == level &&
  if level = 0 then c.ident.rake == (tag.extractLsb' 0 24).toNat && c.ident.cidx == (tag.extractLsb' 24 5).toNat
  else tag.extractLsb' 6 18 == 0 && c.ident.core / 4 == (tag.extractLsb' 0 6).toNat && c.ident.shade == (tag.extractLsb' 24 5).toNat

/-- One more completion for the coach a TAG names, resident or saved out; a TAG that names none is discarded (R219). -/
def State.completePage (s : State) (vf : Nat) (tag : Dword) : State :=
  match s.hauls.find? fun h => h.vf == vf && h.launchNo == tag.extractLsb' 32 32 && !h.retired with
  | none => s
  | some h =>
    let up (c : Coach) : Coach :=
      if c.ident.haul = h.id ∧ tagNames tag c then { c with special := { c.special with pgc := c.special.pgc + 1 } } else c
    let s := { s with co := up s.co, coaches := s.coaches.map up }
    s.modHaul h.id fun h => { h with saved := h.saved.map fun r => { r with coaches := r.coaches.map up } }

/-- PAGE_REQUEST_COMPLETION: the next completion record of an ASID's ring is read and applied (R219). -/
def execPageRequestCompletion (vf asid : Nat) (s : State) : Host.Outcome State Fault Refusal :=
  .next (match s.rings? vf (BitVec.ofNat 16 asid) with
    | none => s
    | some g =>
      match s.ringIndices vf g.comp with
      | (s, none) => s
      | (s, some (h, w, d)) =>
        if w = d ∨ 2 ^ 16 ≤ asid then s
        else match s.readGpa vf (g.comp + 0x40 + 16 * (d % 2 ^ g.logComp)) 8 with
          | (s, none) => s
          | (s, some b) =>
            (s.wrNat (h + 4) 4 ((d + 1) % 2 ^ 32)).completePage vf (BitVec.ofNat 64 (leNat b)))

/-! ### ERRCNT and COMPAT (R354, R383) -/

/-- The counts of a unit (R383). -/
def State.errorsOf (s : State) (die unit index : Nat) : Nat × Nat × Bool :=
  ((s.dev.errors.find? fun e => e.1 == die && e.2.1 == unit && e.2.2.1 == index).map (·.2.2.2)).getD (0, 0, false)

/-- ERRCNT (R383). A unit code that R383 does not list names no unit and is NOTFOUND (R49), not BADARG: DESIGN CHOICE, log 80. -/
def execErrcnt (block slot : Nat) (s : State) : Host.Outcome State Fault Refusal :=
  .next (s.onCommand block slot 11 fun s c =>
    if !unitOk (c.arg 0) (c.arg 1) (c.arg 2) then s.endCommand block slot 5 0
    else
      let e := s.errorsOf (c.arg 0) (c.arg 1) (c.arg 2)
      s.endCommand block slot 0
        (BitVec.ofNat 64 (e.1 % 2 ^ 31 + (if e.2.2 then 2 ^ 31 else 0) + e.2.1 % 2 ^ 32 * 2 ^ 32)))

/-- COMPAT (R354). -/
def execCompat (block slot : Nat) (s : State) : Host.Outcome State Fault Refusal :=
  .next (s.onCommand block slot 12 fun s _ => s.endCommand block slot 0 s.key)

end Sys2Proof.Machine
end

