-- ==== Sys2Proof/Machine/Save.lean ====
section
/-! DEFINITION. Saving rakes, and the SAVED images of whole hauls (R39 to R42, R268, R309, R350, R352, R365). -/

namespace Sys2Proof.Machine

/-! ### A rake is saved (R352) -/

/-- Whether a coach stands at its save point: no longer issuing, with no trap held and no offset to re-execute (R350, R343,
R341). -/
def Coach.stopped (c : Coach) : Bool :=
  c.preempt.atSave && (c.issue.phase == .ready || c.issue.phase == .waiting) && !c.traps.held && c.issue.rex.isNone

/-- The coaches of a resident rake, in ascending index. -/
def State.coachesOf (s : State) (haul rake : Nat) : List Coach :=
  let cs := s.allCoaches.filter fun c => c.of haul rake
  (List.range 32).flatMap fun i => cs.filter fun c => c.ident.cidx == i

/-- The coaches of a rake that have retired in it, in a haul that still holds the rake (R371). -/
def Haul.goneOf (h : Haul) (rake : Nat) : List Coach := ((h.gone.find? fun p => p.1 == rake).map (·.2)).getD []

/-- Whether a rake may be saved: every coach stopped, the array done with it, every Dray command of its coaches complete, of those
that have retired too, and for a save delivered outside the device every ticket complete (R268, R352 steps 1 to 3). -/
def State.savable (s : State) (h : Haul) (rake : Nat) (cs : List Coach) : Bool :=
  cs != [] && cs.all Coach.stopped &&
  (cs.all fun c => !((s.core c.ident.core).queue.any fun op => op.owners.contains c.ident.id)) &&
  !(s.drayBusy fun d => (cs ++ h.goneOf rake).any fun c => c.ident.id == d.coach) &&
  (h.saving.isNone || cs.all fun c => c.tickets.all s.ticketDone)

/-- The tiles of complete tickets go to the image that a save outside the device makes: their request slots are free (R365). -/
def State.writeTiles (s : State) (cs : List Coach) : State :=
  (cs.flatMap fun c => c.tickets.filter s.ticketDone).foldl (fun s t =>
    match s.view? t.req with
    | none => s
    | some v =>
      if t.tile.isSome then s
      else (s.modView v.id fun v => { v with slots := 0 }).modQuad v.quad fun q => q.modLift v.lift fun l => { l with
        free := if l.serving.contains v.id then l.free + v.slots else l.free
        serving := l.serving.filter (· != v.id) }) s

/-- The bytes at a home that are not 0, with their places. -/
def State.placedAt (s : State) (home a n : Nat) : List (Nat × Byte) :=
  (s.mem.filter fun c => decide (home + a ≤ c.1 ∧ c.1 < home + a + n)).map fun c => (c.1 - home, c.2)

/-- A coach as its record keeps it: registers it did not name live read as zero after restore (R41, R351). -/
def Coach.toSaved (c : Coach) : Coach :=
  let live := c.savedRegs
  { c with
    regs := { c.regs with
      v := Vector.ofFn fun i => if live.contains i.val then vget c.regs.v i.val else Vector.replicate 32 0
      bad := [] }
    issue := { c.issue with phase := .saved }
    wbuf := []
    snap := []
    sets := [] }

/-- The gangs of a rake that own tokens: relative core and members (R268). -/
def State.ownersOf (s : State) (r : Rake) (cs : List Coach) : List (Nat × List Nat) :=
  (List.range 4).filterMap fun j =>
    let t := (s.core (r.core j)).token
    let on := cs.filter fun c => c.ident.rel == j
    if t != 0 && on.any fun c => c.gangMask == t then
      some (j, (on.filter fun c => t.getLsbD c.ident.slot).map fun c => c.ident.cidx)
    else none

/-- Ranges of a relative core's scratchpad that a save keeps: the live range and the stacks in use (R40, R352). -/
def keptRanges (d : Header) (cs : List Coach) (j : Nat) : List (Nat × Nat) :=
  let on := cs.filter fun c => c.ident.rel == j
  liveRange d on :: stackSpans on

/-- What the save engine keeps of a rake (R40, R41, R352 step 5). -/
def State.saved (s : State) (h : Haul) (r : Rake) (cs : List Coach) : SavedRake where
  rake := r.rake
  die := h.dieOf r.rake
  coaches := cs.map Coach.toSaved
  qm := s.placedAt (homeQm r.quad r.qmBase) 0 h.hdr.qmb
  scr := (List.range 4).flatMap fun j =>
    (keptRanges h.hdr cs j).flatMap fun p =>
      (s.placedAt (homeScr (r.core j) ((r.scr[j]?).getD 0)) p.1 p.2).map fun b => (j, b.1, b.2)
  wgt := (s.ownersOf r cs).flatMap fun o => (s.placedAt (homeWgt (r.core o.1) 0) 0 32768).map fun b => (o.1, b.1, b.2)
  acc := cs.flatMap fun c =>
    ((s.core c.ident.core).banks.filter fun b => b.2 == c.ident.id).map fun b =>
      (c.ident.cidx, b.1, s.placedAt (homeAcc c.ident.core (16384 * b.1)) 0 16384)
  owners := s.ownersOf r cs

/-- Whether the save engine meets an uncorrectable error in what it reads: the code of the unit (R381, R383). -/
def State.saveError (s : State) (h : Haul) (r : Rake) (cs : List Coach) : Option Nat :=
  if s.poisoned (homeQm r.quad r.qmBase) h.hdr.qmb then some 5
  else if ((List.range 4).any fun j => (keptRanges h.hdr cs j).any fun p =>
      s.poisoned (homeScr (r.core j) ((r.scr[j]?).getD 0) + p.1) p.2) ||
      (cs.any fun c => (s.core c.ident.core).banks.any fun b =>
        b.2 == c.ident.id && s.poisoned (homeAcc c.ident.core (16384 * b.1)) 16384) ||
      (cs.any fun c => c.regs.bad.any fun b => c.savedRegs.contains b.1) then some 4
  else none

/-- A core gives up what coaches hold of its array: banks, latch entries, joint operations waiting for the token, MALLOC
requests, and the token of their gangs (R247, R248, R268). -/
def Core.release (k : Core) (ids : List Nat) (freed : Bool) : Core :=
  { k with
    banks := k.banks.filter fun b => !ids.contains b.2
    latch := k.latch.filter fun l => !ids.contains l.coach
    joint := k.joint.filter fun j => !j.any fun l => ids.contains l.coach
    mallocs := k.mallocs.filter fun p => !ids.contains p.1
    token := if freed then 0 else k.token }

/-- Free the room of a saved rake (R352 step 6). -/
def State.freeRake (s : State) (r : Rake) (cs : List Coach) (owners : List (Nat × List Nat)) : State :=
  let ids := cs.map fun c => c.ident.id
  let s := (List.range 4).foldl (fun s j =>
    s.modCore (r.core j) fun k => k.release ids (owners.any fun o => o.1 == j)) s
  { s with
    co := if ids.contains s.co.ident.id then coachNone else s.co
    coaches := s.coaches.filter fun c => !ids.contains c.ident.id
    rakes := s.rakes.filter fun x => !(x.haul == r.haul && x.rake == r.rake) }

/-- Save a rake whose coaches have all stopped: PUBL.pkg for each, then its state, then its room (R309, R352 steps 4 to
6). -/
def State.saveRake (s : State) (h : Haul) (r : Rake) : State :=
  let s := (s.coachesOf h.id r.rake).foldl (fun s c => s.within c.ident.id fun s => (s.publish 4).drain) s
  let cs := s.coachesOf h.id r.rake
  match s.saveError h r cs with
  | some u => s.stopHaul h.id 9 (BitVec.ofNat 32 u) 0
  | none =>
    let v := s.saved h r cs
    (((s.freeRake r cs v.owners).keepArea h.id r.rake).modHaul h.id fun h => { h with
      saved := h.saved ++ [v], waits := h.waits ++ [(r.rake, s.dev.time)] }).recountWatch h.id

/-- RAKE_SAVE: complete tickets of coaches at their save points give up their slots to a save outside the device, and a rake
that may be saved is (R352, R365). -/
def execRakeSave (haul rake : Nat) (s : State) : Host.Outcome State Fault Refusal :=
  .next (match s.haul? haul, s.rake? haul rake with
    | some h, some r =>
      if h.ended.isSome then s
      else
        let cs := s.coachesOf haul rake
        let s := if h.saving.isSome && cs.all Coach.stopped then s.writeTiles cs else s
        if s.savable h rake cs then s.saveRake h r else s
    | _, _ => s)

/-! ### The image of a haul (R39 to R42, R352, R365) -/

/-- Pieces of an image: address and bytes, with the next free address. -/
abbrev Pieces := List (Nat × List Byte) × Nat

/-- Lay a piece at the next multiple of 64; nothing for an empty one, whose address is 0. -/
def lay (p : Pieces) (b : List Byte) : Pieces × Nat :=
  if b = [] then (p, 0)
  else
    let a := roundTo 64 p.2
    ((p.1 ++ [(a, b)], a + b.length), a)

/-- Lay a piece behind n bytes that lie in the page of its first byte; the address is the piece's own. -/
def layBehind (p : Pieces) (a b : List Byte) : Pieces × Nat :=
  let at_ := roundTo 64 p.2
  let at_ := if at_ / 32768 = (at_ + a.length) / 32768 then at_ else roundTo 32768 at_
  ((p.1 ++ [(at_, a ++ b)], at_ + a.length + b.length), at_ + a.length)

/-- A tile behind its shape; the address is the tile's own (R42, R365; log 17). -/
def layTile (p : Pieces) (sh : TileShape) (ws : List Word) : Pieces × Nat :=
  let body := ws.flatMap wordBytes
  layBehind p sh.bytes (body ++ leBytes (sh.area - body.length) 0)

/-- The tile of a ticket: its request's, or the one an earlier image gave it (R365). -/
def State.tileOf (s : State) (h : Haul) (t : Ticket) : State × Option (TileShape × List Word) :=
  match t.tile with
  | some a => let r := s.tileAt (s.haulCtx h) a.1 a.2; (r.1, some r.2)
  | none => (s, (s.view? t.req).map fun v => (v.shape, v.outTile))

/-- Whether the save engine would meet an uncorrectable error in a tile that an earlier image holds (R381). -/
def State.tileError (s : State) (h : Haul) : Bool :=
  h.savedCoaches.any fun c => c.tickets.any fun t =>
    match t.tile with
    | some a => (s.readVa (s.haulCtx h) a.1 (4 * a.2.size)).2 == .ecc
    | none => false

/-- Whether the save engine would meet an uncorrectable error in what it has kept of a haul: a saved rake, or a tile (R381). -/
def State.keptError (s : State) (h : Haul) : Bool := s.tileError h || h.saved.any fun r => s.areaBad h.id r.rake

/-- Lay the tiles of a coach's tickets. -/
def layTiles (h : Haul) : List Ticket → State → Pieces → State × Pieces × List Nat
  | [], s, p => (s, p, [])
  | t :: ts, s, p =>
    match s.tileOf h t with
    | (s, none) => let r := layTiles h ts s p; (r.1, r.2.1, 0 :: r.2.2)
    | (s, some q) =>
      let x := layTile p q.1 q.2
      let r := layTiles h ts s x.1
      (r.1, r.2.1, x.2 :: r.2.2)

/-- Lay a coach's registers, tiles and banks: its record (R41). -/
def layCoach (h : Haul) (v : SavedRake) (c : Coach) (s : State) (p : Pieces) : State × Pieces × List Byte :=
  let regs := c.savedRegs.flatMap fun i => (List.range 32).flatMap fun l => wordBytes (vget (vget c.regs.v i) l)
  let (p, vd) := lay p regs
  let mine := v.acc.filter fun a => a.1 == c.ident.cidx
  let banks := (List.range 256).filter fun b => mine.any fun a => a.2.1 == b
  let (p, ad) := lay p (banks.flatMap fun b =>
    unplaced 0 16384 (((mine.find? fun a => a.2.1 == b).map (·.2.2)).getD []))
  let r := layTiles h c.tickets s p
  (r.1, r.2.1, c.bytes vd ad r.2.2 banks)

/-- Lay the coaches of a rake: their records one after another. -/
def layCoaches (h : Haul) (v : SavedRake) : List Coach → State → Pieces → State × Pieces × List Byte
  | [], s, p => (s, p, [])
  | c :: cs, s, p =>
    let r := layCoach h v c s p
    let q := layCoaches h v cs r.1 r.2.1
    (q.1, q.2.1, r.2.2 ++ q.2.2)

/-- The coaches of a saved rake, those that have retired in it with their EXIT to issue and in no slot, in ascending index. -/
def Haul.recordCoaches (h : Haul) (v : SavedRake) : List Coach :=
  let cs := v.coaches ++ (h.goneOf v.rake).map fun c => { c with ident := { c.ident with slot := 32 + c.ident.cidx } }
  (List.range h.hdr.ncoach).flatMap fun i => cs.filter fun c => c.ident.cidx == i

/-- Coaches arrived at the rake's current BAR.quad, as their number; R40 does not say whether QBARM counts or names them: DESIGN
CHOICE, log 16 (R318). -/
def arrivedAtQuad (cs : List Coach) : Nat := (cs.filter fun c => c.arrived 2).length

/-- Lay one saved rake: its record, and beside its coach records what these have no field for (R40, R268, R316, R353; log 15, log
46). -/
def layRake (h : Haul) (v : SavedRake) (s : State) (p : Pieces) : State × Pieces × List Byte :=
  let d := h.hdr
  let cs := h.recordCoaches v
  let (p, qm) := lay p (unplaced 0 d.qmb v.qm)
  let bytesOf (j : Nat) (r : Nat × Nat) : List Byte :=
    unplaced r.1 r.2 ((v.scr.filter fun x => x.1 == j).map fun x => x.2)
  let scr := (List.range 4).foldl (fun (a : Pieces × List Byte) j =>
      let on := cs.filter fun c => c.ident.rel == j
      let live := liveRange d on
      let (q, at_) := lay a.1 (bytesOf j live ++ (stackSpans on).flatMap (bytesOf j))
      (q, a.2 ++ leBytes 8 at_ ++ leBytes 4 live.1 ++ leBytes 4 live.2)) (p, [])
  let wgt := (List.range 4).foldl (fun (a : Pieces × List Byte) j =>
      if v.owners.any fun o => o.1 == j then
        let (q, at_) := lay a.1 (unplaced 0 32768 ((v.wgt.filter fun x => x.1 == j).map fun x => x.2))
        (q, a.2 ++ leBytes 8 at_)
      else (a.1, a.2 ++ leBytes 8 0)) (scr.1, [])
  let r := layCoaches h v cs s wgt.1
  let (p, recs) := layBehind r.2.1 (asideBytes (h.dieOf v.rake) v.owners cs) r.2.2
  let tokh := (v.owners.map fun o => 2 ^ o.1).sum
  (r.1, p,
    leBytes 4 v.rake ++ leBytes 1 cs.length ++ leBytes 3 0 ++ leBytes 4 (arrivedAtQuad cs) ++ leBytes 4 0 ++ leBytes 8 qm ++
    leBytes 8 recs ++ scr.2 ++ wgt.2 ++ leBytes 1 tokh ++ leBytes 63 0)

/-- Lay every saved rake: their records one after another. -/
def layRakes (h : Haul) : List SavedRake → State → Pieces → State × Pieces × List Byte
  | [], s, p => (s, p, [])
  | v :: vs, s, p =>
    let r := layRake h v s p
    let q := layRakes h vs r.1 r.2.1
    (q.1, q.2.1, r.2.2 ++ q.2.2)

/-- The SAVED image of a haul all of whose rakes are saved, from an address on: its pieces and its end (R39). -/
def State.savedImage (s : State) (h : Haul) (a : Nat) : State × Pieces :=
  let r := layRakes h h.saved s ([], a + 128)
  let (p, lt) := lay r.2.1 (h.lifts.flatMap LiftDesc.bytes)
  let (p, rt) := lay p r.2.2
  let head := h.hdr.savedBytes s.key h.nextRake lt rt h.saved.length
  (r.1, ((a, head) :: p.1, p.2))

/-- Write pieces at virtual addresses; false where a write fails. -/
def State.writePieces (x : Ctx) : List (Nat × List Byte) → State → State × Bool
  | [], s => (s, true)
  | (a, b) :: ps, s =>
    match s.writeVa x a b with
    | (s, .ok _) => State.writePieces x ps s
    | (s, _) => (s, false)

/-! ### SAVE (R352) -/

/-- The complete tickets of a haul's saved rakes give up their slots (R365). -/
def State.writeSaved (s : State) (h : Haul) : State := s.writeTiles h.savedCoaches

/-- Whether every rake of a haul that has started is saved, with its tickets complete (R42, R352). -/
def State.allSaved (s : State) (h : Haul) : Bool :=
  !(s.rakes.any fun r => r.haul == h.id) && h.savedCoaches.all fun c => c.tickets.all s.ticketDone

/-- Withdraw a save: the requests of the haul's coaches are dropped, and it continues (R352). -/
def State.withdraw (s : State) (haul : Nat) : State :=
  let drop (c : Coach) : Coach := if c.ident.haul = haul then { c with preempt := coachNone.preempt } else c
  { s with co := drop s.co, coaches := s.coaches.map drop }.modHaul haul fun h => { h with saving := none }

/-- Deliver a saved haul's image: it stops with status SAVED, or the command fails with NOSPACE and the haul continues
(R352). R20 gives the save engine no port; the model writes at the leader's, 65 + 2d: DESIGN CHOICE, log 78. -/
def State.deliver (s : State) (c : Command) (h : Haul) : State :=
  let r := s.savedImage h (c.arg 2)
  let size := r.2.2 - c.arg 2
  if c.arg 3 < size then (r.1.withdraw h.id).endCommand c.block c.slot 6 0
  else match State.writePieces (s.haulCtx h) r.2.1 r.1 with
    | (s, false) => (s.withdraw h.id).endCommand c.block c.slot 6 0
    | (s, true) =>
      ((s.modHaul h.id fun h => { h with saving := none }).stopHaul h.id 8 0 0).endCommand c.block c.slot 0
        (BitVec.ofNat 64 size)

/-- Once every rake of a haul is saved its image is delivered; an error in a saved rake or tile ends it with HWERR (R352, R381). -/
def State.tryDeliver (s : State) (c : Command) (h : Haul) : State :=
  if !s.allSaved h then s else if s.keptError h then s.stopHaul h.id 9 8 0 else s.deliver c h

/-- SAVE: the haul's rakes are requested; once all are saved its image is delivered (R350, R352). A haul that has ended meanwhile is
not delivered: the command ends when it retires. A haul that another SAVE or a MIGOUT is saving is NOTFOUND: DESIGN CHOICE, log
76. -/
def execSave (block slot : Nat) (s : State) : Host.Outcome State Fault Refusal :=
  .next (s.onCommand block slot 3 fun s c =>
    match s.hauls.find? fun h => h.saving == some (block, slot) with
    | some h => if h.ended.isSome then s else (s.writeSaved h).tryDeliver c h
    | none =>
      match s.namedHaul c with
      | none => s.endCommand block slot 5 0
      | some h =>
        if h.saving.isSome then s.endCommand block slot 5 0
        else
          let s := (s.modHaul h.id fun h => { h with saving := some (block, slot) }).requestWhere fun r => r.haul == h.id
          (s.writeSaved h).tryDeliver c h)

end Sys2Proof.Machine
end

