-- ==== Sys2Proof/Machine/PageMove.lean ====
section
/-! DEFINITION. Page migration: the copy rounds, the freeze and the rewriting of the leaf (R221, R222). -/

namespace Sys2Proof.Machine

/-! ### The command (R48, R221) -/

/-- The root of an address space of a VF: that of a queue the leader knows or a haul that runs in it. -/
def State.rootOf (s : State) (vf : Nat) (asid : BitVec 16) : Option Dword :=
  let q := (s.queues.filter fun q => q.vf == vf && s.qcbSeen q && s.qcb q 0x30 2 == asid.toNat).map fun q =>
    BitVec.ofNat 64 (s.qcb q 0x38 8)
  let h := (s.hauls.filter fun h => h.vf == vf && h.asid == asid && !h.retired).map (·.ptroot)
  (q ++ h).head?

/-- The root of an address space, sought in the VF's queue tables too: a valid QCB there names it, kicked before or not (R48,
R54, R55). -/
def State.rootIn (s : State) (vf : Nat) (asid : BitVec 16) : State × Option Dword :=
  let seek (r : State × Option Dword) (pasid qno : Nat) : State × Option Dword :=
    if r.2.isSome then r
    else match r.1.walkQueue vf pasid qno with
      | (s, .found _ qcb) =>
        (s, if s.rdNat (qcb + 0x30) 2 = asid.toNat then some (BitVec.ofNat 64 (s.rdNat (qcb + 0x38) 8)) else none)
      | (s, _) => (s, none)
  (List.range ((s.vf vf).queues.extractLsb' 0 12).toNat).foldl
    (fun r pasid => (List.range 1024).foldl (fun r qno => seek r pasid qno) r) (s, s.rootOf vf asid)

/-- Second-stage homes of consecutive pieces from a guest physical address on, each with its leaf's address and page
size; none where one fails or the leader's port does not reach it (R357, R368). -/
def State.pieceHomes (vf gpa : Nat) : Nat → State → State × Option (List (Nat × Nat × Nat))
  | 0, s => (s, some [])
  | n + 1, s =>
    let port := ctrlPort s.leaderDie
    match s.stage2 port vf gpa with
    | (s, .error _) => (s, none)
    | (s, .ok (da, _, p, b)) =>
      if !s.portAllows port da then (s.refusePort port da, none)
      else match State.pieceHomes vf (gpa + pieceBytes) n s with
      | (s, some l) => (s, some ((da, p, b) :: l))
      | r => r

/-- The leaves a migration rewrites: the page's own, or for a publish-set slot page those of the second stage that map it,
each with its new address (R221; log 32). -/
def leavesFor (own : Option (Nat × Nat)) (gpa : Nat) (old : List (Nat × Nat × Nat)) (new : List Nat) :
    List (Nat × Nat) :=
  match own with
  | some l => [l]
  | none => ((List.range old.length).filter fun i =>
      match old[i]? with
      | some (_, _, b) => (gpa + pieceBytes * i) % 2 ^ b == 0
      | none => false).filterMap fun i =>
        match old[i]?, new[i]? with
        | some (_, p, _), some d => some (p, d)
        | _, _ => none

/-- Whether second-stage leaves can be rewritten one by one: none reaches beyond the page, and each new frame is in one
piece (log 32). -/
def leavesFit (bits : Nat) (old : List (Nat × Nat × Nat)) (new : List Nat) : Bool :=
  (List.range old.length).all fun i =>
    match old[i]? with
    | none => false
    | some (_, _, b) =>
      let first := i / (2 ^ b / pieceBytes) * (2 ^ b / pieceBytes)
      let base := (new[first]?).getD 0
      decide (b ≤ bits) && base % 2 ^ b == 0 && new[i]? == some (base + pieceBytes * (i - first))

/-- The old and the new home of a line of a migration. -/
def lineHomes (pieces : List (Nat × Nat)) (l : Nat) : Option (Nat × Nat) :=
  (pieces[l / (pieceBytes / 128)]?).map fun p =>
    (p.1 + 128 * (l % (pieceBytes / 128)), p.2 + 128 * (l % (pieceBytes / 128)))

/-- Whether the leader's port reaches both homes of a line (R357, R368). -/
def State.lineSeen (s : State) (pieces : List (Nat × Nat)) (l : Nat) : Bool :=
  (lineHomes pieces l).all fun p => s.portSees (ctrlPort s.leaderDie) p.1 && s.portSees (ctrlPort s.leaderDie) p.2

/-- Copy one line from the old frame to the new one. A poisoned granule stays so in its new place (R381). -/
def State.copyLine (s : State) (pieces : List (Nat × Nat)) (l : Nat) : State :=
  match lineHomes pieces l with
  | none => s
  | some (o, n) =>
    let bad := (s.dev.poison.filter fun g => decide (o ≤ g ∧ g < o + 128)).map fun g => n + (g - o)
    (s.wr n (s.rd o 128)).modDev fun d => { d with poison := bad ++ d.poison }

/-- Copy lines of a migration from the old frame to the new one, clearing their bits (R221 steps 2 and 3). A line that the
leader's port does not reach is counted as refused and stays marked (log 79). -/
def State.copyLines (s : State) (id : Nat) (lines : List Nat) (pieces : List (Nat × Nat)) : State :=
  let seen := lines.filter (s.lineSeen pieces)
  let kept := lines.filter fun l => !s.lineSeen pieces l
  let s := seen.foldl (fun s l => s.copyLine pieces l) s
  let s := kept.foldl (fun s l => s.countRefused (((lineHomes pieces l).map (·.1)).getD 0)) s
  { s with migrations := s.migrations.map fun m => if m.id = id then { m with dirty := kept } else m }

/-- Every line of a page. -/
def allLines (bits : Nat) : List Nat := List.range (2 ^ bits / 128)

/-- Whether some migration in progress moves one of these pieces. -/
def State.moving (s : State) (old : List Nat) : Bool :=
  s.migrations.any fun m => m.pieces.any fun p => old.contains p.1 || old.contains p.2

/-- The guest physical address of a resident page, and its own leaf with the new address where that leaf names the frame
(KIND 0); a set's page has its frame in the set (KIND 3). None for host and pod memory and for a page not resident. -/
def State.pageFrame (s : State) (x : Ctx) (page pa newGpa : Nat) (e : Dword) : Option (Nat × Option (Nat × Nat)) :=
  if !e.getLsbD eRes then none
  else match (leafKind e).toNat with
    | 0 => some (entryPa e, some (pa, newGpa))
    | 3 => (s.slotGpa x (e.extractLsb' 12 16).toNat page).map fun g => (g, none)
    | _ => none

/-- Start a migration of a page found by the walk: its first copy, or BADARG for a new frame that cannot hold it (log
32). -/
def State.beginMove (s : State) (c : Command) (page bits gpa : Nat) (own : Option (Nat × Nat)) : State :=
  let n := 2 ^ bits / pieceBytes
  match State.pieceHomes c.vf gpa n s with
  | (s, none) => s.endCommand c.block c.slot 5 0
  | (s, some old) =>
    if c.arg 2 % 2 ^ bits ≠ 0 ∨ 2 ^ 52 ≤ c.arg 2 then s.endCommand c.block c.slot 3 0
    else match State.pieceHomes c.vf (c.arg 2) n s with
      | (s, none) => s.endCommand c.block c.slot 3 0
      | (s, some new) =>
        let nh := new.map (·.1)
        if own.isNone && !leavesFit bits old nh then s.endCommand c.block c.slot 3 0
        else if s.moving (old.map (·.1)) then s
        else
          let pieces := (old.map (·.1)).zip nh
          let m : Migration := {
            id := s.nextId, vf := c.vf, asid := BitVec.ofNat 16 (c.arg 0), va := page, bits := bits, pieces := pieces
            leaves := leavesFor own gpa old nh, whole := own.isNone, dirty := [], rounds := 0, frozen := false, block := c.block, slot := c.slot }
          ({ s.newId with migrations := s.migrations ++ [m] }).copyLines m.id (allLines bits) pieces

/-- PGMIG: the dirty bitmap starts and the first round copies every line; a page that is being moved already lets the
command wait (R221). -/
def execPgmig (block slot : Nat) (s : State) : Host.Outcome State Fault Refusal :=
  .next (s.onCommand block slot 7 fun s c =>
    if s.migrations.any fun m => m.block == block && m.slot == slot then s
    else match s.rootIn c.vf (BitVec.ofNat 16 (c.arg 0)) with
      | (s, none) => s.endCommand block slot 5 0
      | (s, some root) =>
        if winBase ≤ c.arg 1 then s.endCommand block slot 5 0
        else
          let x := s.ctrlCtx c.vf 0 (BitVec.ofNat 16 (c.arg 0)) root
          match walk1 x.port c.vf (c.arg 1) levels (root.toNat % 2 ^ 52 / 4096 * 4096) s with
          | (s, .error _) => s.endCommand block slot 5 0
          | (s, .ok (e, bits, pa, _)) =>
            let page := c.arg 1 / 2 ^ bits * 2 ^ bits
            match s.pageFrame x page pa (c.arg 2) e with
            | none => s.endCommand block slot 5 0
            | some (gpa, own) => s.beginMove c page bits gpa own)

/-! ### Rounds and freeze (R221) -/

/-- Dirty lines with which a page is frozen, and rounds after which a migration is abandoned. -/
def freezeLines : Nat := 1024
def maxRounds : Nat := 16

/-- Forget a migration. -/
def State.dropMove (s : State) (id : Nat) : State := { s with migrations := s.migrations.filter fun m => m.id != id }

/-- Change a migration. -/
def State.modMove (s : State) (id : Nat) (f : Migration → Migration) : State :=
  { s with migrations := s.migrations.map fun m => if m.id = id then f m else m }

/-- PAGE_MIGRATION_ROUND: a round ends: freeze, another round, or NOCONV after sixteen (R221). -/
def execPageMigrationRound (migration : Nat) (s : State) : Host.Outcome State Fault Refusal :=
  .next (match s.migrations.find? fun m => m.id == migration && !m.frozen with
    | none => s
    | some m =>
      let r := m.rounds + 1
      let s := s.modMove m.id fun m => { m with rounds := r }
      if m.dirty.length ≤ freezeLines then s.modMove m.id fun m => { m with frozen := true }
      else if maxRounds ≤ r then (s.dropMove m.id).endCommand m.block m.slot 8 0
      else s.copyLines m.id m.dirty m.pieces)

/-- Where a home address of a moved page lies now. -/
def movedTo (pieces : List (Nat × Nat)) (a : Nat) : Nat :=
  match pieces.find? fun p => decide (p.1 ≤ a ∧ a < p.1 + pieceBytes) with
  | some (o, n) => n + (a - o)
  | none => a

/-- What a coach holds of a page moves with it: snapshot granules, loads in flight, a counter it waits on (R222). -/
def Coach.moved (f : Nat → Nat) (c : Coach) : Coach :=
  { c with
    snap := c.snap.map fun p => (f p.1, p.2)
    sets := c.sets.map fun p => (p.1, f p.2)
    issue := { c.issue with
      wait := match c.issue.wait with
        | .dwait a h v => .dwait a (f h) v
        | w => w
      deferred := c.issue.deferred.map fun d => match d with
        | .load t a k e => .load t (f a) k e
        | d => d } }

/-- Buffered writes and unfilled loads of a coach that name a page reach the old frame before it goes (R222). -/
def State.drainMove (s : State) (pieces : List (Nat × Nat)) : State :=
  pieces.foldl (fun s p =>
    let s := s.flushOver p.1 pieceBytes
    ((s.co.issue.deferred.flatMap Deferred.missing).filter fun g => decide (p.1 ≤ g ∧ g < p.1 + pieceBytes)).foldl
      State.fillPending s) s

/-- Rewrite the address of a leaf (R221 step 4). -/
def State.rewriteLeaf (s : State) (l : Nat × Nat) : State :=
  let e : Dword := BitVec.ofNat 64 (s.rdNat l.1 8)
  s.wrNat l.1 8 ((e &&& ~~~0x000F_FFFF_FFFF_F000#64) ||| BitVec.ofNat 64 (l.2 / 4096 * 4096)).toNat

/-- Invalidate the TLB entries of a moved page on all dies. -/
def State.dropMovedTlb (s : State) (m : Migration) : State :=
  { s with tlb := s.tlb.filter fun t =>
      !(t.vf == m.vf && (t.dropped m.vf m.asid 0 m.va ||
        m.pieces.any fun p => overlaps t.frame (2 ^ t.bits) p.1 pieceBytes)) }

/-- An instruction cache knows the words of a moved page by their new homes. -/
def Core.rehome (m : Migration) (k : Core) : Core :=
  { k with icache := k.icache.map fun w =>
      (w.1, if decide (m.va ≤ w.1 ∧ w.1 < m.va + 2 ^ m.bits) then movedTo m.pieces w.2.1 else w.2.1, w.2.2) }

/-- A VF knows its TCBs by their new homes, and where the frame moves for the whole VF its sets' entries too. -/
def Vf.rehome (m : Migration) (v : Vf) : Vf :=
  let f := movedTo m.pieces
  let mine (t : Held) : Bool := m.whole || t.asid == m.asid
  { v with
    tasks := v.tasks.map fun t => if mine t then { t with tcb := f t.tcb } else t
    ready := v.ready.map fun p => if v.tasks.any fun t => t.tcb == p.1 && mine t then (f p.1, p.2) else p
    psets := if m.whole then v.psets.map fun p => { p with entry := f p.entry } else v.psets }

/-- What the device knows of the page by its home is known at its new home: coaches of the address space, instruction caches,
the TCBs of its tasks, and where the frame moves for the whole VF its queues (R222). -/
def State.rehome (s : State) (m : Migration) : State :=
  let f := movedTo m.pieces
  let up (c : Coach) : Coach :=
    if ((s.haul? c.ident.haul).map (·.vf)).getD 0 == m.vf && (m.whole || c.special.asid == m.asid) then c.moved f else c
  let s : State := { s with
    co := up s.co
    coaches := s.coaches.map up
    cores := s.cores.map fun (p : Nat × Core) => (p.1, p.2.rehome m)
    hauls := s.hauls.map fun (h : Haul) =>
      if h.vf = m.vf ∧ (m.whole ∨ h.asid = m.asid) then { h with tcb := h.tcb.map f } else h
    queues := s.queues.map fun (q : Queue) => if m.whole ∧ q.vf = m.vf then { q with qcb := f q.qcb } else q }
  s.modVf m.vf (Vf.rehome m)

/-- Whether the leader's port reaches what a freeze writes: every piece of the page and every leaf (R357, R368). -/
def State.moveSeen (s : State) (m : Migration) : Bool :=
  m.pieces.all (fun p => s.portSees (ctrlPort s.leaderDie) p.1 && s.portSees (ctrlPort s.leaderDie) p.2) &&
    m.leaves.all fun l => s.portSees (ctrlPort s.leaderDie) l.1

/-- PAGE_MIGRATION_FREEZE: the last dirty lines, the leaf, the TLBs; then the freeze ends and the command with it. An access
of the freeze is one before the event at the old frame or one after it at the new (R221, R222). Where the leader's port no longer
reaches the page or a leaf, the migration is abandoned with NOCONV and the page stays: DESIGN CHOICE, log 79. -/
def execPageMigrationFreeze (migration : Nat) (s : State) : Host.Outcome State Fault Refusal :=
  .next (match s.migrations.find? fun m => m.id == migration && m.frozen with
    | none => s
    | some m =>
      if !s.moveSeen m then
        ((s.countRefused ((m.pieces.map (·.1)).headD 0)).dropMove m.id).endCommand m.block m.slot 8 0
      else
      let s := s.allCoaches.foldl (fun s c => s.within c.ident.id fun s => s.drainMove m.pieces) s
      let dirty := ((s.migrations.find? fun k => k.id == m.id).map (·.dirty)).getD []
      let s := s.copyLines m.id dirty m.pieces
      let s := (m.leaves.foldl State.rewriteLeaf (s.dropMove m.id)).dropMovedTlb m
      (s.rehome m).endCommand m.block m.slot 0 (BitVec.ofNat 64 m.rounds))

end Sys2Proof.Machine
end

