-- ==== Sys2Proof/Machine/Virtual.lean ====
section
/-! DEFINITION. Virtual functions seen from outside: the function-level reset, the lock and its loss, accesses from the host and
the pod, the migration stub, and the reset of the device (R19, R45, R46, R214, R308, R355 to R363, R368). -/

namespace Sys2Proof.Machine

/-! ### Second-stage tables (R359, R362) -/

/-- The frames a second stage maps, from a level and a guest physical address on: guest physical address, device address, size
in bits. -/
def stageFrames (mem : List Host.Cell) : List (Nat × Nat × Nat) → Nat → Nat → List (Nat × Nat × Nat)
  | [], _, _ => []
  | (sh, wd, bits) :: rest, table, gpa =>
    (entriesIn mem table (8 * 2 ^ wd)).flatMap fun p =>
      let e : Dword := BitVec.ofNat 64 (leNat (Memory.getAll mem p 8))
      let g := gpa + (p - table) / 8 * 2 ^ sh
      if !e.getLsbD eV then []
      else if e.getLsbD eLeaf then (if bits = 0 then [] else [(g, entryPa e, bits)])
      else stageFrames mem rest (entryPa e) g

/-- Root of a VF's second stage. -/
def Vf.root2 (v : Vf) : Nat := v.s2base.toNat % 2 ^ 52 / 4096 * 4096

/-- The guest physical address by which a VF knows a device address: its frames are what its second stage maps (R355). -/
def State.gpaOf (s : State) (vf da : Nat) : Option Nat :=
  ((stageFrames s.mem levels (s.vf vf).root2 0).find? fun f => decide (f.2.1 ≤ da ∧ da < f.2.1 + 2 ^ f.2.2)).map
    fun f => f.1 + (da - f.2.1)

/-- The bytes of a VF's second-stage table, A and D of every entry read as zero (R362): its pages as a walk from the root meets
them, each from its first entry on: DESIGN CHOICE, log 7. -/
def State.tableBytes (s : State) (vf : Nat) : List Byte :=
  (stageTables s.mem levels (s.vf vf).root2).flatMap fun t =>
    (List.range (t.2 / 8)).flatMap fun i =>
      leBytes 8 (BitVec.ofNat 64 (s.rdNat (t.1 + 8 * i) 8) &&& ~~~0xC0#64).toNat

/-! ### Function-level reset, lock and ERROR (R360, R362, R363) -/

/-- FUNCTION_LEVEL_RESET: by FLR in VFCTL or of the PCIe function (R360). -/
def execFunctionLevelReset (vf : Nat) (s : State) : Host.Outcome State Fault Refusal :=
  .next (if vf < 32 then s.resetVf vf else s)

/-- The quads that a VF lists. -/
def Vf.quadList (v : Vf) : List Nat := (List.range 64).filter fun i => v.quads.getLsbD i

/-- What the measurement of a VF covers, each part as bytes (R362). -/
def State.measuredParts (s : State) (vf : Nat) : List (List Byte) :=
  let v := s.vf vf
  ([v.quads, v.memp, v.queues] ++ v.quadList.map (fun q => vget s.dev.cmxrow q)).map (fun x => leBytes 8 x.toNat) ++
    [s.tableBytes vf, leBytes 4 s.dev.fwLevel.toNat, leBytes 8 s.key.toNat]

/-- The measurement of a VF: the SHA3-384 hash of each part (R361, R362). -/
def State.measure (s : State) (vf : Nat) : List (BitVec 384) := (s.measuredParts vf).map sha3_384

/-- Whether a haul's rake belongs to a VF. -/
def State.rakeOf (s : State) (vf : Nat) (r : Rake) : Bool := ((s.haul? r.haul).map (·.vf)) == some vf

/-- TDISP_LOCK_INTERFACE: the VF's rakes are saved as for a time slice; with none resident the VF is measured and locked
(R362). -/
def execTdispLockInterface (vf : Nat) (sessionKey : BitVec 64) (s : State) : Host.Outcome State Fault Refusal :=
  .next (if 32 ≤ vf ∨ (s.vf vf).lock then s
    else
      let s := if (s.vf vf).locking.isSome then s
        else (s.modVf vf fun v => { v with locking := some sessionKey }).requestWhere (s.rakeOf vf)
      if s.rakes.any (s.rakeOf vf) then s
      else
        let m := s.measure vf
        s.modVf vf fun v => { v with
          measured := m, lock := true, error := false, key := v.locking.getD sessionKey, locking := none })

/-- INTERFACE_ERROR: an IDE integrity failure or another change of R363. -/
def execInterfaceError (vf : Nat) (s : State) : Host.Outcome State Fault Refusal :=
  .next (if vf < 32 then s.toError vf else s)

/-! ### The migration stub (R355) -/

/-- Entries a stub holds. -/
def stubEntries : Nat := 4096

/-- An access from outside as it acts at a home; an atomic leaves an uncorrectable error as it is (R381). -/
def State.atHomeOf (s : State) (a : Nat) (op : Ingress) : State :=
  match op with
  | .write b => s.wr a b
  | .atomic o x y _ => s.atomicAt a 4 fun w => (atomNew o (BitVec.ofNat 32 w) x y).toNat
  | .signal o v => s.atomicAt a 8 (signalOp o v.toNat)
  | _ => s

/-- A migration is given up: the VF resumes, its hauls go on, the stub's entries act in log order, and then the accesses held at
the Coupler ports (R355). -/
def State.endBlackout (s : State) (vf status : Nat) : State :=
  let v := s.vf vf
  let s := match v.blackout with
    | some (b, i) => s.endCommand b i status 0
    | none => s
  let s := (s.hauls.filter fun h => h.saving.isSome && h.saving == v.blackout).foldl (fun s h => s.withdraw h.id) s
  let s := s.modVf vf fun v => { v with blackout := none, stub := [], held := [] }
  (v.stub ++ v.held.map (·.2)).foldl (fun s e => s.atHomeOf e.1 e.2) s

/-- Append an access to the stub; the 4,097th entry aborts the migration (R355). -/
def State.appendStub (s : State) (vf a : Nat) (op : Ingress) : State :=
  let full := decide (stubEntries ≤ (s.vf vf).stub.length)
  let s := s.modVf vf fun v => { v with stub := v.stub ++ [(a, op)] }
  if full then s.endBlackout vf 10 else s

/-- Whether an access is appended to a stub: a store, an atomic that returns nothing, a signal write. -/
def stubTakes : Ingress → Bool
  | .write _ => true
  | .atomic _ _ _ ret => !ret
  | .signal _ _ => true
  | _ => false

/-! ### Accesses from the host and the pod (R19, R45, R46, R308, R357, R368) -/

/-- Bytes an access touches. -/
def ingressSize : Ingress → Nat
  | .read n => n
  | .write b | .mailbox _ b | .cxl b | .hostMem _ b => b.length
  | .atomic _ _ _ _ => 4
  | .signal _ _ => 8

/-- Whether an access writes. -/
def ingressWrites : Ingress → Bool
  | .read _ => false
  | _ => true

/-- The Coupler port of each die, where accesses of peers arrive (R20). -/
def couplerPorts : List Nat := [64, 66, 68, 70]

/-- Whether a port's row lets an access of n bytes pass (R357). -/
def State.rowAllows (s : State) (port a n : Nat) : Bool := s.portAllows port a && s.portAllows port (a + n - 1)

/-- STUB_APPEND: a peer's access that has passed its Coupler port is appended to the stub (R355, R357). -/
def execStubAppend (vf addr : Nat) (op : PeerAccess) (s : State) : Host.Outcome State Fault Refusal :=
  .next (if couplerPorts.contains op.port ∧ vf < 32 ∧ (s.vf vf).blackout.isSome ∧ stubTakes op.op ∧ (s.gpaOf vf addr).isSome ∧
        ingressSize op.op ≠ 0 then
      if s.rowAllows op.port addr (ingressSize op.op) then s.appendStub vf addr op.op else s.countRefused addr
    else s)

/-- The guest physical address of an old frame of a VF that has left, by the frame map of its image (R355). -/
def Vf.oldGpa (v : Vf) (da : Nat) : Option Nat :=
  if v.forwarding then
    (v.frameMap.find? fun f => decide (f.2.1 ≤ da ∧ da < f.2.1 + 2 ^ f.2.2)).map fun f => f.1 + (da - f.2.1)
  else none

/-- The VF in its blackout whose frames an access of a peer meets (R355). -/
def State.movingVf (s : State) (a : Nat) : Option Nat :=
  (List.range 32).find? fun v => (s.vf v).blackout.isSome && (s.gpaOf v a).isSome

/-- The VF that has left and whose old frames an access of a peer meets, with the guest physical address (R355). -/
def State.leftVf (s : State) (a : Nat) : Option (Nat × Nat) :=
  (List.range 32).findSome? fun v => ((s.vf v).oldGpa a).map fun g => (v, g)

/-- A peer's access that passed its port: to a frame of a VF in its blackout it goes into the stub log or waits at the port, to
one of a VF that has left it is handed on, and else it is performed at the home (R355). -/
def State.peerAccess (s : State) (port a : Nat) (op : Ingress) : State :=
  match s.movingVf a with
  | some v =>
    if stubTakes op then s.appendStub v a op else s.modVf v fun v => { v with held := v.held ++ [(port, a, op)] }
  | none =>
    match s.leftVf a with
    | some (v, g) => s.modVf v fun v => { v with sent := v.sent ++ [(g, op)] }
    | none => s.atHomeOf a op

/-- An access to device memory from an ingress port: refused and counted, or performed. What a read or an atomic returns leaves
the device (R214, R355, R357, R362). -/
def State.deviceAccess (s : State) (port a : Nat) (op : Ingress) : State :=
  let n := ingressSize op
  if n = 0 then s
  else if !s.rowAllows port a n then s.countRefused a
  else if port = 65 then (if ingressWrites op && s.tableLocked a n then s.countRefused a else s.atHomeOf a op)
  else s.peerAccess port a op

/-- A peer's access to the host window, which every port reaches; the first 64 KiB take no write (R18, R45, R357). A peer names
the window by its addresses of R45: DESIGN CHOICE, log 77. -/
def State.windowAccess (s : State) (a : Nat) (op : Ingress) : State :=
  if 2 ^ 52 < a + ingressSize op ∨ (ingressWrites op ∧ a - winBase < 65536) then s else s.atHomeOf (homeWin (a - winBase)) op

/-- An access of the host or of a peer, by the address it names (R18, R19). -/
def State.portAccess (s : State) (port a : Nat) (op : Ingress) : State :=
  if port = 65 then s.deviceAccess port a op
  else if !couplerPorts.contains port then s
  else if winBase ≤ a then s.windowAccess a op
  else s.deviceAccess port a op

/-- Whether a host may write a byte at an offset of a command block, and what it may write there (R46, R47). -/
def hostField (off : Nat) (b : Byte) : Bool :=
  if off < 0x40 then decide (8 ≤ off ∧ off < 16)
  else
    let o := (off - 0x40) % 64
    decide (o < 2) || (o == 2 && decide (b.toNat < 2)) || decide (8 ≤ o ∧ o < 0x30)

/-- A write through a function's mailbox BAR: accepted in the function's own block or from function 0, in host-written fields
alone; a doorbell is taken or held (R46, R47). A write that begins at DOORBELL and is not 4 bytes long is dropped whole, and so is one
that runs past the end of a block, or begins below the first and runs into it: DESIGN CHOICE, log 75. -/
def State.mailboxWrite (s : State) (fn off : Nat) (b : List Byte) : State :=
  let v := (off - 0x3000) / 0x680
  let o := (off - 0x3000) % 0x680
  if off < 0x3000 ∨ 32 ≤ v ∨ (fn ≠ v ∧ fn ≠ 0) ∨ 0x680 < o + b.length then s
  else if o = 0 then
    let x : Word := BitVec.ofNat 32 (leNat (b.take 4))
    if b.length ≠ 4 then s
    else if s.mbReady then s.doorbell v x
    else s.modDev fun d => { d with doorbells := d.doorbells ++ [(v, x)] }
  else (b.zip (List.range b.length)).foldl (fun s p => if hostField (o + p.2) p.1 then s.wr (homeWin (off + p.2)) [p.1] else s) s

/-- INGRESS_ACCESS: a host access arrives at port 65, a peer's at a Coupler port (R20, R357). Addresses are device physical;
offsets of the host window for its own paths; host physical for host memory. The host's atomics are FetchAdd, Swap and CAS of
32 bits and no others (R19). -/
def execIngressAccess (port addr : Nat) (op : Ingress) (s : State) : Host.Outcome State Fault Refusal :=
  .next (match op with
    | .mailbox fn b => if port = 65 ∧ fn < 32 then s.mailboxWrite fn addr b else s
    | .cxl b => if port = 65 ∧ 65536 ≤ addr ∧ addr + b.length ≤ winBytes then s.wr (homeWin addr) b else s
    | .hostMem pasid b =>
      if port = 65 ∧ pasid < 2 ^ 20 ∧ addr + b.length ≤ homeSpan then s.wr (homeHost pasid addr) b else s
    | .atomic o _ _ _ =>
      if (port = 65 ∧ o ≠ 0 ∧ o ≠ 8 ∧ o ≠ 9) ∨ 10 < o ∨ addr % 4 ≠ 0 then s else s.portAccess port addr op
    | .signal o _ => if port = 65 ∨ 2 < o ∨ addr % 8 ≠ 0 then s else s.portAccess port addr op
    | .read _ | .write _ => s.portAccess port addr op)

/-! ### Reset of the device (R107, R356) -/

/-- DEVICE_RESET: every register at its reset value and nothing running. What the memories hold is left as it is but for the
firmware's 64 KiB of the host window: DESIGN CHOICE, log 34. -/
def execDeviceReset (s : State) : Host.Outcome State Fault Refusal :=
  .next { State.reset with
    mem := Memory.clear s.mem (homeWin 0) 65536, dev := { deviceReset with poison := s.dev.poison }, schedule := s.schedule, fresh := s.fresh, nextId := s.nextId }

end Sys2Proof.Machine
end

