-- ==== Sys2Proof/Machine/Lease.lean ====
section
/-! DEFINITION. The lease of the die controllers, takeover with its replay of the journal, and loading firmware (R61 to R65, R361,
R363). -/

namespace Sys2Proof.Machine

/-! ### The lease record (R61) -/

/-- Home of the lease record. -/
def leaseHome : Nat := homeWin 0
/-- EPOCH of a LEASE dword. -/
def leaseEpoch (x : Nat) : Nat := x / 2 ^ 40 % 2 ^ 24
/-- HOLDER. -/
def leaseHolder (x : Nat) : Nat := x / 2 ^ 38 % 4
/-- RENEWED. -/
def leaseRenewed (x : Nat) : Nat := x % 2 ^ 38

/-- LEASE as it stands. -/
def State.lease (s : State) : Nat := s.rdNat leaseHome 8

/-- Write LEASE with an epoch and a holder, renewed now. -/
def State.setLease (s : State) (epoch holder : Nat) : State :=
  s.wrNat leaseHome 8 (epoch % 2 ^ 24 * 2 ^ 40 + holder % 4 * 2 ^ 38 + s.dev.time.toNat % 2 ^ 38)

/-- The leader stops: a packet it has read and not journalled is as if it had never been read (R62, R65). -/
def State.stopLeader (s : State) : State :=
  { s.modDev fun d => { d with leader := none } with queues := s.queues.map fun q => { q with reading := none } }

/-- LEASE_RENEW: a controller's CAS on LEASE. The one of a controller that has been superseded fails, and it stops; the
leader's keeps EPOCH and HOLDER, and when they are no longer its own it stops too (R62). -/
def execLeaseRenew (s : State) : Host.Outcome State Fault Refusal :=
  .next (match s.dev.superseded, s.dev.leader with
    | _ :: rest, _ => s.modDev fun d => { d with superseded := rest }
    | [], none => s
    | [], some (e, d) => if leaseEpoch s.lease = e ∧ leaseHolder s.lease = d then s.setLease e d else s.stopLeader)

/-! ### A controller begins to serve (R47, R63, R65) -/

/-- Take the doorbells held, then scan every block for POSTED slots (R47). -/
def State.scanMailbox (s : State) : State :=
  let held := s.dev.doorbells
  let s := held.foldl (fun s p => s.doorbell p.1 p.2) (s.modDev fun d => { d with doorbells := [] })
  (List.range 32).foldl (fun s v => (List.range 25).foldl (fun s i => s.takeSlot v i) s) s

/-- Release the held completions in retirement order (R65). -/
def State.releaseHeld (s : State) : State :=
  s.dev.heldCompletions.foldl State.completeHaul (s.modDev fun d => { d with heldCompletions := [] })

/-- Find the queues that are ACTIVE, which count against the quotas, and rescan every pending-kick bitmap; an ACTIVE queue with
nothing left turns IDLE (R59, R65). -/
def State.rescanKicks (s : State) : State :=
  let s := s.discover fun s qcb => s.rdNat (qcb + 1) 1 == qActive
  let s := (List.range 4).foldl (fun s d => (List.range (4096 / kickBits)).foldl (fun s w => s.takeKicks d w) s) s
  s.queues.foldl (fun s q => s.settleQueue q.id) s

/-- The mailbox header: firmware level and key (R46). -/
def State.writeHeader (s : State) : State :=
  (s.wrNat (mbHeader + 4) 4 s.dev.fwLevel.toNat).wrNat (mbHeader + 8) 8 s.key.toNat

/-- A controller that has won the lease serves: held completions, bitmaps and queues, and once it serves queues the mailbox (R46,
R63, R65). -/
def State.serve (s : State) (epoch die : Nat) : State :=
  let s := (s.modDev fun d => { d with leader := some (epoch % 2 ^ 24, die) }).writeHeader
  (s.releaseHeld.rescanKicks.setMbState 1).scanMailbox

/-! ### Replay of the journal (R64, R65, R381) -/

/-- The entries that a leader which took over from an epoch replays, each with whether it can be read: one in poisoned memory
cannot (R64, R381). -/
def State.replayable (s : State) (epoch : Nat) : List (JItem × Bool) :=
  (s.dev.journal.filter fun j => j.epoch == epoch).zipIdx.map fun j => (j.1.item, !s.poisoned (Config.journalAt j.2) 64)

/-- A queue as an entry has it. -/
def queueIn? (l : List JItem) (id : Nat) : Option Queue :=
  l.findSome? fun i => match i with
    | .queue q => if q.id = id then some q else none
    | _ => none

/-- A command as an entry has it. -/
def commandIn? (l : List JItem) (block slot : Nat) : Option Command :=
  l.findSome? fun i => match i with
    | .command c => if c.block = block ∧ c.slot = slot then some c else none
    | _ => none

/-- A deferred list as an entry has it. -/
def deferredIn (l : List JItem) (vf : Nat) : List Nat :=
  (l.findSome? fun i => match i with
    | .deferred v ids => if v = vf then some ids else none
    | _ => none).getD []

/-- RDIDX of a queue as its QCB gives it to a leader that takes over, and as the leader before kept it where the port does not
reach the QCB (R65, R357; log 79). -/
def State.qcbRdidx (s : State) (q : Queue) : Nat := if s.qcbSeen q then s.qcb q 0x14 4 else q.rdidx

/-- The queues that no entry names and whose QCB the port does not reach are counted as refused (R368). -/
def State.countUnread (s : State) (l : List JItem) : State :=
  (s.queues.filter fun q => (queueIn? l q.id).isNone && !s.qcbSeen q).foldl (fun s q => s.countRefused q.qcb) s

/-- A queue after replay: its RDIDX, packets, destroys and error as journalled; where no entry names it, nothing and the RDIDX its
QCB gives. -/
def Queue.replayed (l : List JItem) (rd : Nat) (q : Queue) : Queue :=
  match queueIn? l q.id with
  | some j => { q with rdidx := j.rdidx, packets := j.packets, force := j.force, stopped := j.stopped, reading := none }
  | none => { q with rdidx := rd, packets := [], force := [], reading := none }

/-- Hauls whose packet stood in an entry that cannot be read end with HWERR (R381). -/
def State.loseEntries (s : State) (lost : List JItem) : State :=
  (s.hauls.filter fun h => !h.retired && h.ended.isNone && h.packet.any fun p => (queueIn? lost p.1).isSome).foldl
    (fun s h => s.stopHaul h.id 9 8 0) s

/-- Replay the journal of an epoch. -/
def State.replayJournal (s : State) (epoch : Nat) : State :=
  let es := s.replayable epoch
  let l := (es.filter (·.2)).map (·.1)
  let s := (s.loseEntries ((es.filter fun e => !e.2).map (·.1))).countUnread l
  let held := l.filterMap fun i => match i with
    | .held h => if s.dev.heldCompletions.contains h then none else some h
    | _ => none
  let s := (List.range 32).foldl (fun s n =>
    if (s.vf n).deferred = [] then s
    else s.modVf n fun v => { v with deferred := (deferredIn l n).filter fun i => s.queues.any fun q => q.id == i }) s
  { s.modDev fun d => { d with heldCompletions := held ++ d.heldCompletions } with
    queues := s.queues.map fun q => q.replayed l (s.qcbRdidx q)
    commands := s.commands.filterMap fun c =>
      (commandIn? l c.block c.slot).map fun j => { c with started := j.started } }

/-- 3 ms in ticks (R62, R63). -/
def leaseTicks : Nat := 300000

/-- LEASE_TAKEOVER: a follower that finds the lease lapsed takes it with the next epoch, replays the journal of the epoch before and
serves; a leader that still believes in its lease is superseded (R62, R64, R65). -/
def execLeaseTakeover (die : Nat) (s : State) : Host.Outcome State Fault Refusal :=
  let x := s.lease
  let age := (s.dev.time.toNat % 2 ^ 38 + 2 ^ 38 - leaseRenewed x) % 2 ^ 38
  .next (if die < 4 ∧ s.dev.fwLoaded ∧ leaseEpoch x ≠ 0 ∧ leaseHolder x ≠ die ∧ leaseTicks < age ∧
        !s.dev.superseded.any (fun p => p.2 == die) then
      let s := s.modDev fun d => { d with
        superseded := d.superseded ++ d.leader.toList, leader := some ((leaseEpoch x + 1) % 2 ^ 24, die) }
      ((s.setLease (leaseEpoch x + 1) die).replayJournal (leaseEpoch x)).serve (leaseEpoch x + 1) die
    else s)

/-- LEASE_FALLBACK: a controller that still finds EPOCH 0 when 3 ms have passed since its start takes the first lease (R63). Its
start is the load: DEDUCED, log 23. -/
def execLeaseFallback (die : Nat) (s : State) : Host.Outcome State Fault Refusal :=
  .next (if die < 4 ∧ s.dev.fwLoaded ∧ s.lease = 0 ∧ leaseTicks ≤ (s.dev.time - s.dev.fwStart).toNat then
      (s.setLease 1 die).serve 1 die
    else s)

/-! ### Firmware load (R46, R47, R63, R65, R361, R363) -/

/-- What a reload loses: every command TAKEN ends with FWFAIL, and packets, waits, deferred lists, page migrations and migrations
of VFs are gone with the journal (R47, R49, R63). Completions held at the time stay, and are released with the status each has:
DESIGN CHOICE, log 80. -/
def State.loseService (s : State) : State :=
  let s := (List.range 32).foldl (fun s n =>
    if (s.vf n).blackout.isSome then s.endBlackout n 9 else s) s
  { s.modDev fun d => { d with journal := [], leader := none, superseded := [] } with
    commands := s.commands.map fun c => { c with result := some (9, 0) }
    queues := []
    vfs := s.vfs.map fun p => (p.1, { p.2 with deferred := [] })
    migrations := [] }

/-- FIRMWARE_LOAD: the controllers stop and LEASE reads zero. A verified image runs: hauls that were running end with FWFAIL,
TAKEN slots fail, and die 0 takes the first lease, or leaves it to the followers: free value, log 23. One whose signature fails is
not run, and locked interfaces move to ERROR; FWLEVEL and COMPAT then stay those of the image before: DESIGN CHOICE, log 80 (R46,
R47, R63, R65, R361, R363). -/
def execFirmwareLoad (level : BitVec 32) (verified : Bool) (s : State) : Host.Outcome State Fault Refusal :=
  .next (if verified then
      let s := (((s.endAll 7 0).loseService.wrNat leaseHome 8 0).setMbState 2).modDev fun d => { d with
        fwLevel := level, fwLoaded := true, fwStart := d.time }
      let s := s.writeHeader
      if Config.die0Starts s.fresh then (s.setLease 1 0).serve 1 0 else s
    else
      let s := ((s.stopLeader.wrNat leaseHome 8 0).setMbState 0).modDev fun d => { d with fwLoaded := false, superseded := [] }
      (List.range 32).foldl State.toError s)

end Sys2Proof.Machine
end

