-- ==== Sys2Proof/Machine/Migrate.lean ====
section
/-! DEFINITION. Migration of a virtual function: the image MIGOUT writes, and what MIGIN makes of it (R354, R355). The image is
opaque: its layout is the device's own (log 35). -/

namespace Sys2Proof.Machine

/-! ### Writing and reading the image -/

/-- Numbers as dwords. -/
def putNats (l : List Nat) : List Byte := l.flatMap (leBytes 8)
/-- A list behind its length. -/
def putList (l : List Nat) : List Byte := putNats (l.length :: l)
/-- Bytes behind their length. -/
def putBlob (b : List Byte) : List Byte := leBytes 8 b.length ++ b
/-- Records behind their number. -/
def putMany {α : Type} (f : α → List Byte) (l : List α) : List Byte := leBytes 8 l.length ++ l.flatMap f
/-- A truth value as a number. -/
def bit (b : Bool) : Nat := if b then 1 else 0

/-- A reader of a part of the image: what it reads and what is left. -/
abbrev Parse (α : Type) := List Byte → Option (α × List Byte)

/-- A number. -/
def getNat : Parse Nat := fun b => if b.length < 8 then none else some (leNat (b.take 8), b.drop 8)
/-- So many records. -/
def getMany {α : Type} (f : Parse α) : Nat → Parse (List α)
  | 0, b => some ([], b)
  | n + 1, b => (f b).bind fun r => (getMany f n r.2).map fun q => (r.1 :: q.1, q.2)
/-- So many numbers. -/
def getNats (n : Nat) : Parse (List Nat) := getMany getNat n
/-- Records behind their number. -/
def getCounted {α : Type} (f : Parse α) : Parse (List α) := fun b =>
  (getNat b).bind fun r => if b.length < r.1 then none else getMany f r.1 r.2
/-- Bytes behind their length. -/
def getBlob : Parse (List Byte) := fun b =>
  (getNat b).bind fun r => if r.2.length < r.1 then none else some (r.2.take r.1, r.2.drop r.1)
/-- One after the other. -/
def both {α β : Type} (f : Parse α) (g : Parse β) : Parse (α × β) := fun b =>
  (f b).bind fun r => (g r.2).map fun q => ((r.1, q.1), q.2)
/-- Number i of a list. -/
def nth (l : List Nat) (i : Nat) : Nat := (l[i]?).getD 0

/-- The bytes of pieces laid from address 0 on. -/
def flatPieces (p : Pieces) : List Byte :=
  p.1.foldl (fun b q => b ++ List.replicate (q.1 - b.length) 0 ++ q.2) []

/-! ### What goes into it (R354 step 1) -/

/-- The poisoned granules of a frame, by their places in it (R381). -/
def State.frameBad (s : State) (f : Nat × Nat × Nat) : List Nat :=
  (s.dev.poison.filter fun g => decide (f.2.1 ≤ g ∧ g < f.2.1 + 2 ^ f.2.2)).map fun g => g - f.2.1

/-- A frame with its poisoned granules and its bytes: the blocks of 64 that are not all zero, each behind its place. -/
def State.frameOut (s : State) (f : Nat × Nat × Nat) : List Byte :=
  putNats [f.1, f.2.1, f.2.2] ++ putList (s.frameBad f) ++
  putMany (fun a => putNats [a - f.2.1] ++ putBlob (s.rd a 64))
    ((s.mem.filter fun c => decide (f.2.1 ≤ c.1 ∧ c.1 < f.2.1 + 2 ^ f.2.2)).map fun c => c.1 / 64 * 64).dedup
/-- A packet: how long ago it started stands for TIME at its start. -/
def packetOut (now : Dword) (p : Packet) : List Byte :=
  putNats [p.index, bit p.started, bit p.done, (now - p.at_).toNat] ++ putBlob p.bytes
/-- A queue as its journal entry has it, with RDIDX and whether it is deferred (R64). -/
def queueOut (now : Dword) (v : Vf) (q : Queue) : List Byte :=
  putNats [q.pasid, q.qno, bit q.stopped, bit (v.deferred.contains q.id), q.rdidx] ++ putMany (packetOut now) q.packets
/-- A registered set. -/
def psetOut (p : PSet) : List Byte :=
  putNats [p.id, p.base, p.length, p.nslot, p.cur, p.pinned.toNat, p.refused.toNat, p.gen.toNat] ++ putList p.slots
/-- Rings of an ASID. -/
def ringsOut (r : Rings) : List Byte := putNats [r.asid.toNat, r.req, r.comp, r.logReq, r.logComp]
/-- A page request that is held. -/
def requestOut (r : PageReq) : List Byte := putNats [r.asid.toNat, r.va, r.tag.toNat, r.size.toNat]
/-- A TCB held as spawned, with its place among the ready tasks: 0 where it is not ready. -/
def taskOut (v : Vf) (t : Held) : List Byte :=
  let pos := (v.ready.takeWhile fun p => p.1 != t.tcb).length
  let prio := ((v.ready.find? fun p => p.1 == t.tcb).map fun p => p.2 + 1).getD 0
  putNats [t.pasid, t.asid.toNat, t.ptroot.toNat, t.vaddr, bit t.spec, bit t.committed, pos, prio]
/-- An entry of the stub log. -/
def stubOut (e : Nat × Ingress) : List Byte :=
  match e.2 with
  | .write b => putNats [e.1, 0, 0, 0] ++ putBlob b
  | .atomic o x y _ => putNats [e.1, 1, o, x.toNat + 2 ^ 32 * y.toNat] ++ putBlob []
  | .signal o x => putNats [e.1, 2, o, x.toNat] ++ putBlob []
  | _ => putNats [e.1, 3, 0, 0] ++ putBlob []

/-- A haul: what its SAVED image does not hold, then the image. Its packet is named by PASID, queue number and index, its TCB by
its place among the tasks held. -/
def State.haulOut (s : State) (v : Vf) (h : Haul) : List Byte :=
  let r := s.savedImage h 0
  let q := (h.packet.bind fun p => s.queue? p.1)
  let e := h.ended.getD (0, 0, 0)
  let tcb := (h.tcb.map fun t => (v.tasks.takeWhile fun k => k.tcb != t).length + 1).getD 0
  putNats [h.pasid, h.asid.toNat, h.ptroot.toNat, h.prio, h.image, h.record, h.signal, bit q.isSome,
    (q.map (·.pasid)).getD 0, (q.map (·.qno)).getD 0, (h.packet.map (·.2)).getD 0, tcb, bit h.spec, bit h.committed,
    h.launchNo.toNat, h.tAccept.toNat, h.rakesDone, bit h.ended.isSome, e.1, e.2.1.toNat, e.2.2.toNat, bit h.released,
    bit h.heldRelease, bit h.retired, h.watch, h.tEnd.toNat, h.last.1, h.last.2.toNat] ++
  putList h.psets ++ putList (h.dies.flatMap fun d => [d.1, d.2]) ++ putList (h.waits.map (·.1)) ++ putList h.promoted ++
  putBlob (flatPieces r.2)

/-- The hauls of a VF that its image carries: those that live, and tasks whose speculation is still open. -/
def State.carriedHauls (s : State) (vf : Nat) : List Haul :=
  s.hauls.filter fun h => h.vf == vf && (!h.retired || h.spec && !h.committed)

/-- The image of a VF, behind its key: the deferred queues stand last, in kick order (R59, R354 step 1). -/
def State.vfImage (s : State) (vf : Nat) : List Byte :=
  let v := s.vf vf
  leBytes 8 s.key.toNat ++ putNats [v.launches.toNat, v.pstable.1, v.pstable.2] ++
  putMany s.frameOut (stageFrames s.mem levels v.root2 0) ++
  putMany (queueOut s.dev.time v) ((s.queues.filter fun q => q.vf == vf && !v.deferred.contains q.id) ++
    v.deferred.filterMap s.queue?) ++ putMany psetOut v.psets ++
  putMany ringsOut v.rings ++ putMany requestOut v.requests ++
  putMany (fun k => putNats [k.2.1.toNat, k.2.2.toNat]) v.heldKicks ++ putMany (taskOut v) v.tasks ++
  putMany (s.haulOut v) (s.carriedHauls vf) ++ putMany stubOut v.stub

/-! ### MIGOUT -/

/-- Write bytes at guest physical addresses of VF 0, block by block; false where its second stage refuses one. -/
def State.writeGpa : List (Nat × Nat) → List Byte → State → State × Bool
  | [], _, s => (s, true)
  | (a, n) :: ps, b, s =>
    match s.gpaHome 0 a true with
    | (s, none) => (s, false)
    | (s, some h) => State.writeGpa ps (b.drop n) (s.wr h (b.take n))

/-- Bytes at a home, each with whether a read of it meets an uncorrectable error (R381). -/
def State.rdMarked (s : State) (a n : Nat) : List (Byte × Bool) :=
  (s.rd a n).zip ((List.range n).map fun i => s.poisoned (a + i) 1)

/-- Read bytes at guest physical addresses of VF 0, with their errors; none where its second stage refuses one. -/
def State.readGpas : List (Nat × Nat) → State → State × Option (List (Byte × Bool))
  | [], s => (s, some [])
  | (a, n) :: ps, s =>
    match s.gpaHome 0 a false with
    | (s, none) => (s, none)
    | (s, some h) =>
      match State.readGpas ps s with
      | (s, some l) => (s, some (s.rdMarked h n ++ l))
      | r => r

/-- The VF leaves the device: its hauls, queues and registrations are gone; the accesses held at the Coupler ports and later
ones of peers to its frames are handed on (R355). -/
def State.depart (s : State) (vf : Nat) : State :=
  let mine := s.hauls.filter fun h => h.vf == vf
  let map := stageFrames s.mem levels (s.vf vf).root2 0
  let handed := (s.vf vf).held.filterMap fun e => (s.gpaOf vf e.2.1).map fun g => (g, e.2.2)
  let s := mine.foldl (fun s h => s.tearDown h.id) s
  { s.dropQueues (fun q => q.vf == vf) with
    hauls := s.hauls.filter fun h => h.vf != vf
  }.modVf vf fun v => { v with
    deferred := [], ready := [], tasks := [], pstable := (0, 0), psets := [], rings := [], requests := [], heldKicks := []
    blackout := none, stub := [], forwarding := true, frameMap := map, held := [], sent := v.sent ++ handed }

/-- The frames of a VF that the leader's port does not reach (R357, R368). -/
def State.hiddenFrames (s : State) (vf : Nat) : List Nat :=
  ((stageFrames s.mem levels (s.vf vf).root2 0).map fun f => f.2.1).filter fun a => !s.portAllows (ctrlPort s.leaderDie) a

/-- Write a VF's image once everything is saved: the VF departs, or the command fails with NOSPACE and the VF resumes (R352,
R354). One with frames that the leader's port does not reach cannot be written whole: each is counted and the command fails like
that: DESIGN CHOICE, log 79. -/
def State.sendVf (s : State) (c : Command) : State :=
  let b := s.vfImage c.vf
  if s.hiddenFrames c.vf ≠ [] then ((s.hiddenFrames c.vf).foldl State.countRefused s).endBlackout c.vf 6
  else if c.arg 2 < b.length then s.endBlackout c.vf 6
  else match State.writeGpa (spans (c.arg 1) b.length) b s with
    | (s, false) => s.endBlackout c.vf 6
    | (s, true) => (s.depart c.vf).endCommand c.block c.slot 0 (BitVec.ofNat 64 b.length)

/-- Whether a VF has nothing under way that a migration must let end first: FORCE destroys, page migrations, a SAVE. -/
def State.mayDepart (s : State) (vf : Nat) : Bool :=
  !(s.queues.any fun q => q.vf == vf && q.force != []) && !(s.migrations.any fun m => m.vf == vf) &&
  !(s.hauls.any fun h => h.vf == vf && h.saving.isSome) && (s.vf vf).blackout.isNone && (s.vf vf).locking.isNone &&
  !(s.vf vf).flrb

/-- Whether every haul of a VF is saved, and none is still ending. -/
def State.vfSaved (s : State) (vf : Nat) : Bool :=
  s.hauls.all fun h => h.vf != vf || h.retired || (h.ended.isNone && s.allSaved h)

/-- The complete tickets of a VF's saved rakes give up their slots (R365). -/
def State.writeMine (s : State) (vf : Nat) : State :=
  (s.hauls.filter fun h => h.vf == vf && h.saving.isSome).foldl State.writeSaved s

/-- Once every haul of a VF is saved its image is written; one of whose saved rakes or tiles holds an error ends with HWERR first (R354,
R381). -/
def State.trySend (s : State) (c : Command) : State :=
  match s.hauls.filter fun h => h.vf == c.vf && !h.retired && h.ended.isNone && s.keptError h with
  | [] => if s.vfSaved c.vf then s.sendVf c else s
  | l => if s.vfSaved c.vf then l.foldl (fun s h => s.stopHaul h.id 9 8 0) s else s

/-- MIGOUT: the blackout begins and every haul is saved; then the image is written (R354). -/
def execMigout (block slot : Nat) (s : State) : Host.Outcome State Fault Refusal :=
  .next (s.onCommand block slot 4 fun s c =>
    if (s.vf c.vf).blackout = some (block, slot) then
      (s.writeMine c.vf).trySend c
    else if !s.mayDepart c.vf then s
    else
      let s := s.modVf c.vf fun v => { v with blackout := some (block, slot), stub := [] }
      let s : State := { s with hauls := s.hauls.map fun (h : Haul) =>
        if h.vf = c.vf ∧ !h.retired ∧ h.ended.isNone then { h with saving := some (block, slot) } else h }
      ((s.requestWhere (s.rakeOf c.vf)).writeMine c.vf).trySend c)

/-! ### MIGIN (R354, R355) -/

/-- A haul of an image: its numbers, its sets, the dies of its rakes as pairs, its waiting rakes in order, those moved to the head, and
its own image. -/
structure HaulImage where
  nums  : List Nat
  psets : List Nat
  dies  : List Nat
  waits : List Nat
  promoted : List Nat
  blob  : List Byte
  deriving DecidableEq

/-- What an image holds: its numbers, frame map, queues with their packets, sets, rings, requests, kicks, tasks, hauls, stub. A frame
has its numbers, its poisoned granules and its blocks. -/
structure VfImage where
  nums   : List Nat
  frames : List (List Nat × List Nat × List (List Nat × List Byte))
  queues : List (List Nat × List (List Nat × List Byte))
  psets  : List (List Nat × List Nat)
  rings  : List (List Nat)
  requests : List (List Nat)
  kicks  : List (List Nat)
  tasks  : List (List Nat)
  hauls  : List HaulImage
  stub   : List (List Nat × List Byte)
  deriving DecidableEq

/-- Read an image behind its key. -/
def getVf : Parse VfImage := fun b =>
  let num (n : Nat) : Parse (List Nat) := getNats n
  let list : Parse (List Nat) := getCounted getNat
  let haul : Parse HaulImage := fun b => (both (num 28) (both list (both list (both list (both list getBlob)))) b).map fun r =>
    let (n, p, d, w, m, x) := r.1
    ({ nums := n, psets := p, dies := d, waits := w, promoted := m, blob := x }, r.2)
  (both (num 3) (both (getCounted (both (num 3) (both list (getCounted (both (num 1) getBlob))))) (both (getCounted (both (num 5) (getCounted (both (num 4) getBlob))))
    (both (getCounted (both (num 8) list)) (both (getCounted (num 5)) (both (getCounted (num 4)) (both (getCounted (num 2))
      (both (getCounted (num 8)) (both (getCounted haul) (getCounted (both (num 4) getBlob)))))))))) b).map fun r =>
    let (n, f, q, p, g, e, k, t, h, u) := r.1
    ({ nums := n, frames := f, queues := q, psets := p, rings := g, requests := e, kicks := k, tasks := t, hauls := h
       stub := u }, r.2)

/-- An image without the data of its frames' blocks and of its hauls, whose lengths remain. -/
def VfImage.outline (i : VfImage) : VfImage :=
  let blank (b : List Byte) : List Byte := List.replicate b.length 0
  { i with
    frames := i.frames.map fun f => (f.1, f.2.1, f.2.2.map fun b => (b.1, blank b.2))
    hauls := i.hauls.map fun h => { h with blob := blank h.blob } }

/-- The granules of a block of a frame in which two readings differ. -/
def blockDiff (x y : List Nat × List Byte) : List Nat :=
  ((List.range x.2.length).filter fun k => x.2[k]? != y.2[k]?).map fun k => (nth x.1 0 + k) / 4 * 4

/-- What an image says, and which of its hauls cannot be read, from its bytes with their errors. The bytes that are in error are read
as they stand and complemented: what the two readings have in common does not depend on them. A block's granules in error become
poisoned granules of its frame (R381); an error in anything but a block and a haul's own image leaves nothing to read. The bytes
behind the key are given. -/
def readVf (l : List (Byte × Bool)) : Option (VfImage × List Bool) :=
  match getVf (l.map (·.1)), getVf (l.map fun p => if p.2 then ~~~p.1 else p.1) with
  | some (i, _), some (j, _) =>
    if i.outline ≠ j.outline then none
    else some ({ i with frames := (i.frames.zip j.frames).map fun p =>
        (p.1.1, p.1.2.1 ++ (p.1.2.2.zip p.2.2.2).flatMap fun b => blockDiff b.1 b.2, p.1.2.2) },
      (i.hauls.zip j.hauls).map fun p => p.1 != p.2)
  | _, _ => none

/-- The access of a stub entry. -/
def stubOp (l : List Nat) (b : List Byte) : Ingress :=
  match nth l 1 with
  | 0 => .write b
  | 1 => .atomic (nth l 2) (BitVec.ofNat 32 (nth l 3)) (BitVec.ofNat 32 (nth l 3 / 2 ^ 32)) false
  | 2 => .signal (nth l 2) (BitVec.ofNat 64 (nth l 3))
  | _ => .read 0

/-- Restore a frame at its home here, in pieces of 32 KiB, its poisoned granules as poisoned ones; a piece that the second stage
refuses is left out (R354 step 4, R381, log 35). -/
def State.frameIn (vf : Nat) (s : State) (f : List Nat × List Nat × List (List Nat × List Byte)) : State :=
  (List.range (2 ^ (nth f.1 2 - 15))).foldl (fun s i =>
    match s.gpaHome vf (nth f.1 0 + 32768 * i) true with
    | (s, none) => s
    | (s, some h) =>
      ((f.2.2.filter fun b => nth b.1 0 / 32768 == i).foldl (fun s b => s.wr (h + nth b.1 0 % 32768) b.2) (s.clear h 32768)).poisonAll
        ((f.2.1.filter fun g => g / 32768 == i).map fun g => h + g % 32768)) s

/-- Replay one entry: its old frame gives the guest physical address, and that its home here (R355). -/
def State.replay (vf : Nat) (frames : List (List Nat)) (s : State) (e : List Nat × List Byte) : State :=
  let a := nth e.1 0
  match frames.find? fun f => decide (nth f 1 ≤ a ∧ a < nth f 1 + 2 ^ nth f 2) with
  | none => s
  | some f =>
    match s.gpaHome vf (nth f 0 + (a - nth f 1)) true with
    | (s, none) => s
    | (s, some h) => s.atHomeOf h (stubOp e.1 e.2)

/-- A queue of the image, found again through the VF's queue table (R54); a deferred one joins the list behind those before it
(R59). -/
def State.queueIn (vf : Nat) (s : State) (q : List Nat × List (List Nat × List Byte)) : State :=
  match s.walkQueue vf (nth q.1 0) (nth q.1 1) with
  | (s, .found _ qcb) =>
    let id := s.nextId
    let now := s.dev.time
    let ps : List Packet := q.2.map fun p => {
      index := nth p.1 0, started := nth p.1 1 == 1, done := nth p.1 2 == 1, at_ := now - BitVec.ofNat 64 (nth p.1 3)
      bytes := p.2 }
    let s : State := { s.newId with queues := s.queues ++ [{
      id := id, vf := vf, pasid := nth q.1 0, qno := nth q.1 1, qcb := qcb, rdidx := nth q.1 4, packets := ps, reading := none, force := []
      stopped := nth q.1 2 == 1 }] }
    if nth q.1 3 = 1 then s.modVf vf fun v => { v with deferred := v.deferred ++ [id] } else s
  | (s, _) => s

/-- A set of the image, its entry found again in the table (R234). -/
def State.psetIn (vf : Nat) (s : State) (p : List Nat × List Nat) : State :=
  let l := p.1
  match s.gpaHome vf ((s.vf vf).pstable.1 + 64 * nth l 0) true with
  | (s, none) => s
  | (s, some h) => s.modVf vf fun v => { v with psets := v.psets ++ [{
      id := nth l 0, entry := h, base := nth l 1, length := nth l 2, nslot := nth l 3, cur := nth l 4
      pinned := BitVec.ofNat 3 (nth l 5), refused := BitVec.ofNat 32 (nth l 6), gen := BitVec.ofNat 64 (nth l 7), slots := p.2 }] }

/-- A task of the image at its home here, and its TCB's home; none where it cannot be reached (R79). -/
def State.taskIn (vf : Nat) (s : State) (l : List Nat) : State × Option Nat :=
  let x := s.ctrlCtx vf (nth l 0) (BitVec.ofNat 16 (nth l 1)) (BitVec.ofNat 64 (nth l 2))
  match s.translate x .store (nth l 3) with
  | (s, .found t _ _) =>
    (s.modVf vf fun v => { v with tasks := v.tasks ++ [{
      tcb := t, pasid := nth l 0, asid := BitVec.ofNat 16 (nth l 1), ptroot := BitVec.ofNat 64 (nth l 2), vaddr := nth l 3
      spec := nth l 4 == 1, committed := nth l 5 == 1 }] }, some t)
  | (s, _) => (s, none)

/-- The tasks of an image, with the homes of their TCBs. -/
def State.tasksIn (vf : Nat) : List (List Nat) → State → State × List (Option Nat)
  | [], s => (s, [])
  | l :: t, s =>
    let r := s.taskIn vf l
    let q := State.tasksIn vf t r.1
    (q.1, r.2 :: q.2)

/-- The ready list of an image, in its order (R79). -/
def readyIn (tasks : List (List Nat)) (homes : List (Option Nat)) : List (Nat × Nat) :=
  (List.range tasks.length).filterMap fun i =>
    match (tasks.zip homes).find? fun p => nth p.1 7 != 0 && nth p.1 6 == i with
    | some (l, some t) => some (t, nth l 7 - 1)
    | _ => none

/-- A complete request for a tile that came with an image (R42, R365). -/
def tileReq (id : Nat) (h : Haul) (rake : Nat) (ticket : Dword) (sh : TileShape) (ws : List Word) : ViewReq where
  id := id
  coach := 0
  haul := h.id
  quad := 0
  rake := rake
  lift := 1
  d := sh.d
  lanes := sh.lanes.map fun l => l.map fun x => (x, [])
  desc := {
    cam := 0, scene := 0, cut := 0, shseg := 0, entry := 0, shlen := 0
    res := ((List.range 8).find? fun r => 4 ^ (r + 1) == sh.wh).getD 0, shpl := 0
    out0 := 0, out1 := if sh.words = 2 then 1 else 0, lodb := 0, fill := sh.fill, maxd := 0, sharg := 0 }
  cam := { vecs := Vector.replicate 12 0, kind := 0, tanh := 0, near := 0, far := 0 }
  scene := { ninst := 0, nnode := 0, inst := 0, nodes := 0, tris := 0, ntri := 0, topRoot := 0, topNodes := 0, ntop := 0 }
  vf := h.vf
  asid := h.asid
  ptbase := h.ptroot
  mode := .u
  nbound := h.hdr.nbound
  ticket := ticket
  slots := 0
  started := true
  traversed := true
  status := (sh.status.extractLsb' 0 32).toNat
  failAddr := sh.status.extractLsb' 32 32
  tile := ws
  hits := []
  seen := []
  launched := 0
  retired := 0

/-- Tickets of a coach whose tiles lie in an image at hand: each gets a request that holds its tile. -/
def State.ticketsIn (h : Haul) (rake : Nat) (blob : List Byte) : List Ticket → State → State × List Ticket
  | [], s => (s, [])
  | t :: ts, s =>
    let a := (t.tile.map (·.1)).getD 0
    if a < 64 then let r := State.ticketsIn h rake blob ts s; (r.1, t :: r.2)
    else
      let sh := (t.tile.map (·.2)).getD TileShape.absent
      let ws := (List.range sh.size).map (wordAt (blob.drop a))
      let s' : State := { s.newId with views := s.views ++ [tileReq s.nextId h rake t.dword sh ws] }
      let r := State.ticketsIn h rake blob ts s'
      (r.1, { t with req := s.nextId, tile := none } :: r.2)

/-- The coaches of a saved rake with their tickets. -/
def State.coachesIn (h : Haul) (rake : Nat) (blob : List Byte) : List Coach → State → State × List Coach
  | [], s => (s, [])
  | c :: cs, s =>
    let r := State.ticketsIn h rake blob c.tickets s
    let q := State.coachesIn h rake blob cs r.1
    (q.1, { c with tickets := r.2 } :: q.2)

/-- The saved rakes of a haul with their tickets. -/
def State.savedIn (h : Haul) (blob : List Byte) : List SavedRake → State → State × List SavedRake
  | [], s => (s, [])
  | r :: rs, s =>
    let a := State.coachesIn h r.rake blob r.coaches s
    let q := State.savedIn h blob rs a.1
    (q.1, { r with coaches := a.2 } :: q.2)

/-- Pairs from a list of numbers. -/
def pairsOf (l : List Nat) : List (Nat × Nat) := (List.range (l.length / 2)).map fun i => (nth l (2 * i), nth l (2 * i + 1))

/-- What the haul of an image is launched from here. -/
def State.sourceIn (s : State) (vf : Nat) (homes : List (Option Nat)) (l psets : List Nat) : Source where
  vf := vf
  pasid := nth l 0
  asid := BitVec.ofNat 16 (nth l 1)
  root := BitVec.ofNat 64 (nth l 2)
  cap := nth l 3
  image := nth l 4
  record := nth l 5
  signal := nth l 6
  packet := if nth l 7 = 1 then
      (s.queues.find? fun q => q.vf == vf && q.pasid == nth l 8 && q.qno == nth l 9).map fun q => (q.id, nth l 10)
    else none
  qno := if nth l 7 = 1 then some (nth l 9) else none
  tcb := if nth l 11 = 0 then none else (homes[nth l 11 - 1]?).join
  spec := nth l 12 == 1
  psets := psets

/-- The refusal of a haul's image inside a VF's image, recorded as at a launch (R34, R60, R354). -/
def State.refuseHaul (s : State) (x : Source) (e : Nat) : State :=
  let b := recordBytes e (if e = 9 then 8 else 0) x.image 0 0 s.dev.time s.dev.time 0
  let r := s.recordAndSignal (s.ctrlCtx x.vf x.pasid x.asid x.root) x.record x.signal b
  match x.packet with
  | none => r.1
  | some (q, i) => r.1.endPacket q i r.2

/-- A haul of the image: its SAVED image is checked under R34, and it waits for its rakes to be placed again (R353, R354). One whose
image is in error ends with HWERR (R381). -/
def State.haulIn (vf : Nat) (homes : List (Option Nat)) (s : State)
    (q : HaulImage × Bool) : State :=
  let l := q.1.nums
  let x := s.sourceIn vf homes l q.1.psets
  match if q.2 then (s, .error 9) else s.readImage (bytesReader q.1.blob) 0 with
  | (s, .error e) => s.refuseHaul x e
  | (s, .ok (hdr, ls, rs)) =>
    let id := s.nextId
    let h : Haul := x.haul id (BitVec.ofNat 32 (nth l 14)) (BitVec.ofNat 64 (nth l 15)) hdr ls rs
    let h : Haul := { h with
      prio := nth l 3, committed := nth l 13 == 1, rakesDone := nth l 16
      ended := if nth l 17 = 1 then some (nth l 18, BitVec.ofNat 32 (nth l 19), BitVec.ofNat 64 (nth l 20)) else none
      released := nth l 21 == 1, heldRelease := nth l 22 == 1, retired := nth l 23 == 1, watch := nth l 24
      tEnd := BitVec.ofNat 64 (nth l 25), last := (nth l 26, BitVec.ofNat 8 (nth l 27)), dies := pairsOf q.1.dies
      waits := q.1.waits.map fun r => (r, s.dev.time), promoted := q.1.promoted }
    let r := State.savedIn h q.1.blob h.saved (rs.foldl (fun s r => s.keepArea id r.rake) s.newId)
    { r.1 with hauls := r.1.hauls ++ [{ h with saved := r.2 }] }

/-- Restore a VF: its memory, then the stub is replayed, then registrations, tasks, queues and hauls, and only then queues are
read again (R354 step 4). It is given which hauls of the image cannot be read. -/
def State.arriveVf (s : State) (vf : Nat) (i : VfImage) (lost : List Bool) : State :=
  let s := i.frames.foldl (State.frameIn vf) s
  let s := i.stub.foldl (State.replay vf (i.frames.map (·.1))) s
  let s := s.modVf vf fun v => { v with
    launches := BitVec.ofNat 32 (nth i.nums 0), pstable := (nth i.nums 1, nth i.nums 2)
    rings := v.rings ++ i.rings.map fun l =>
      { asid := BitVec.ofNat 16 (nth l 0), req := nth l 1, comp := nth l 2, logReq := nth l 3, logComp := nth l 4 }
    requests := v.requests ++ i.requests.map fun l =>
      { asid := BitVec.ofNat 16 (nth l 0), va := nth l 1, tag := BitVec.ofNat 64 (nth l 2), size := BitVec.ofNat 2 (nth l 3) } }
  let s := i.psets.foldl (State.psetIn vf) s
  let r := State.tasksIn vf i.tasks s
  let s := r.1.modVf vf fun v => { v with ready := v.ready ++ readyIn i.tasks r.2 }
  let s := i.queues.foldl (State.queueIn vf) s
  let s := (i.hauls.zip lost).foldl (State.haulIn vf r.2) s
  let s := i.kicks.foldl (fun s k => s.walkKick vf (BitVec.ofNat 32 (nth k 0)) (BitVec.ofNat 20 (nth k 1))) s
  (s.queues.filter fun q => q.vf == vf).foldl State.examine s

/-- Bytes none of which is in error. -/
def soundBytes (l : List (Byte × Bool)) : Option (List Byte) := if l.any (·.2) then none else some (l.map (·.1))

/-- MIGIN: the key is compared first; one that differs starts nothing (R354). An image that cannot be read is BADARG (log
35). -/
def execMigin (block slot : Nat) (s : State) : Host.Outcome State Fault Refusal :=
  .next (s.onCommand block slot 5 fun s c =>
    match State.readGpas (spans (c.arg 1) (c.arg 2)) s with
    | (s, none) => s.endCommand block slot 3 0
    | (s, some l) =>
      match (soundBytes (l.take 8)).bind getNat with
      | none => s.endCommand block slot 3 0
      | some (key, _) =>
        if key ≠ s.key.toNat then s.endCommand block slot 7 0
        else match (readVf (l.drop 8)).filter fun r => r.1.frames.all fun f => decide (nth f.1 2 ≤ 26) with
          | none => s.endCommand block slot 3 0
          | some (i, lost) => (s.arriveVf c.vf i lost).endCommand block slot 0 0)

end Sys2Proof.Machine
end

