-- ==== Sys2Proof/Machine/Dispatch.lean ====
section
/-! DEFINITION. The meaning of each instruction word and each step: one arm per constructor of Instr. -/

namespace Sys2Proof.Machine

def exec (i : Instr) (s : State) : Host.Outcome State Fault Refusal :=
  match i with
  | .zeroWordTrap m x => Sys2Proof.Machine.execZeroWordTrap m x s
  | .nop m => Sys2Proof.Machine.execNop m s
  | .exit m => Sys2Proof.Machine.execExit m s
  | .ret m => Sys2Proof.Machine.execRet m s
  | .yield m => Sys2Proof.Machine.execYield m s
  | .modeg m a => Sys2Proof.Machine.execModeg m a s
  | .moder m d => Sys2Proof.Machine.execModer m d s
  | .exms m a => Sys2Proof.Machine.execExms m a s
  | .exmg m d => Sys2Proof.Machine.execExmg m d s
  | .exma m a => Sys2Proof.Machine.execExma m a s
  | .psw m a => Sys2Proof.Machine.execPsw m a s
  | .pswi m p => Sys2Proof.Machine.execPswi m p s
  | .plq m d p => Sys2Proof.Machine.execPlq m d p s
  | .ji m a => Sys2Proof.Machine.execJi m a s
  | .calli m f a => Sys2Proof.Machine.execCalli m f a s
  | .laneid m d => Sys2Proof.Machine.execLaneid m d s
  | .ids m d sf => Sys2Proof.Machine.execIds m d sf s
  | .br m g o => Sys2Proof.Machine.execBr m g o s
  | .brn m g o => Sys2Proof.Machine.execBrn m g o s
  | .jmp m o => Sys2Proof.Machine.execJmp m o s
  | .call m f o => Sys2Proof.Machine.execCall m f o s
  | .brz m k o => Sys2Proof.Machine.execBrz m k o s
  | .brnz m k o => Sys2Proof.Machine.execBrnz m k o s
  | .mode m g n t r sf p e => Sys2Proof.Machine.execMode m g n t r sf p e s
  | .add m d a b => Sys2Proof.Machine.execAdd m d a b s
  | .sub m d a b => Sys2Proof.Machine.execSub m d a b s
  | .mul m d a b => Sys2Proof.Machine.execMul m d a b s
  | .mulh m d a b => Sys2Proof.Machine.execMulh m d a b s
  | .min m d a b => Sys2Proof.Machine.execMin m d a b s
  | .max m d a b => Sys2Proof.Machine.execMax m d a b s
  | .abs m d a => Sys2Proof.Machine.execAbs m d a s
  | .neg m d a => Sys2Proof.Machine.execNeg m d a s
  | .div m d a b => Sys2Proof.Machine.execDiv m d a b s
  | .rem m d a b => Sys2Proof.Machine.execRem m d a b s
  | .and m d a b => Sys2Proof.Machine.execAnd m d a b s
  | .or m d a b => Sys2Proof.Machine.execOr m d a b s
  | .xor m d a b => Sys2Proof.Machine.execXor m d a b s
  | .andn m d a b => Sys2Proof.Machine.execAndn m d a b s
  | .not m d a => Sys2Proof.Machine.execNot m d a s
  | .shl m d a b => Sys2Proof.Machine.execShl m d a b s
  | .shr m d a b => Sys2Proof.Machine.execShr m d a b s
  | .sar m d a b => Sys2Proof.Machine.execSar m d a b s
  | .rotl m d a b => Sys2Proof.Machine.execRotl m d a b s
  | .clz m d a => Sys2Proof.Machine.execClz m d a s
  | .popc m d a => Sys2Proof.Machine.execPopc m d a s
  | .brev m d a => Sys2Proof.Machine.execBrev m d a s
  | .bfx m d a b => Sys2Proof.Machine.execBfx m d a b s
  | .bfi m d a b => Sys2Proof.Machine.execBfi m d a b s
  | .mov m d a => Sys2Proof.Machine.execMov m d a s
  | .addi m d a imm => Sys2Proof.Machine.execAddi m d a imm s
  | .andi m d a imm => Sys2Proof.Machine.execAndi m d a imm s
  | .ori m d a imm => Sys2Proof.Machine.execOri m d a imm s
  | .xori m d a imm => Sys2Proof.Machine.execXori m d a imm s
  | .shi m d a k n => Sys2Proof.Machine.execShi m d a k n s
  | .movi m d imm => Sys2Proof.Machine.execMovi m d imm s
  | .movhi m d imm => Sys2Proof.Machine.execMovhi m d imm s
  | .mad m d a b c => Sys2Proof.Machine.execMad m d a b c s
  | .madn m d a b c => Sys2Proof.Machine.execMadn m d a b c s
  | .frcp m d a => Sys2Proof.Machine.execFrcp m d a s
  | .frsq m d a => Sys2Proof.Machine.execFrsq m d a s
  | .fsqrt m d a => Sys2Proof.Machine.execFsqrt m d a s
  | .fex2 m d a => Sys2Proof.Machine.execFex2 m d a s
  | .flg2 m d a => Sys2Proof.Machine.execFlg2 m d a s
  | .fsint m d a => Sys2Proof.Machine.execFsint m d a s
  | .fcost m d a => Sys2Proof.Machine.execFcost m d a s
  | .fclass m d a => Sys2Proof.Machine.execFclass m d a s
  | .round m d a => Sys2Proof.Machine.execRound m d a s
  | .fldexp m d a b => Sys2Proof.Machine.execFldexp m d a b s
  | .packe m d a => Sys2Proof.Machine.execPacke m d a s
  | .unpke m d a => Sys2Proof.Machine.execUnpke m d a s
  | .fflgr m d => Sys2Proof.Machine.execFflgr m d s
  | .fflgc m k => Sys2Proof.Machine.execFflgc m k s
  | .cvt m d a b sf t => Sys2Proof.Machine.execCvt m d a b sf t s
  | .shfli m d a b => Sys2Proof.Machine.execShfli m d a b s
  | .shflu m d a n => Sys2Proof.Machine.execShflu m d a n s
  | .shfld m d a n => Sys2Proof.Machine.execShfld m d a n s
  | .shflx m d a n => Sys2Proof.Machine.execShflx m d a n s
  | .bcast m d a => Sys2Proof.Machine.execBcast m d a s
  | .rdln m d a n => Sys2Proof.Machine.execRdln m d a n s
  | .first m d a => Sys2Proof.Machine.execFirst m d a s
  | .pand m d a b => Sys2Proof.Machine.execPand m d a b s
  | .por m d a b => Sys2Proof.Machine.execPor m d a b s
  | .pxor m d a b => Sys2Proof.Machine.execPxor m d a b s
  | .pandn m d a b => Sys2Proof.Machine.execPandn m d a b s
  | .pnot m d a => Sys2Proof.Machine.execPnot m d a s
  | .pmov m d a => Sys2Proof.Machine.execPmov m d a s
  | .pseta m d => Sys2Proof.Machine.execPseta m d s
  | .pclr m d => Sys2Proof.Machine.execPclr m d s
  | .ballot m d a => Sys2Proof.Machine.execBallot m d a s
  | .popck m d a => Sys2Proof.Machine.execPopck m d a s
  | .vany m d a => Sys2Proof.Machine.execVany m d a s
  | .vall m d a => Sys2Proof.Machine.execVall m d a s
  | .kfromg m d a => Sys2Proof.Machine.execKfromg m d a s
  | .gkand m d a b => Sys2Proof.Machine.execGkand m d a b s
  | .gkor m d a b => Sys2Proof.Machine.execGkor m d a b s
  | .gknot m d a => Sys2Proof.Machine.execGknot m d a s
  | .cmp m d a b c => Sys2Proof.Machine.execCmp m d a b c s
  | .cmpi m d a c imm => Sys2Proof.Machine.execCmpi m d a c imm s
  | .sel m d a b c => Sys2Proof.Machine.execSel m d a b c s
  | .gadd m d a b => Sys2Proof.Machine.execGadd m d a b s
  | .gsub m d a b => Sys2Proof.Machine.execGsub m d a b s
  | .gmul m d a b => Sys2Proof.Machine.execGmul m d a b s
  | .gmulhu m d a b => Sys2Proof.Machine.execGmulhu m d a b s
  | .gand m d a b => Sys2Proof.Machine.execGand m d a b s
  | .gor m d a b => Sys2Proof.Machine.execGor m d a b s
  | .gxor m d a b => Sys2Proof.Machine.execGxor m d a b s
  | .gandn m d a b => Sys2Proof.Machine.execGandn m d a b s
  | .gshl m d a b => Sys2Proof.Machine.execGshl m d a b s
  | .gshr m d a b => Sys2Proof.Machine.execGshr m d a b s
  | .gsar m d a b => Sys2Proof.Machine.execGsar m d a b s
  | .gmin m d a b => Sys2Proof.Machine.execGmin m d a b s
  | .gmax m d a b => Sys2Proof.Machine.execGmax m d a b s
  | .gminu m d a b => Sys2Proof.Machine.execGminu m d a b s
  | .gmaxu m d a b => Sys2Proof.Machine.execGmaxu m d a b s
  | .gpopc m d a => Sys2Proof.Machine.execGpopc m d a s
  | .gclz m d a => Sys2Proof.Machine.execGclz m d a s
  | .gmov m d a => Sys2Proof.Machine.execGmov m d a s
  | .gdivu m d a b => Sys2Proof.Machine.execGdivu m d a b s
  | .gremu m d a b => Sys2Proof.Machine.execGremu m d a b s
  | .gaddi m d a imm => Sys2Proof.Machine.execGaddi m d a imm s
  | .gmovi m d imm => Sys2Proof.Machine.execGmovi m d imm s
  | .gmovhi m d imm => Sys2Proof.Machine.execGmovhi m d imm s
  | .gori m d a imm => Sys2Proof.Machine.execGori m d a imm s
  | .gshi m d a k n => Sys2Proof.Machine.execGshi m d a k n s
  | .gcmp m d a b c => Sys2Proof.Machine.execGcmp m d a b c s
  | .dbnz m g o => Sys2Proof.Machine.execDbnz m g o s
  | .ld m d a b h o x z f => Sys2Proof.Machine.execLd m d a b h o x z f s
  | .st m d a b h o z f => Sys2Proof.Machine.execSt m d a b h o z f s
  | .gld m d a imm => Sys2Proof.Machine.execGld m d a imm s
  | .gst m d a imm => Sys2Proof.Machine.execGst m d a imm s
  | .sld m d a b z x => Sys2Proof.Machine.execSld m d a b z x s
  | .sst m d a b z => Sys2Proof.Machine.execSst m d a b z s
  | .qld m d a b z x => Sys2Proof.Machine.execQld m d a b z x s
  | .qst m d a b z => Sys2Proof.Machine.execQst m d a b z s
  | .atom m d a b p o => Sys2Proof.Machine.execAtom m d a b p o s
  | .atomn m d a b p o => Sys2Proof.Machine.execAtomn m d a b p o s
  | .afadd m d a b => Sys2Proof.Machine.execAfadd m d a b s
  | .afxrd m d a b => Sys2Proof.Machine.execAfxrd m d a b s
  | .afxclr m d a b => Sys2Proof.Machine.execAfxclr m d a b s
  | .afxflg m d a b => Sys2Proof.Machine.execAfxflg m d a b s
  | .pgreq m d a b => Sys2Proof.Machine.execPgreq m d a b s
  | .resq m d a b => Sys2Proof.Machine.execResq m d a b s
  | .pfetch m a b => Sys2Proof.Machine.execPfetch m a b s
  | .dcopy m a => Sys2Proof.Machine.execDcopy m a s
  | .dcopyt m a => Sys2Proof.Machine.execDcopyt m a s
  | .dcvt m a => Sys2Proof.Machine.execDcvt m a s
  | .dgath m a => Sys2Proof.Machine.execDgath m a s
  | .dscat m a => Sys2Proof.Machine.execDscat m a s
  | .dfill m a => Sys2Proof.Machine.execDfill m a s
  | .dwait m a b => Sys2Proof.Machine.execDwait m a b s
  | .dpoll m d a => Sys2Proof.Machine.execDpoll m d a s
  | .publish m a => Sys2Proof.Machine.execPublish m a s
  | .ppin m a b => Sys2Proof.Machine.execPpin m a b s
  | .punpin m a b => Sys2Proof.Machine.execPunpin m a b s
  | .mcfg m a => Sys2Proof.Machine.execMcfg m a s
  | .malloc m d a => Sys2Proof.Machine.execMalloc m d a s
  | .mfree m a b => Sys2Proof.Machine.execMfree m a b s
  | .mldw m a => Sys2Proof.Machine.execMldw m a s
  | .mldwt m a => Sys2Proof.Machine.execMldwt m a s
  | .mswap m => Sys2Proof.Machine.execMswap m s
  | .mstream m a b => Sys2Proof.Machine.execMstream m a b s
  | .mstra m a b => Sys2Proof.Machine.execMstra m a b s
  | .mgather m d a b => Sys2Proof.Machine.execMgather m d a b s
  | .mrda m d a => Sys2Proof.Machine.execMrda m d a s
  | .mwra m d a => Sys2Proof.Machine.execMwra m d a s
  | .mzero m a b => Sys2Proof.Machine.execMzero m a b s
  | .gang m a => Sys2Proof.Machine.execGang m a s
  | .mtok m a => Sys2Proof.Machine.execMtok m a s
  | .mwait m => Sys2Proof.Machine.execMwait m s
  | .view m d a => Sys2Proof.Machine.execView m d a s
  | .viewl m d a b => Sys2Proof.Machine.execViewl m d a b s
  | .vwait m d a => Sys2Proof.Machine.execVwait m d a s
  | .vpoll m d a => Sys2Proof.Machine.execVpoll m d a s
  | .vout m a w => Sys2Proof.Machine.execVout m a w s
  | .vhit m d sf => Sys2Proof.Machine.execVhit m d sf s
  | .vlvl m d l => Sys2Proof.Machine.execVlvl m d l s
  | .phase m sf => Sys2Proof.Machine.execPhase m sf s
  | .publ m sf => Sys2Proof.Machine.execPubl m sf s
  | .refr m sf => Sys2Proof.Machine.execRefr m sf s
  | .ifence m => Sys2Proof.Machine.execIfence m s
  | .hflush m => Sys2Proof.Machine.execHflush m s
  | .hinv m => Sys2Proof.Machine.execHinv m s
  | .evwait m a => Sys2Proof.Machine.execEvwait m a s
  | .bar m sf => Sys2Proof.Machine.execBar m sf s
  | .bara m sf => Sys2Proof.Machine.execBara m sf s
  | .barw m sf => Sys2Proof.Machine.execBarw m sf s
  | .tspawn m a => Sys2Proof.Machine.execTspawn m a s
  | .tdone m => Sys2Proof.Machine.execTdone m s
  | .tspec m a => Sys2Proof.Machine.execTspec m a s
  | .tcommit m a => Sys2Proof.Machine.execTcommit m a s
  | .tdiscard m a => Sys2Proof.Machine.execTdiscard m a s
  | .sysc m a => Sys2Proof.Machine.execSysc m a s
  | .hvc m a => Sys2Proof.Machine.execHvc m a s
  | .tret m => Sys2Proof.Machine.execTret m s
  | .bkpt m n => Sys2Proof.Machine.execBkpt m n s
  | .phint m a b => Sys2Proof.Machine.execPhint m a b s
  | .sleep m a => Sys2Proof.Machine.execSleep m a s
  | .tlbi m a b => Sys2Proof.Machine.execTlbi m a b s
  | .srr m d imm => Sys2Proof.Machine.execSrr m d imm s
  | .srw m imm b => Sys2Proof.Machine.execSrw m imm b s
  | .srrl m d imm => Sys2Proof.Machine.execSrrl m d imm s
  | .srwl m imm b => Sys2Proof.Machine.execSrwl m imm b s
  | .fetchFault => Sys2Proof.Machine.execFetchFault s
  | .illegalEncoding word => Sys2Proof.Machine.execIllegalEncoding word s
  | .runLimit => Sys2Proof.Machine.execRunLimit s
  | .parkEnd => Sys2Proof.Machine.execParkEnd s
  | .coachSelect core port => Sys2Proof.Machine.execCoachSelect core port s
  | .trapEntry coach => Sys2Proof.Machine.execTrapEntry coach s
  | .writeBufferAdvance coach entry => Sys2Proof.Machine.execWriteBufferAdvance coach entry s
  | .snapshotFill coach addr => Sys2Proof.Machine.execSnapshotFill coach addr s
  | .coachRetire coach => Sys2Proof.Machine.execCoachRetire coach s
  | .haulRetire haul => Sys2Proof.Machine.execHaulRetire haul s
  | .barrierGenerationComplete coach scope => Sys2Proof.Machine.execBarrierGenerationComplete coach scope s
  | .mallocGrant core => Sys2Proof.Machine.execMallocGrant core s
  | .bankRelease core bank => Sys2Proof.Machine.execBankRelease core bank s
  | .gangRendezvous core => Sys2Proof.Machine.execGangRendezvous core s
  | .tokenGrant core => Sys2Proof.Machine.execTokenGrant core s
  | .arrayOperationComplete core => Sys2Proof.Machine.execArrayOperationComplete core s
  | .drayEnqueue quad chan => Sys2Proof.Machine.execDrayEnqueue quad chan s
  | .drayCommandStart quad chan => Sys2Proof.Machine.execDrayCommandStart quad chan s
  | .drayComplete quad chan => Sys2Proof.Machine.execDrayComplete quad chan s
  | .dwaitRelease coach => Sys2Proof.Machine.execDwaitRelease coach s
  | .evwaitRelease coach => Sys2Proof.Machine.execEvwaitRelease coach s
  | .sleepWake coach => Sys2Proof.Machine.execSleepWake coach s
  | .eventRecordPost quad => Sys2Proof.Machine.execEventRecordPost quad s
  | .eventQueueRead quad => Sys2Proof.Machine.execEventQueueRead quad s
  | .viewRequestStart quad lift => Sys2Proof.Machine.execViewRequestStart quad lift s
  | .viewTraversalEnd request => Sys2Proof.Machine.execViewTraversalEnd request s
  | .shadingLaunch request shadingSlot coachSlot => Sys2Proof.Machine.execShadingLaunch request shadingSlot coachSlot s
  | .ticketCommit coach => Sys2Proof.Machine.execTicketCommit coach s
  | .pageRequestPost vf asid => Sys2Proof.Machine.execPageRequestPost vf asid s
  | .pageRequestCompletion vf asid => Sys2Proof.Machine.execPageRequestCompletion vf asid s
  | .rakePlace haul rake quad rot slots => Sys2Proof.Machine.execRakePlace haul rake quad rot slots s
  | .timeSlice quad => Sys2Proof.Machine.execTimeSlice quad s
  | .swapInPromote haul rake => Sys2Proof.Machine.execSwapInPromote haul rake s
  | .quadHaulChange quad => Sys2Proof.Machine.execQuadHaulChange quad s
  | .taskDispatch vf => Sys2Proof.Machine.execTaskDispatch vf s
  | .quadIdle quad => Sys2Proof.Machine.execQuadIdle quad s
  | .quadGate quad => Sys2Proof.Machine.execQuadGate quad s
  | .quadWake quad => Sys2Proof.Machine.execQuadWake quad s
  | .watchdogExpiry haul => Sys2Proof.Machine.execWatchdogExpiry haul s
  | .preemptionRequest haul rake => Sys2Proof.Machine.execPreemptionRequest haul rake s
  | .preemptionDeadline haul rake => Sys2Proof.Machine.execPreemptionDeadline haul rake s
  | .rakeSave haul rake => Sys2Proof.Machine.execRakeSave haul rake s
  | .vfSliceSwitch quad => Sys2Proof.Machine.execVfSliceSwitch quad s
  | .clockChange quad mhz => Sys2Proof.Machine.execClockChange quad mhz s
  | .clockStable quad => Sys2Proof.Machine.execClockStable quad s
  | .ricWrite core cadence => Sys2Proof.Machine.execRicWrite core cadence s
  | .powerLimitCrossed mhz => Sys2Proof.Machine.execPowerLimitCrossed mhz s
  | .bandGate core band => Sys2Proof.Machine.execBandGate core band s
  | .bandWake core band => Sys2Proof.Machine.execBandWake core band s
  | .flitRetry die unit index => Sys2Proof.Machine.execFlitRetry die unit index s
  | .linkRetrain die unit index ok => Sys2Proof.Machine.execLinkRetrain die unit index ok s
  | .uncorrectableError die unit index addr => Sys2Proof.Machine.execUncorrectableError die unit index addr s
  | .scrub die unit index addr correctable => Sys2Proof.Machine.execScrub die unit index addr correctable s
  | .functionLevelReset vf => Sys2Proof.Machine.execFunctionLevelReset vf s
  | .tdispLockInterface vf sessionKey => Sys2Proof.Machine.execTdispLockInterface vf sessionKey s
  | .interfaceError vf => Sys2Proof.Machine.execInterfaceError vf s
  | .stubAppend vf addr op => Sys2Proof.Machine.execStubAppend vf addr op s
  | .ingressAccess port addr op => Sys2Proof.Machine.execIngressAccess port addr op s
  | .kick vf word pasid => Sys2Proof.Machine.execKick vf word pasid s
  | .kickRewalk vf entry => Sys2Proof.Machine.execKickRewalk vf entry s
  | .pendingKickTake die word => Sys2Proof.Machine.execPendingKickTake die word s
  | .packetFetch queue => Sys2Proof.Machine.execPacketFetch queue s
  | .nopPacket queue index => Sys2Proof.Machine.execNopPacket queue index s
  | .launchPacket queue index => Sys2Proof.Machine.execLaunchPacket queue index s
  | .signalPacket queue index => Sys2Proof.Machine.execSignalPacket queue index s
  | .waitPacket queue index => Sys2Proof.Machine.execWaitPacket queue index s
  | .waitPoll queue index => Sys2Proof.Machine.execWaitPoll queue index s
  | .waitTimeout queue index => Sys2Proof.Machine.execWaitTimeout queue index s
  | .fencePacket queue index => Sys2Proof.Machine.execFencePacket queue index s
  | .markerPacket queue index => Sys2Proof.Machine.execMarkerPacket queue index s
  | .dcopyPacket queue index => Sys2Proof.Machine.execDcopyPacket queue index s
  | .leaseRenew => Sys2Proof.Machine.execLeaseRenew s
  | .leaseTakeover die => Sys2Proof.Machine.execLeaseTakeover die s
  | .leaseFallback die => Sys2Proof.Machine.execLeaseFallback die s
  | .firmwareLoad level verified => Sys2Proof.Machine.execFirmwareLoad level verified s
  | .destroyq block slot => Sys2Proof.Machine.execDestroyq block slot s
  | .abort block slot => Sys2Proof.Machine.execAbort block slot s
  | .save block slot => Sys2Proof.Machine.execSave block slot s
  | .migout block slot => Sys2Proof.Machine.execMigout block slot s
  | .migin block slot => Sys2Proof.Machine.execMigin block slot s
  | .stubret block slot => Sys2Proof.Machine.execStubret block slot s
  | .pgmig block slot => Sys2Proof.Machine.execPgmig block slot s
  | .pageMigrationRound migration => Sys2Proof.Machine.execPageMigrationRound migration s
  | .pageMigrationFreeze migration => Sys2Proof.Machine.execPageMigrationFreeze migration s
  | .pstable block slot => Sys2Proof.Machine.execPstable block slot s
  | .psreg block slot => Sys2Proof.Machine.execPsreg block slot s
  | .prring block slot => Sys2Proof.Machine.execPrring block slot s
  | .errcnt block slot => Sys2Proof.Machine.execErrcnt block slot s
  | .compat block slot => Sys2Proof.Machine.execCompat block slot s
  | .mailboxCompletion block slot => Sys2Proof.Machine.execMailboxCompletion block slot s
  | .mailboxDoorbell block value => Sys2Proof.Machine.execMailboxDoorbell block value s
  | .gatingComplete quad => Sys2Proof.Machine.execGatingComplete quad s
  | .wakeChainEnd => Sys2Proof.Machine.execWakeChainEnd s
  | .dcopyPacketComplete queue index => Sys2Proof.Machine.execDcopyPacketComplete queue index s
  | .deviceReset => Sys2Proof.Machine.execDeviceReset s

end Sys2Proof.Machine
end

