-- ==== Sys2Proof/Machine/Step.lean ====
section
/-! DEFINITION. One step of the device, and placing an instruction for the next step to fetch. -/

namespace Sys2Proof.Machine

/-- One step. The head of the schedule moves first: a step of the device or its surroundings, another coach coming into
focus, or the end of the leader's controller. With nothing scheduled the coach in focus moves: its word issues, its park ends,
its port chooses, or the event it waits for is tried (log 1). -/
def step (s : State) : Host.Outcome State Fault Refusal :=
  match s.schedule with
  | .event i :: rest =>
    let s := State.tick { s with schedule := rest }
    if Instr.isWord i then .next s else exec i s
  | .stop :: rest => .next (State.stopLeader (State.tick { s with schedule := rest }))
  | .coach id :: rest => .next (State.focus (State.tick { s with schedule := rest }) id)
  | [] =>
    match s.tick.auto with
    | (some i, s) => exec i s
    | (none, s) => .next s

/-- The state in which the very next step fetches and runs the instruction of these bits: the schedule is empty, and the
coach in focus (a fresh one when none is) is about to fetch them from the host window (log 1). -/
def State.withFetchWord (s : State) (nbits w : Nat) : State :=
  (State.ensureCoach { s with schedule := [] }).pointAt (leBytes 4 (if nbits < 32 then w % 2 ^ nbits else w))

end Sys2Proof.Machine
end

