-- ==== Sys2Proof/Safety.lean ====
section
/-! DEFINITION. What claims about the device are stated in: how much of a state an instruction leaves as it was, what a
safe run is, and the invariants. Each relation says what changes from s to r, and that nothing else does. -/

namespace Sys2Proof.Machine

/-! ### What an instruction changes -/

/-- The register words of a coach that hold an uncorrectable error once the lanes of a mask of a physical register have been
written: those words hold none (R381). -/
def Coach.badWithout (c : Coach) (p : Nat) (m : LaneMask) : List (Nat × Nat) :=
  c.regs.bad.filter fun q => !(q.1 == p && m.getLsbD q.2)

/-- From s to r the lanes of ACTIVE(p) of the physical register that v(d) names take the values f gives and hold no
uncorrectable error any more, and nothing else changes: no other register or lane, no flag, no memory (R99, R137, R381). -/
def WritesVec (s r : State) (d : BitVec 6) (f : Nat → Word) : Prop :=
  r = { s with co := { s.co with regs := { s.co.regs with
    v := r.co.regs.v, bad := s.co.badWithout (s.co.phys d.toNat) s.co.active } } } ∧
  ∀ q l, q < 256 → l < 32 → vget (vget r.co.regs.v q) l =
    if q = s.co.phys d.toNat % 256 ∧ s.co.active.getLsbD l = true then f l else vget (vget s.co.regs.v q) l

/-- The same with sticky flags: FFLAGS gathers what f gives for the lanes of ACTIVE(p) and keeps what it held (R170). -/
def WritesVecF (s r : State) (d : BitVec 6) (f : Nat → Word × BitVec 5) : Prop :=
  r = { s with co := { s.co with
    regs := { s.co.regs with v := r.co.regs.v, bad := s.co.badWithout (s.co.phys d.toNat) s.co.active }
    special := { s.co.special with fflags := r.co.special.fflags } } } ∧
  (∀ q l, q < 256 → l < 32 → vget (vget r.co.regs.v q) l =
    if q = s.co.phys d.toNat % 256 ∧ s.co.active.getLsbD l = true then (f l).1 else vget (vget s.co.regs.v q) l) ∧
  ∀ b, r.co.special.fflags.getLsbD b =
    (s.co.special.fflags.getLsbD b || (lanesOf s.co.active).any fun l => (f l).2.getLsbD b)

/-- From s to r group register d takes x and nothing else changes; a write to g0 changes nothing (R93). -/
def WritesG (s r : State) (d : BitVec 6) (x : Dword) : Prop :=
  r = { s with co := { s.co with regs := { s.co.regs with g := r.co.regs.g } } } ∧
  ∀ j, r.co.greg j = if j = d ∧ d ≠ 0 then x else s.co.greg j

/-- From s to r predicate d takes x in the lanes of ACTIVE(p) and nothing else changes; a write to k0 changes nothing
(R93, R99). -/
def WritesK (s r : State) (d : BitVec 5) (x : LaneMask) : Prop :=
  r = { s with co := { s.co with regs := { s.co.regs with k := r.co.regs.k } } } ∧
  ∀ j l, (r.co.kreg j).getLsbD l =
    if j = d ∧ d ≠ 0 ∧ s.co.active.getLsbD l = true then x.getLsbD l else (s.co.kreg j).getLsbD l

/-- The same with sticky flags gathered over the lanes of ACTIVE(p). -/
def WritesKF (s r : State) (d : BitVec 5) (x : LaneMask) (f : Nat → BitVec 5) : Prop :=
  r = { s with co := { s.co with
    regs := { s.co.regs with k := r.co.regs.k }
    special := { s.co.special with fflags := r.co.special.fflags } } } ∧
  (∀ j l, (r.co.kreg j).getLsbD l =
    if j = d ∧ d ≠ 0 ∧ s.co.active.getLsbD l = true then x.getLsbD l else (s.co.kreg j).getLsbD l) ∧
  ∀ b, r.co.special.fflags.getLsbD b =
    (s.co.special.fflags.getLsbD b || (lanesOf s.co.active).any fun l => (f l).getLsbD b)

/-- From s to r group predicate d takes x and nothing else changes; a write to gk0 changes nothing (R93). -/
def WritesGk (s r : State) (d : BitVec 4) (x : Bool) : Prop :=
  r = { s with co := { s.co with regs := { s.co.regs with gk := r.co.regs.gk } } } ∧
  ∀ j, r.co.gkreg j = if j = d ∧ d ≠ 0 then x else s.co.gkreg j

/-- From s to r these results are deferred to the park, in this order after those deferred already, and nothing else
changes: the destinations still hold their old values (R115, R116). -/
def Defers (s r : State) (l : List Deferred) : Prop :=
  r = { s with co := { s.co with issue := { s.co.issue with deferred := s.co.issue.deferred ++ l } } }

/-- The cause recorded for a lane at this offset. -/
def Coach.causeOf (c : Coach) (l : Nat) : Option Cause := (c.issue.traps.find? fun p => p.1 == l).map (·.2)

/-- From s to r the cause k is recorded for the lanes of m that hold none yet; with no lane in m, for the offset; nothing
else changes, and no result is written (R106). -/
def Records (s r : State) (m : LaneMask) (k : Cause) : Prop :=
  r = { s with co := { s.co with issue := { s.co.issue with traps := r.co.issue.traps, bare := r.co.issue.bare } } } ∧
  (∀ l, r.co.causeOf l = (s.co.causeOf l).or (if m.getLsbD l then some k else none)) ∧
  r.co.issue.bare = if m = 0 then some (s.co.issue.bare.getD k) else s.co.issue.bare

/-- A chain of lane steps: each of the lanes in turn takes the state a step further as P says (R7, R198). -/
def Chain (P : State → Nat → State → Prop) : List Nat → State → State → Prop
  | [], s, r => r = s
  | l :: ls, s, r => ∃ u, P s l u ∧ Chain P ls u r

/-- From s to r the coach jumps: NEXT is the target, and nothing else changes (R113, R121). -/
def Jumps (s r : State) (t : Int) : Prop := r = { s with co := { s.co with issue := { s.co.issue with next := t } } }

/-- From s to r the run ends after this offset with this wait, and nothing else changes (R112). -/
def EndsRun (s r : State) (w : Wait) : Prop :=
  r = { s with co := { s.co with issue := { s.co.issue with ends := true, wait := w } } }

/-- From s to r an instruction acts on the publish set that x names (R236): DRAYX for EXMSET where no set is registered
under x or ok refuses it; PROT where the port of the coach's quad does not reach the set's entry (R357, log 79); otherwise the set becomes f of it, the device-written fields of its entry in memory with it, and
neither another byte of memory nor the coach changes. -/
def OnSet (s r : State) (x : Dword) (ok : PSet → Bool) (f : PSet → PSet) : Prop :=
  let trap := Records s r s.co.masks.exm (causeWord cDrayx (x.truncate 32))
  if 65536 ≤ x.toNat then trap
  else match s.pset? s.ctx.vf x.toNat with
    | none => trap
    | some p =>
      if ok p = false then trap
      else if s.portSees s.ctx.port p.entry = false then Records s r s.co.masks.exm (causeAddr cProt p.entry)
      else r.co = s.co ∧ r.pset? s.ctx.vf x.toNat = some (f p) ∧
        r.rd (p.entry + 0x12) 14 = [BitVec.ofNat 8 (f p).cur, (f p).pinned.zeroExtend 8] ++
          leBytes 4 (f p).refused.toNat ++ leBytes 8 (f p).gen.toNat ∧
        ∀ a, a < p.entry + 0x12 ∨ p.entry + 0x20 ≤ a → Memory.get r.mem a = Memory.get s.mem a

/-- No partial mask and no split planes: EXM is LIVE, and the occupied planes, those of X in a re-execution, are one (R243,
R341). -/
def Coach.whole (c : Coach) : Prop :=
  c.masks.exm = c.masks.live ∧
  ∀ l ∈ lanesOf (c.masks.exm &&& c.limit), ∀ k ∈ lanesOf (c.masks.exm &&& c.limit), c.planeOf l = c.planeOf k

/-- From s to r core n becomes k and nothing else changes. -/
def SetsCore (s r : State) (n : Nat) (k : Core) : Prop :=
  r = { s with cores := r.cores } ∧ ∀ j, r.core j = if j = n then k else s.core j

/-- From s to r quad n becomes k and nothing else changes. -/
def SetsQuad (s r : State) (n : Nat) (k : Quad) : Prop :=
  r = { s with quads := r.quads } ∧ ∀ j, r.quad j = if j = n then k else s.quad j

/-- From s to r virtual function n becomes k and nothing else changes. -/
def SetsVf (s r : State) (n : Nat) (k : Vf) : Prop :=
  r = { s with vfs := r.vfs } ∧ ∀ j, r.vf j = if j = n then k else s.vf j

/-- From s to r the command in a slot of a block ends with a status and a value, and nothing else changes: it is not TAKEN any
more, and its completion is due (R47). -/
def EndsCommand (s r : State) (block slot status : Nat) (value : Dword) : Prop :=
  r = { s with commands := s.commands.map fun c =>
    if c.block = block ∧ c.slot = slot ∧ c.result = none then { c with result := some (status, value) } else c }

/-- From s to r each lane of m that holds no cause yet records its own, k of it, and nothing else changes (R106, R345). -/
def RecordsEach (s r : State) (m : LaneMask) (k : Nat → Cause) : Prop :=
  r = { s with co := { s.co with issue := { s.co.issue with traps := r.co.issue.traps } } } ∧
  ∀ l, r.co.causeOf l = (s.co.causeOf l).or (if m.getLsbD l then some (k l) else none)

/-- The coach, not stopped, is about to issue the last word of its offset, with nothing recorded, deferred or pending at it, and its quad's
clock is stable: a trap or a return at this word is taken at once. -/
def State.lastWord (s : State) : Prop :=
  let c := s.co
  c.issue.todo = [] ∧ c.issue.traps = [] ∧ c.issue.bare = none ∧ c.issue.deferred = [] ∧ c.issue.spill = [] ∧
  c.issue.refill = [] ∧ c.issue.newAsid = none ∧ c.issue.newRoot = none ∧ c.issue.newS2 = [] ∧ c.traps.ecc = [] ∧
  c.traps.eccBare = none ∧ c.issue.bad = [] ∧ c.issue.phase ≠ .halted ∧
  (s.quad (c.ident.core / 4)).changing = false

/-! ### Safe runs and invariants -/

/-- The memory keeps its canonical form: addresses strictly rising, no entry equal to what an unlisted address reads
as. -/
def State.memOk (s : State) : Prop := Memory.wf s.mem = true

/-- A safe run of n steps: it comes to a state, with no fault and no refusal on the way. -/
def SafeRun (n : Nat) (s : State) : Prop :=
  match n with
  | 0 => True
  | n + 1 => ∃ t, step s = .next t ∧ SafeRun n t

/-! ### The real numbers of a view (R401) -/

/-- The real number that a number of level n stands for, w j being the square root of the radicand of level j + 1. -/
def Surd.val (w : Nat → ℝ) : (n : Nat) → Surd n → ℝ
  | 0, x => ((show Rat from x) : ℝ)
  | n + 1, x => Surd.val w n x.1 + Surd.val w n x.2 * w n

/-- w holds the square roots of the radicands. -/
def Roots.RootsAre (r : Roots) (w : Nat → ℝ) : Prop := ∀ n, 0 ≤ w n ∧ w n * w n = (r.at n : ℝ)

/-- A vector of a view's numbers in the reals. -/
def XVec.real (w : Nat → ℝ) (v : XVec) : Vec3 ℝ := Vec3.map (fun x : Real3 => Surd.val w 3 x) v
/-- A vector of rationals in the reals. -/
def RVec.real (v : RVec) : Vec3 ℝ := Vec3.map (fun x : Rat => (x : ℝ)) v
/-- Sum. -/
def Vec3.plus (v w : Vec3 ℝ) : Vec3 ℝ := Vec3.zip (fun x y : ℝ => x + y) v w
/-- Multiple. -/
def Vec3.times (v : Vec3 ℝ) (c : ℝ) : Vec3 ℝ := Vec3.map (fun x : ℝ => x * c) v
/-- Dot product. -/
def Vec3.dot (v w : Vec3 ℝ) : ℝ := v.x * w.x + v.y * w.y + v.z * w.z
/-- The square of the length. -/
def Vec3.sq (v : Vec3 ℝ) : ℝ := v.dot v
/-- Cross product. -/
def Vec3.cross (v w : Vec3 ℝ) : Vec3 ℝ := ⟨v.y * w.z - v.z * w.y, v.z * w.x - v.x * w.z, v.x * w.y - v.y * w.x⟩

/-- Whether a distance lies in [NEAR, min(FAR, MAXD)] (R282). -/
def Span.holds (k : Span) (t : ℝ) : Prop := (k.near : ℝ) ≤ t ∧ ∀ f, k.far = some f → t ≤ (f : ℝ)

/-- Whether a bound lies at or below a number, as an extended real. -/
def Bound.atMost (b : Bound) (x : ℝ) : Prop :=
  match b with
  | .fin y => (y : ℝ) ≤ x
  | .inf neg => neg = true
/-- Whether a bound lies at or above a number, as an extended real. -/
def Bound.atLeast (b : Bound) (x : ℝ) : Prop :=
  match b with
  | .fin y => x ≤ (y : ℝ)
  | .inf neg => neg = false

end Sys2Proof.Machine
end

