-- ==== Sys2Proof/Certificates/Slice0/Obligations.lean ====
section
/-! DEFINITION. The statements for the provers: what the rules of spec/ say the words and the steps of the device do, and what
holds of the machine as a whole. Each docstring names the rules; an effect is that of exec, `finishWord` being what follows
every word (WordEnds). -/

section

open Sys2Proof Sys2Proof.Machine

/-! ### The machine as a whole -/

/-- R100, R105, R94: what a step runs. With nothing scheduled and the coach in focus at the start of an offset whose words
can be fetched and are aligned, the step is the effect of the instruction the lowest occupied plane's word decodes to, the
other planes' words due after it, or none of them when the word is coach-once; with the offset open it is that of the word
due; a word that does not decode is the trap of one. The word fetched is the four bytes at the home of BASE, plus the
plane's stride, plus four times OFF. A scheduled step of the device runs as itself; each step moves TIME, the focused core's
CYCLE and the free-value counter (log 1), and may put words as they stand now into the instruction caches of cores that have
fetched (log 4), and nothing else. -/
def Obligations.StepRunsDecoded : Prop :=  (∀ (s u : State) l p w i, s.schedule = [] → s.co.issue.phase = .issuing → s.co.issue.open_ = false → s.co.issue.count < 24 →
    (s.quad (s.co.ident.core / 4)).changing = false → s.tick.fetchOffset = (u, .ok l) → l.head? = some (p, w) →
    misaligned l = false → decode w = .ok i ∨ ((∃ e, decode w = .error e) ∧ i = .illegalEncoding w) →
    (∀ m, i = .mwait m → (u.core u.co.ident.core).queue = []) →
    ∃ r, step s = exec i r ∧ r = { u with co := { u.co with issue := { u.co.issue with
      open_ := true, plane := p, todo := if once l then [] else (l.map (·.1)).tail, words := r.co.issue.words
      bad := r.co.issue.bad, next := u.co.issue.off + 1 } } } ∧ (u.co.regs.bad = [] → r.co.issue.bad = []) ∧ ∀ q ∈ l, vget r.co.issue.words q.1.toNat = q.2) ∧
  (∀ (s : State) i, s.schedule = [] → s.co.issue.phase = .issuing → s.co.issue.open_ = true →
    (s.quad (s.co.ident.core / 4)).changing = false → decode (vget s.co.issue.words s.co.issue.plane.toNat) = .ok i →
    (∀ m, i = .mwait m → (s.core s.co.ident.core).queue = []) → step s = exec i s.tick) ∧
  (∀ (s t : State) p home leaf bits, s.translate s.ctx .fetch
      (s.co.segs.seg.base.toNat + p.toNat * s.co.segs.seg.stride + 4 * s.co.issue.off.toNat) = (t, .found home leaf bits) →
    (t.core t.co.ident.core).icache = [] → t.poisoned home 4 = false → t.hostCopy? home = none →
    ∃ w, (s.fetchWord p).2 = .ok w ∧ w = BitVec.ofNat 32 (t.rdNat home 4)) ∧
  (∀ (s : State) i rest, s.schedule = .event i :: rest → Instr.isWord i = false →
    step s = exec i (State.tick { s with schedule := rest })) ∧
  (∀ (s : State) n rest, s.schedule = .coach n :: rest →
    step s = .next ((State.tick { s with schedule := rest }).focus n)) ∧
  ∀ s : State, s.tick = { s with
      fresh := s.fresh + 1, cores := s.tick.cores, views := s.tick.views
      dev := { s.dev with time := s.tick.dev.time, journal := s.tick.dev.journal } } ∧
    ((s.quad (s.co.ident.core / 4)).changing = true →
      (s.tick.core s.co.ident.core).cycle = (s.core s.co.ident.core).cycle) ∧
    s.tick.views.length = s.views.length ∧
    (∀ (i : Nat) (v w : ViewReq), s.views[i]? = some v → s.tick.views[i]? = some w → ∃ l : List Nat,
      w = { v with seen := v.seen ++ l.map fun g =>
        (granule g, if s.poisoned (granule g) 4 then none else some (s.homeWord (granule g))) } ∧
      (v.traversed = true ∨ (s.quad v.quad).changing = true → w = v)) ∧
    (s.dev.leader = none → s.tick.dev.journal = s.dev.journal) ∧
    ∀ n, let k : Core := if (s.core n).warm = true then { s.core n with icache := (s.tick.core n).icache } else s.core n
      s.tick.core n = (if n = s.co.ident.core then { k with cycle := (s.tick.core n).cycle } else k) ∧
      ∀ e ∈ (s.tick.core n).icache, e ∈ (s.core n).icache ∨
        (e.2.2.1 = s.homeWord e.2.1 ∧ e.2.2.2 = s.fresh ∧ s.poisoned e.2.1 4 = false)

/-- Every run is safe: no instruction and no step of the device ends in a fault or a refusal, from any state. The spec gives
each of the 297 rows an effect, a trap included (R105, R106). -/
def Obligations.RunsAreSafe : Prop :=  (∀ i s, ∃ t, exec i s = .next t) ∧ ∀ n s, SafeRun n s

/-- R103 to R105: words and the instructions they stand for. The words of ADD, LD, BR, DBNZ, CMP and of `gadd g7, g7, g8` are
those that R146, R207, R133, R136, R154 and R162 print; that of `gadd g6, g7, g8` is laid out by R162; and the three refused are
words that the examples under R106 print, with the subcodes of R105. -/
def Obligations.DecodeWords : Prop :=  decode 0x1018_4080#32 = .ok (.add false 3 2 1) ∧ decode 0x4010_2204#32 = .ok (.ld false 2 1 4 0 0 0 2 0) ∧
  decode 0x0220_0003#32 = .ok (.br false 1 3) ∧ decode 0x3E3F_FFFF#32 = .ok (.dbnz false 7 0x7FFFF) ∧
  decode 0x2A10_2102#32 = .ok (.cmp false 2 1 2 2) ∧ decode 0x3030_E400#32 = .ok (.gadd false 6 7 8) ∧
  decode 0x3038_E400#32 = .ok (.gadd false 7 7 8) ∧
  decode 0x1000_000A#32 = .error .minor ∧ decode 0x5200_0000#32 = .error .major ∧ decode 0x0000_0081#32 = .error .field

/-- R91, R101 to R105: decoding and encoding agree, both ways. The word of every well-formed instruction decodes to it, with
every operand as given, and a word that decodes is the word of the well-formed instruction it decodes to: no two words mean
the same, and no bit is dropped. -/
def Obligations.RoundTrip : Prop :=  (∀ i w, i.wf = true → encode i = some w → decode w = .ok i) ∧
  ∀ w i, decode w = .ok i → i.wf = true ∧ encode i = some w

/-- The memory keeps its canonical form through every step, whatever runs: addresses strictly rising, no entry at the value an
unlisted address reads as (log 2), so that equal memories are equal data. -/
def Obligations.MemOkKept : Prop := ∀ s t : State, s.memOk → step s = .next t → t.memOk

/-- R107, R240, R264, R356, R357: the state after reset: every matrix row open, VF 0 with every quad and channel group and
enabled, the others with none, no controller serving, no kick pending; each core's cadence 1, its token free; a coach's mode
0x0FC0 in every plane and its ASR 0xF; and the memory in canonical form. That every byte reads 0 is log 2, and that queues,
banks, hauls and events are empty is log 3: the model's choices; VFSEL and CMXSEL are those of R356. -/
def Obligations.ResetHolds : Prop :=  let s := State.reset
  s.memOk ∧ (∀ p, p < 72 → vget s.dev.cmxrow p = BitVec.allOnes 64) ∧ s.dev.leader = none ∧ s.dev.vfsel = 0 ∧ s.dev.cmxsel = 0 ∧
  (∀ d, d < 4 → vget s.dev.kicks d = 0) ∧ (s.vf 0).en = true ∧ (s.vf 0).quads = BitVec.allOnes 64 ∧
  (s.vf 0).memp = BitVec.allOnes 64 ∧
  (∀ n, 0 < n → n < 32 → (s.vf n).en = false ∧ (s.vf n).quads = 0 ∧ (s.vf n).memp = 0) ∧
  (∀ n, (s.core n).ric = 1 ∧ (s.core n).token = 0 ∧ (s.core n).banks = [] ∧ (s.core n).queue = []) ∧
  (∀ q, (s.quad q).haul = none ∧ (s.quad q).events = []) ∧
  (∀ p, p < 4 → vget s.co.masks.modes p = 0x0000_0FC0#32) ∧ s.co.special.asr = 0xF ∧ s.co.special.fflags = 0 ∧
  ∀ a, Memory.get s.mem a = 0

/-- R107, R108, R328, R356, R357: what only H mode may change stays. No word issued in U or S mode changes HVEC, VFSEL, CMXSEL, a
matrix row, or a virtual function's quads, channel groups, queue quota, slice, control bits, second-stage root or key; and
none issued in U mode changes its own coach's SVEC, ASID or PTBASE. -/
def Obligations.PrivilegeHolds : Prop :=  ∀ i (s t : State), Instr.isWord i = true → s.co.traps.mode ≠ .h → s.co.issue.newS2 = [] → exec i s = .next t →
    (t.dev.hvec = s.dev.hvec ∧ t.dev.vfsel = s.dev.vfsel ∧ t.dev.cmxsel = s.dev.cmxsel ∧ t.dev.cmxrow = s.dev.cmxrow) ∧
    (∀ n, let x := s.vf n
      let y := t.vf n
      y.quads = x.quads ∧ y.memp = x.memp ∧ y.queues = x.queues ∧ y.slice = x.slice ∧ y.dpasid = x.dpasid ∧ y.lock = x.lock ∧
        y.flrb = x.flrb ∧ y.shr = x.shr ∧ y.en = x.en ∧ y.s2base = x.s2base ∧ y.key = x.key) ∧
    (s.co.traps.mode = .u → s.co.issue.newAsid = none → s.co.issue.newRoot = none → s.co.present = true →
      ((s.co :: s.coaches).map fun c => c.ident.id).Nodup → t.co.ident.id = s.co.ident.id →
      t.co.special.svec = s.co.special.svec ∧ t.co.special.asid = s.co.special.asid ∧
        t.co.special.ptbase = s.co.special.ptbase)

/-! ### Lane words -/

/-- R150, R153, R130, R158: the untyped lane words of two registers, of one register, and of immediates complete in every
state; each lane of ACTIVE(p) takes the value its row gives, from the register values before the word, and nothing else
changes.

R150, R151: CLZ, POPC, BREV, BFX and BFI complete in every state, and their results are those of the table: the count
of leading zeros (32 for 0), of set bits, the bits in reverse order, a field of x at y[4:0] of length y[13:8] cut at bit 32,
sign-extended when y[16] is set, and the old value with that field replaced by the low bits of x. -/
def Obligations.LaneBitResults : Prop :=
  (
  (∀ p ∈ ([(.and, fun x y => x &&& y), (.or, fun x y => x ||| y), (.xor, fun x y => x ^^^ y),
      (.andn, fun x y => x &&& ~~~y), (.shl, fun x y => x <<< (y.toNat % 32)), (.shr, fun x y => x >>> (y.toNat % 32)),
      (.sar, fun x y => x.sshiftRight (y.toNat % 32)), (.rotl, fun x y => x.rotateLeft (y.toNat % 32))] :
      List ((Bool → BitVec 6 → BitVec 6 → BitVec 6 → Instr) × (Word → Word → Word))),
    ∀ m d a b s, ∃ r : State, exec (p.1 m d a b) s = .next (r.finishWord m) ∧
      WritesVec s r d fun l => p.2 (s.co.vreg a.toNat l) (s.co.vreg b.toNat l)) ∧
  (∀ p ∈ ([(.not, fun x => ~~~x), (.mov, fun x => x)] :
      List ((Bool → BitVec 6 → BitVec 6 → Instr) × (Word → Word))),
    ∀ m d a s, ∃ r : State, exec (p.1 m d a) s = .next (r.finishWord m) ∧
      WritesVec s r d fun l => p.2 (s.co.vreg a.toNat l)) ∧
  (∀ p ∈ ([(.andi, fun x i => x &&& i.zeroExtend 32), (.ori, fun x i => x ||| i.zeroExtend 32),
      (.xori, fun x i => x ^^^ i.zeroExtend 32)] :
      List ((Bool → BitVec 6 → BitVec 6 → BitVec 13 → Instr) × (Word → BitVec 13 → Word))),
    ∀ m d a i s, ∃ r : State, exec (p.1 m d a i) s = .next (r.finishWord m) ∧
      WritesVec s r d fun l => p.2 (s.co.vreg a.toNat l) i) ∧
  (∀ m d a k n s, ∃ r : State, exec (.shi m d a k n) s = .next (r.finishWord m) ∧ WritesVec s r d fun l =>
    let x := s.co.vreg a.toNat l
    if k = 0 then x <<< n.toNat else if k = 1 then x >>> n.toNat
    else if k = 2 then x.sshiftRight n.toNat else x.rotateLeft n.toNat) ∧
  (∀ m d i s, ∃ r : State, exec (.movi m d i) s = .next (r.finishWord m) ∧ WritesVec s r d fun _ => i.signExtend 32) ∧
  (∀ m d i s, ∃ r : State, exec (.movhi m d i) s = .next (r.finishWord m) ∧
    WritesVec s r d fun _ => i.zeroExtend 32 <<< 13) ∧
  (∀ m d s, ∃ r : State, exec (.laneid m d) s = .next (r.finishWord m) ∧ WritesVec s r d fun l => BitVec.ofNat 32 l) ∧
  (∀ m d a s, ∃ r : State, exec (.bcast m d a) s = .next (r.finishWord m) ∧
    WritesVec s r d fun _ => (s.co.greg a).truncate 32) ∧
  (∀ m d a b c s, ∃ r : State, exec (.sel m d a b c) s = .next (r.finishWord m) ∧
    WritesVec s r d fun l => if (s.co.kreg c).getLsbD l then s.co.vreg a.toNat l else s.co.vreg b.toNat l)) ∧
  (
  (∀ m d a s, ∃ r f, exec (.clz m d a) s = .next (r.finishWord m) ∧ WritesVec s r d f ∧ ∀ l,
    let x := s.co.vreg a.toNat l
    (f l).toNat ≤ 32 ∧ (∀ i, i < (f l).toNat → x.getLsbD (31 - i) = false) ∧
      ((f l).toNat < 32 → x.getLsbD (31 - (f l).toNat) = true)) ∧
  (∀ m d a s, ∃ r f, exec (.popc m d a) s = .next (r.finishWord m) ∧ WritesVec s r d f ∧ ∀ l,
    (f l).toNat = ((List.range 32).filter fun i => (s.co.vreg a.toNat l).getLsbD i).length) ∧
  (∀ m d a s, ∃ r f, exec (.brev m d a) s = .next (r.finishWord m) ∧ WritesVec s r d f ∧
    ∀ l i, i < 32 → (f l).getLsbD i = (s.co.vreg a.toNat l).getLsbD (31 - i)) ∧
  (∀ m d a b s, ∃ r f, exec (.bfx m d a b) s = .next (r.finishWord m) ∧ WritesVec s r d f ∧ ∀ l i, i < 32 →
    let x := s.co.vreg a.toNat l
    let y := s.co.vreg b.toNat l
    let pos := y.toNat % 32
    let len := Nat.min (Nat.min (y.toNat / 256 % 64) 32) (32 - pos)
    (f l).getLsbD i = if i < len then x.getLsbD (pos + i)
      else decide (0 < len) && y.getLsbD 16 && x.getLsbD (pos + len - 1)) ∧
  (∀ m d a b s, ∃ r f, exec (.bfi m d a b) s = .next (r.finishWord m) ∧ WritesVec s r d f ∧ ∀ l i, i < 32 →
    let x := s.co.vreg a.toNat l
    let y := s.co.vreg b.toNat l
    let pos := y.toNat % 32
    let len := Nat.min (Nat.min (y.toNat / 256 % 64) 32) (32 - pos)
    (f l).getLsbD i = if pos ≤ i ∧ i < pos + len then x.getLsbD (i - pos) else (s.co.vreg d.toNat l).getLsbD i))

/-- R157: the shuffles complete in every state; a lane of ACTIVE(p) takes the value of V[a] in the lane named, in whatever
plane or mask state that lane is, and 0 where the number names no lane. -/
def Obligations.ShuffleResults : Prop :=  (∀ m d a b s, ∃ r : State, exec (.shfli m d a b) s = .next (r.finishWord m) ∧
    WritesVec s r d fun l => s.co.vreg a.toNat ((s.co.vreg b.toNat l).toNat % 32)) ∧
  (∀ m d a n s, ∃ r : State, exec (.shflu m d a n) s = .next (r.finishWord m) ∧
    WritesVec s r d fun l => if n.toNat ≤ l then s.co.vreg a.toNat (l - n.toNat) else 0) ∧
  (∀ m d a n s, ∃ r : State, exec (.shfld m d a n) s = .next (r.finishWord m) ∧
    WritesVec s r d fun l => if l + n.toNat < 32 then s.co.vreg a.toNat (l + n.toNat) else 0) ∧
  (∀ m d a n s, ∃ r : State, exec (.shflx m d a n) s = .next (r.finishWord m) ∧
    WritesVec s r d fun l => s.co.vreg a.toNat (l ^^^ n.toNat))

/-- R144: IN and OUT. IN(x, t) is the number of t's range congruent to x modulo 2^w. OUT(y, t) reads back under t as y
clamped to the range with SAT, as the number of the range congruent to y without; and a signed (unsigned) t leaves it
sign-extended (zero-extended) to 32 bits. -/
def Obligations.IntegerInOut : Prop :=  ∀ t : BitVec 4, t.toNat < 6 →
    (∀ x : Word, typeLow t ≤ intIn t x ∧ intIn t x ≤ typeHigh t ∧
      (2 ^ typeWidth t : Int) ∣ intIn t x - (x.toNat : Int)) ∧
    (∀ y : Int, intIn t (intOut true t y) = Min.min (Max.max y (typeLow t)) (typeHigh t) ∧
      (2 ^ typeWidth t : Int) ∣ intIn t (intOut false t y) - y) ∧
    ∀ sat y, if typeSigned t then (intOut sat t y).toInt = intIn t (intOut sat t y)
      else ((intOut sat t y).toNat : Int) = intIn t (intOut sat t y)

/-- R147, R149, R153: under an integer type the typed fixed-latency words complete in every state with OUT of the exact
result of IN of the operands, in the lanes of ACTIVE(p), the flags left alone (R145); MULH, ADDI included. -/
def Obligations.IntegerResults : Prop :=  (∀ p ∈ ([(.add, fun _ x y => x + y), (.sub, fun _ x y => x - y), (.mul, fun _ x y => x * y),
      (.mulh, fun w x y => x * y / 2 ^ w), (.min, fun _ x y => Min.min x y), (.max, fun _ x y => Max.max x y)] :
      List ((Bool → BitVec 6 → BitVec 6 → BitVec 6 → Instr) × (Nat → Int → Int → Int))),
    ∀ m d a b s, s.co.type.toNat < 6 → ∃ r : State, exec (p.1 m d a b) s = .next (r.finishWord m) ∧
      WritesVec s r d fun l => intOut (modeSat s.co.mode) s.co.type (p.2 (typeWidth s.co.type)
        (intIn s.co.type (s.co.vreg a.toNat l)) (intIn s.co.type (s.co.vreg b.toNat l)))) ∧
  (∀ p ∈ ([(.abs, fun x => x.natAbs), (.neg, fun x => -x)] :
      List ((Bool → BitVec 6 → BitVec 6 → Instr) × (Int → Int))),
    ∀ m d a s, s.co.type.toNat < 6 → ∃ r : State, exec (p.1 m d a) s = .next (r.finishWord m) ∧
      WritesVec s r d fun l => intOut (modeSat s.co.mode) s.co.type (p.2 (intIn s.co.type (s.co.vreg a.toNat l)))) ∧
  (∀ p ∈ ([(.mad, 1), (.madn, -1)] : List ((Bool → BitVec 6 → BitVec 6 → BitVec 6 → BitVec 6 → Instr) × Int)),
    ∀ m d a b c s, s.co.type.toNat < 6 → ∃ r : State, exec (p.1 m d a b c) s = .next (r.finishWord m) ∧
      WritesVec s r d fun l => intOut (modeSat s.co.mode) s.co.type
        (p.2 * (intIn s.co.type (s.co.vreg a.toNat l) * intIn s.co.type (s.co.vreg b.toNat l)) +
          intIn s.co.type (s.co.vreg c.toNat l))) ∧
  ∀ m d a i s, s.co.type.toNat < 6 → ∃ r : State, exec (.addi m d a i) s = .next (r.finishWord m) ∧
    WritesVec s r d fun l => intOut (modeSat s.co.mode) s.co.type (intIn s.co.type (s.co.vreg a.toNat l) + i.toInt)

/-- R148, R115, R116: DIV and REM under an integer type complete in every state; OUT of the quotient truncated towards zero,
or of the remainder, is deferred to the park for the lanes of ACTIVE(p), and nothing else changes; a division by zero gives
-1 or 2^w - 1, and the dividend. -/
def Obligations.IntegerDivision : Prop :=  ∀ m d a b s, s.co.type.toNat < 6 →
    let t := s.co.type
    let out := intOut (modeSat s.co.mode) t
    let x l := intIn t (s.co.vreg a.toNat l)
    let y l := intIn t (s.co.vreg b.toNat l)
    let q l := if y l = 0 then (if typeSigned t then -1 else 2 ^ typeWidth t - 1) else (x l).tdiv (y l)
    let n l := if y l = 0 then x l else x l - (x l).tdiv (y l) * y l
    (∃ r : State, exec (.div m d a b) s = .next (r.finishWord m) ∧
      Defers s r [.vreg (s.co.phys d.toNat) s.co.active (laneVec fun l => out (q l)) 0]) ∧
    ∃ r : State, exec (.rem m d a b) s = .next (r.finishWord m) ∧
      Defers s r [.vreg (s.co.phys d.toNat) s.co.active (laneVec fun l => out (n l)) 0]

/-- R154, R174: CMP and CMPI under an integer type set K[d] over the lanes of ACTIVE(p), and a write to k0 is discarded;
CMP under F32 and BF16 compares the elements with its flags. R93: a CMP into k0 that meets no trap does nothing, under a float
type too. -/
def Obligations.CompareResults : Prop :=  (∀ m d a b c s, c.toNat < 6 → s.co.type.toNat < 6 → ∃ r : State, exec (.cmp m d a b c) s = .next (r.finishWord m) ∧
    WritesK s r d (laneMask fun l =>
      let x := intIn s.co.type (s.co.vreg a.toNat l)
      let y := intIn s.co.type (s.co.vreg b.toNat l)
      if c = 0 then decide (x = y) else if c = 1 then decide (x ≠ y) else if c = 2 then decide (x < y)
      else if c = 3 then decide (x ≤ y) else if c = 4 then decide (y < x) else decide (y ≤ x))) ∧
  (∀ m d a c i s, c.toNat < 6 → s.co.type.toNat < 6 → ∃ r : State, exec (.cmpi m d a c i) s = .next (r.finishWord m) ∧
    WritesK s r d (laneMask fun l =>
      let x := intIn s.co.type (s.co.vreg a.toNat l)
      let y := i.toInt
      if c = 0 then decide (x = y) else if c = 1 then decide (x ≠ y) else if c = 2 then decide (x < y)
      else if c = 3 then decide (x ≤ y) else if c = 4 then decide (y < x) else decide (y ≤ x))) ∧
  (∀ m a b c s, s.co.type.toNat < 8 → c.toNat < 6 ∨ 6 ≤ s.co.type.toNat → exec (.cmp m 0 a b c) s = .next (s.finishWord m)) ∧
  (∀ m d a b c s, d ≠ 0 → s.co.type = 6 ∨ s.co.type = 7 → ∃ r : State, exec (.cmp m d a b c) s = .next (r.finishWord m) ∧
    ∃ f : Nat → Bool × BitVec 5, WritesKF s r d (laneMask fun l => (f l).1) (fun l => (f l).2) ∧
    ∀ l, let e (w : Word) := if s.co.type = 6 then unpack 23 w.toNat else unpack 7 (w.toNat % 65536)
      let x := e (s.co.vreg a.toNat l)
      let y := e (s.co.vreg b.toNat l)
      let un := x.isNan || y.isNan
      let o := fcmpVal x y
      (f l).1 = (if c = 0 then !un && o == .eq else if c = 1 then un || o != .eq else if c = 2 then !un && o == .lt
        else if c = 3 then !un && o != .gt else if c = 4 then !un && o == .gt else if c = 5 then !un && o != .lt
        else if c = 6 then !un else un) ∧
      (f l).2 = if 2 ≤ c.toNat ∧ c.toNat < 6 then (if un then flagNV else 0) else sigFlag x ||| sigFlag y)

/-- R98, R106: a typed word under a type it does not accept completes by recording ILL, subcode TYPE, the word as its
value, for the EXM lanes of its plane; it writes no result: ADD to REM, ABS, NEG, MAD, MADN and ADDI, the special functions with
FLDEXP, CMP and CMPI. -/
def Obligations.TypeTraps : Prop :=  (∀ p ∈ ([(.add, 9), (.sub, 9), (.mul, 9), (.min, 9), (.max, 9), (.mulh, 6), (.div, 7), (.rem, 6)] :
      List ((Bool → BitVec 6 → BitVec 6 → BitVec 6 → Instr) × Nat)),
    ∀ m d a b s, p.2 ≤ s.co.type.toNat → ∃ r : State, exec (p.1 m d a b) s = .next (r.finishWord m) ∧
      Records s r s.co.planeLanes (causeIll subType (p.1 m d a b).word)) ∧
  (∀ p ∈ ([.frcp, .frsq, .fsqrt, .fex2, .flg2, .fsint, .fcost, .fclass, .round] :
      List (Bool → BitVec 6 → BitVec 6 → Instr)),
    ∀ m d a s, s.co.type.toNat < 6 ∨ 9 ≤ s.co.type.toNat → ∃ r : State, exec (p m d a) s = .next (r.finishWord m) ∧
      Records s r s.co.planeLanes (causeIll subType (p m d a).word)) ∧
  (∀ p ∈ ([.abs, .neg] : List (Bool → BitVec 6 → BitVec 6 → Instr)),
    ∀ m d a s, 9 ≤ s.co.type.toNat → ∃ r : State, exec (p m d a) s = .next (r.finishWord m) ∧
      Records s r s.co.planeLanes (causeIll subType (p m d a).word)) ∧
  (∀ p ∈ ([.mad, .madn] : List (Bool → BitVec 6 → BitVec 6 → BitVec 6 → BitVec 6 → Instr)),
    ∀ m d a b c s, 9 ≤ s.co.type.toNat → ∃ r : State, exec (p m d a b c) s = .next (r.finishWord m) ∧
      Records s r s.co.planeLanes (causeIll subType (p m d a b c).word)) ∧
  (∀ m d a i s, 6 ≤ s.co.type.toNat → ∃ r : State, exec (.addi m d a i) s = .next (r.finishWord m) ∧
    Records s r s.co.planeLanes (causeIll subType (Instr.addi m d a i).word)) ∧
  (∀ m d a b s, s.co.type.toNat < 6 ∨ 9 ≤ s.co.type.toNat → ∃ r : State, exec (.fldexp m d a b) s = .next (r.finishWord m) ∧
    Records s r s.co.planeLanes (causeIll subType (Instr.fldexp m d a b).word)) ∧
  (∀ m d a b c s, (6 ≤ c.toNat ∧ s.co.type.toNat < 6) ∨ 8 ≤ s.co.type.toNat →
    ∃ r : State, exec (.cmp m d a b c) s = .next (r.finishWord m) ∧
      Records s r s.co.planeLanes (causeIll subType (Instr.cmp m d a b c).word)) ∧
  ∀ m d a c i s, 6 ≤ c.toNat ∨ 6 ≤ s.co.type.toNat → ∃ r : State, exec (.cmpi m d a c i) s = .next (r.finishWord m) ∧
    Records s r s.co.planeLanes (causeIll subType (Instr.cmpi m d a c i).word)

/-- R169: FROUND of a nonzero fraction n/d. What it delivers is finite of the sign given, or that infinity, or after an
overflow the largest finite value. Where it does not overflow, NX is set exactly when the value differs from n/d, no
finite value of the format lies strictly between the two, and the value is on the side the rounding mode names: nearer
zero under RTZ, at or below the signed number under RDN, at or above under RUP, and under RNE none is nearer, a tie going to the
even encoding. It overflows where the magnitude, rounded with the exponent unbounded, exceeds the largest finite value; UF is set
where the result is inexact and n/d, rounded with the exponent unbounded, lies below 2^-126. -/
def Obligations.FroundNeighbour : Prop :=  ∀ f rm neg n d, f = 23 ∨ f = 7 → 0 < n → 0 < d →
    let x := (fround f rm neg n d).1
    let fl := (fround f rm neg n d).2
    let q : Rat := n / d
    let up (lo hi : Rat) : Prop := lo < q ∧ (rm = 0 ∧ lo + hi ≤ 2 * q ∨ rm = 2 ∧ neg = true ∨ rm = 3 ∧ neg = false)
    (fl.getLsbD 2 = true ↔ 2 ^ 128 ≤ q ∨ up (2 ^ 128 - 2 ^ (127 - (f : Int))) (2 ^ 128)) ∧
    if fl.getLsbD 2 then fl.getLsbD 4 = true ∧ fl.getLsbD 3 = false ∧
      x = (if rm = 0 ∨ (rm = 2 ∧ neg = true) ∨ (rm = 3 ∧ neg = false) then infBits f neg else maxBits f neg)
    else ∃ m e, unpack f x = .fin neg m e ∧
      let v : Rat := m * 2 ^ e
      let r : Rat := n / d
      (fl.getLsbD 4 = true ↔ v ≠ r) ∧
      (fl.getLsbD 3 = true ↔ v ≠ r ∧ r < 2 ^ (-126 : Int) ∧
        ¬ up (2 ^ (-126 : Int) - 2 ^ (-127 - (f : Int))) (2 ^ (-126 : Int))) ∧
      (∀ y s k g, y < 2 ^ (f + 9) → unpack f y = .fin s k g →
        let w : Rat := k * 2 ^ g
        ¬ (v < w ∧ w < r) ∧ ¬ (r < w ∧ w < v) ∧ (rm = 0 → |v - r| ≤ |w - r|) ∧
        (rm = 0 → v ≠ w → |v - r| = |w - r| → x % 2 = 0)) ∧
      (rm = 1 → v ≤ r) ∧ (rm = 2 → if neg then r ≤ v else v ≤ r) ∧ (rm = 3 → if neg then v ≤ r else r ≤ v)

/-- R168, R171: the table of the arithmetic of one element, in both formats and every rounding mode: a NaN operand, with NV if one
is signalling; an infinity less its equal, in MAD's sum too; zero times infinity in either order, whatever z; DIV of two zeros,
of two infinities, of a finite value by zero or by infinity; and an infinity as the result wherever an operand or MAD's
product is one and none of these cases is met.

R171: of finite operands ADD, SUB, MUL, MAD, MADN and DIV by other than zero deliver FROUND of the exact result, whatever
fraction of a sign that is; an exact zero has the sign of R169, or that of the product or quotient. R172, R174: MIN and MAX, and
the order they and CMP use: that of the values, the infinities beyond them. R173: ABS and NEG. -/
def Obligations.FloatSpecials : Prop :=
  (
  ∀ f rm, f = 23 ∨ f = 7 → ∀ x y z,
    let a := unpack f x
    let b := unpack f y
    let c := unpack f z
    let sig := sigFlag a ||| sigFlag b
    let invalid : Prop := (∃ s t e, a = .inf s ∧ b = .fin t 0 e) ∨ ∃ s t e, a = .fin s 0 e ∧ b = .inf t
    let infinite (q : Bool) : Prop := ∃ s t, q = (s != t) ∧ ((a = .inf s ∧ b = .inf t) ∨
      (a = .inf s ∧ ∃ k e, k ≠ 0 ∧ b = .fin t k e) ∨ (b = .inf t ∧ ∃ k e, k ≠ 0 ∧ a = .fin s k e))
    (a.isNan = true ∨ b.isNan = true → ∀ op ∈ ([fadd, fsub, fmul, fdiv] : List (Nat → BitVec 2 → Nat → Nat → Nat × Flags)),
      op f rm x y = (nanBits f, sig)) ∧
    (∀ n, a.isNan = true ∨ b.isNan = true ∨ c.isNan = true → (fmad f rm n x y z).1 = nanBits f ∧
      (¬ invalid → (fmad f rm n x y z).2 = sig ||| sigFlag c)) ∧
    (∀ s, a = .inf s → b = .inf (!s) → fadd f rm x y = (nanBits f, flagNV)) ∧
    (∀ s, a = .inf s → b = .inf s → fsub f rm x y = (nanBits f, flagNV)) ∧
    (∀ s t, a = .inf s → b = .inf t → fdiv f rm x y = (nanBits f, flagNV)) ∧
    (invalid → fmul f rm x y = (nanBits f, flagNV) ∧ ∀ n, fmad f rm n x y z = (nanBits f, flagNV)) ∧
    (∀ s, (a = .inf s ∧ (b = .inf s ∨ ∃ t k e, b = .fin t k e)) ∨ (b = .inf s ∧ ∃ t k e, a = .fin t k e) →
      fadd f rm x y = (infBits f s, 0)) ∧
    (∀ s, (a = .inf s ∧ (b = .inf (!s) ∨ ∃ t k e, b = .fin t k e)) ∨ (b = .inf (!s) ∧ ∃ t k e, a = .fin t k e) →
      fsub f rm x y = (infBits f s, 0)) ∧
    (∀ q, infinite q → fmul f rm x y = (infBits f q, 0) ∧ ∀ n,
      (c = .inf (q == n) → fmad f rm n x y z = (nanBits f, flagNV)) ∧
      (c = .inf (q != n) ∨ (∃ t k e, c = .fin t k e) → fmad f rm n x y z = (infBits f (q != n), 0))) ∧
    (∀ n u s t k l e g, a = .fin s k e → b = .fin t l g → c = .inf u → fmad f rm n x y z = (infBits f u, 0)) ∧
    (∀ s t k e, a = .inf s → b = .fin t k e → fdiv f rm x y = (infBits f (s != t), 0)) ∧
    (∀ s t e g, a = .fin s 0 e → b = .fin t 0 g → fdiv f rm x y = (nanBits f, flagNV)) ∧
    (∀ s t k e g, a = .fin s k e → k ≠ 0 → b = .fin t 0 g → fdiv f rm x y = (infBits f (s != t), flagDZ)) ∧
    ∀ s t k e, a = .fin s k e → b = .inf t → fdiv f rm x y = (signBits f (s != t), 0)) ∧
  (
  let val (s : Bool) (m : Nat) (e : Int) : Rat := (if s then -1 else 1) * (m * 2 ^ e)
  (∀ f rm, f = 23 ∨ f = 7 → ∀ x y z a m e b n g c k h,
    unpack f x = .fin a m e → unpack f y = .fin b n g → unpack f z = .fin c k h →
    let is (r : Nat × Flags) (v : Rat) (zs : Bool) : Prop := (v = 0 → r = (signBits f zs, 0)) ∧
      ∀ s (p q : Nat), 0 < p → 0 < q → v = val s p 0 / q → r = fround f rm s p q
    let zsum (u w : Bool) : Bool := if u = w then u else rm == 2#2
    is (fadd f rm x y) (val a m e + val b n g) (zsum a b) ∧
    is (fsub f rm x y) (val a m e - val b n g) (zsum a (!b)) ∧
    is (fmul f rm x y) (val a m e * val b n g) (a != b) ∧
    (∀ neg, is (fmad f rm neg x y z) ((if neg then -1 else 1) * (val a m e * val b n g) + val c k h) (zsum ((a != b) != neg) c)) ∧
    (n ≠ 0 → is (fdiv f rm x y) (val a m e / val b n g) (a != b))) ∧
  (∀ f mx, f = 23 ∨ f = 7 → ∀ x y,
    let a := unpack f x
    let b := unpack f y
    let r := fminmax f mx x y
    r.2 = sigFlag a ||| sigFlag b ∧
    (a.isNan = true → b.isNan = true → r.1 = nanBits f) ∧ (a.isNan = true → b.isNan = false → r.1 = y) ∧
    (a.isNan = false → b.isNan = true → r.1 = x) ∧
    (a.isNan = false → b.isNan = false →
      (fcmpVal a b = .lt → r.1 = if mx then y else x) ∧ (fcmpVal a b = .gt → r.1 = if mx then x else y) ∧
      (fcmpVal a b = .eq → r.1 = if x.testBit (f + 8) = mx then y else x))) ∧
  (∀ a m e b n g,
    (fcmpVal (.fin a m e) (.fin b n g) = .lt ↔ val a m e < val b n g) ∧
    (fcmpVal (.fin a m e) (.fin b n g) = .gt ↔ val b n g < val a m e)) ∧
  (∀ v : FVal, v.isNan = false →
    (v ≠ .inf true → fcmpVal (.inf true) v = .lt ∧ fcmpVal v (.inf true) = .gt) ∧
    (v ≠ .inf false → fcmpVal (.inf false) v = .gt ∧ fcmpVal v (.inf false) = .lt)) ∧
  (∀ s, fcmpVal (.inf s) (.inf s) = .eq) ∧
  ∀ f neg x, f = 23 ∨ f = 7 → x < 2 ^ (f + 9) →
    let a := unpack f x
    let r := fsign f neg x
    (a.isNan = true → r = (nanBits f, sigFlag a)) ∧
    (a.isNan = false → r.2 = 0 ∧ unpack f r.1 = match a with
      | .fin s m e => .fin (neg && !s) m e
      | .inf s => .inf (neg && !s)
      | v => v))

/-- R171 to R173, R167: under a float type ADD, SUB, MUL, MAD, MADN, MIN, MAX, ABS and NEG complete in every state, each
element of V[d] in the lanes of ACTIVE(p) the element's result with its flags gathered at once; F32 acts on the whole word,
BF16 on its low half, BF16X2 on both. DIV under F32 defers its result and flags to the park (R115, R170).

R178 to R184, R186: the special functions, FLDEXP, PACKE and UNPKE complete under the types they accept; they defer
their results, with their flags over the lanes of ACTIVE(p), to the park, and change nothing else. FFLGR defers a read of
FFLAGS; FFLGC clears the flags it names at once when a lane is active.

R179 to R183: the values of the special functions. FRCP and FLDEXP are FROUND of 1/x and of x × 2^n. FSQRT is the neighbour
of √x that RM names, and FRSQ the one of 1/√x nearest to it. FEX2 of an integer and FLG2 of a power of two are exact. FSINT and
FCOST repeat exactly with whole turns, FSINT is +0 at a nonzero multiple of half a turn, and they have the values of R180's table.
NaNs, infinities, zeros and negative operands are those of the table; FCLASS is the class; ROUND is the integer that RM names, its
sign kept, NX never set.

R186: PACKE and UNPKE. A channel is 0 for a NaN and for a negative or −0 value, and 65,408 above that; the shared exponent is
that of the largest channel, or one more where a mantissa would be 512; each mantissa is the channel over 2^(E - 24) rounded under
RM; NV, OF and NX are set as stated, DZ and UF never. UNPKE is the mantissa times 2^(E - 24), exactly. -/
def Obligations.FloatResults : Prop :=
  (
  (∀ p ∈ ([(.add, fadd), (.sub, fsub), (.mul, fmul), (.min, fun f _ => fminmax f false), (.max, fun f _ => fminmax f true)] :
      List ((Bool → BitVec 6 → BitVec 6 → BitVec 6 → Instr) × (Nat → BitVec 2 → Nat → Nat → Nat × Flags))),
    ∀ m d a b s, 6 ≤ s.co.type.toNat ∧ s.co.type.toNat ≤ 8 → ∃ r : State, exec (p.1 m d a b) s = .next (r.finishWord m) ∧
      WritesVecF s r d fun l =>
        let x := s.co.vreg a.toNat l
        let y := s.co.vreg b.toNat l
        let lo := p.2 7 s.co.rm (x.toNat % 65536) (y.toNat % 65536)
        let hi := p.2 7 s.co.rm (x.toNat / 65536) (y.toNat / 65536)
        let w := p.2 23 s.co.rm x.toNat y.toNat
        if s.co.type = 6 then (BitVec.ofNat 32 w.1, w.2)
        else if s.co.type = 7 then (BitVec.ofNat 32 lo.1, lo.2)
        else (BitVec.ofNat 32 (lo.1 % 65536 + 65536 * hi.1), lo.2 ||| hi.2)) ∧
  (∀ p ∈ ([(.abs, false), (.neg, true)] : List ((Bool → BitVec 6 → BitVec 6 → Instr) × Bool)),
    ∀ m d a s, 6 ≤ s.co.type.toNat ∧ s.co.type.toNat ≤ 8 → ∃ r : State, exec (p.1 m d a) s = .next (r.finishWord m) ∧
      WritesVecF s r d fun l => elem1 s.co.type (fun f => fsign f p.2) (s.co.vreg a.toNat l)) ∧
  (∀ p ∈ ([(.mad, false), (.madn, true)] : List ((Bool → BitVec 6 → BitVec 6 → BitVec 6 → BitVec 6 → Instr) × Bool)),
    ∀ m d a b c s, 6 ≤ s.co.type.toNat ∧ s.co.type.toNat ≤ 8 → ∃ r : State, exec (p.1 m d a b c) s = .next (r.finishWord m) ∧
      WritesVecF s r d fun l => elem3 s.co.type (fun f => fmad f s.co.rm p.2)
        (s.co.vreg a.toNat l) (s.co.vreg b.toNat l) (s.co.vreg c.toNat l)) ∧
  ∀ m d a b s, s.co.type = 6 → ∃ r : State, exec (.div m d a b) s = .next (r.finishWord m) ∧
    let q l := fdiv 23 s.co.rm (s.co.vreg a.toNat l).toNat (s.co.vreg b.toNat l).toNat
    Defers s r [.vreg (s.co.phys d.toNat) s.co.active (laneVec fun l => BitVec.ofNat 32 (q l).1)
      ((lanesOf s.co.active).foldl (fun x l => x ||| (q l).2) 0)]) ∧
  (
  (∀ p ∈ ([(.frcp, fun rm f => frcp f rm), (.frsq, fun _ f => frsq f), (.fsqrt, fun rm f => fsqrt f rm),
      (.fex2, fun _ f => fex2 f), (.flg2, fun _ f => flg2 f), (.fsint, fun _ f => fsint f), (.fcost, fun _ f => fcost f),
      (.fclass, fun _ f x => (fclass f x, 0)), (.round, fun rm f => froundInteger f rm)] :
      List ((Bool → BitVec 6 → BitVec 6 → Instr) × (BitVec 2 → Nat → Nat → Nat × Flags))),
    ∀ m d a s, 6 ≤ s.co.type.toNat ∧ s.co.type.toNat ≤ 8 → ∃ r : State, exec (p.1 m d a) s = .next (r.finishWord m) ∧
      let f l := elem1 s.co.type (p.2 s.co.rm) (s.co.vreg a.toNat l)
      Defers s r [.vreg (s.co.phys d.toNat) s.co.active (laneVec fun l => (f l).1)
        ((lanesOf s.co.active).foldl (fun x l => x ||| (f l).2) 0)]) ∧
  (∀ m d a b s, 6 ≤ s.co.type.toNat ∧ s.co.type.toNat ≤ 8 → ∃ r : State, exec (.fldexp m d a b) s = .next (r.finishWord m) ∧
    let f l :=
      let y := s.co.vreg b.toNat l
      if s.co.type = 8 then elem2 8 (fun f x n => fldexp f s.co.rm x (BitVec.ofNat 16 n).toInt) (s.co.vreg a.toNat l) y
      else elem1 s.co.type (fun f x => fldexp f s.co.rm x y.toInt) (s.co.vreg a.toNat l)
    Defers s r [.vreg (s.co.phys d.toNat) s.co.active (laneVec fun l => (f l).1)
      ((lanesOf s.co.active).foldl (fun x l => x ||| (f l).2) 0)]) ∧
  (∀ m d a s, ∃ r : State, exec (.packe m d a) s = .next (r.finishWord m) ∧
    let f l := packe s.co.rm (s.co.vreg a.toNat l) (s.co.vreg (a.toNat + 1) l) (s.co.vreg (a.toNat + 2) l)
    Defers s r [.vreg (s.co.phys d.toNat) s.co.active (laneVec fun l => (f l).1)
      ((lanesOf s.co.active).foldl (fun x l => x ||| (f l).2) 0)]) ∧
  (∀ m d a s, ∃ r : State, exec (.unpke m d a) s = .next (r.finishWord m) ∧
    Defers s r ([0, 1, 2].map fun n => .vreg (s.co.phys (d.toNat + n)) s.co.active
      (laneVec fun l => unpke (s.co.vreg a.toNat l) n) 0)) ∧
  (∀ m d s, ∃ r : State, exec (.fflgr m d) s = .next (r.finishWord m) ∧ Defers s r [.flags (s.co.phys d.toNat) s.co.active]) ∧
  ∀ m k s, ∃ r : State, exec (.fflgc m k) s = .next (r.finishWord m) ∧
    r = { s with co := { s.co with special := { s.co.special with
      fflags := if s.co.active = 0 then s.co.special.fflags else s.co.special.fflags &&& ~~~k } } }) ∧
  (
  let val (s : Bool) (m : Nat) (e : Int) : Rat := (if s then -1 else 1) * (m * 2 ^ e)
  let nv (f : Nat) : Nat × Flags := (nanBits f, flagNV)
  /- v is nearest to the positive number whose square is r, or on the side that rm names -/
  let root (f : Nat) (rm : BitVec 2) (q : Nat × Flags) (r : Rat) : Prop := ∃ k g, unpack f q.1 = .fin false k g ∧
    let v : Rat := k * 2 ^ g
    (∀ y i j, y < 2 ^ (f + 9) → unpack f y = .fin false i j →
      let w : Rat := i * 2 ^ j
      ¬ (v < w ∧ w ^ 2 ≤ r) ∧ ¬ (r ≤ w ^ 2 ∧ w < v) ∧
      (rm = 0 → (v < w → 4 * r ≤ (v + w) ^ 2) ∧ (w < v → (v + w) ^ 2 ≤ 4 * r))) ∧
    (rm = 1 ∨ rm = 2 → v ^ 2 ≤ r) ∧ (rm = 3 → r ≤ v ^ 2) ∧ q.2 = if v ^ 2 = r then 0 else flagNX
  (∀ f rm, f = 23 ∨ f = 7 → ∀ x,
    (∀ g, unpack f x = .nan g →
      let r := (nanBits f, sigFlag (.nan g))
      frcp f rm x = r ∧ frsq f x = r ∧ fsqrt f rm x = r ∧ fex2 f x = r ∧ flg2 f x = r ∧ fsint f x = r ∧ fcost f x = r ∧
        froundInteger f rm x = r ∧ (∀ n, fldexp f rm x n = r) ∧ fclass f x = if g then 2 ^ 8 else 2 ^ 9) ∧
    (∀ s, unpack f x = .inf s → frcp f rm x = (signBits f s, 0) ∧ frsq f x = (if s then nv f else (0, 0)) ∧
      fsqrt f rm x = (if s then nv f else (x, 0)) ∧ fex2 f x = (if s then (0, 0) else (infBits f false, 0)) ∧
      flg2 f x = (if s then nv f else (infBits f false, 0)) ∧ fsint f x = nv f ∧ fcost f x = nv f ∧
      froundInteger f rm x = (x, 0) ∧ (∀ n, fldexp f rm x n = (x, 0)) ∧ fclass f x = if s then 2 ^ 0 else 2 ^ 7) ∧
    (∀ s e, unpack f x = .fin s 0 e → frcp f rm x = (infBits f s, flagDZ) ∧ frsq f x = (infBits f s, flagDZ) ∧
      fsqrt f rm x = (x, 0) ∧ fex2 f x = (127 * 2 ^ f, 0) ∧ flg2 f x = (infBits f true, flagDZ) ∧
      fsint f x = (signBits f s, 0) ∧ fcost f x = (127 * 2 ^ f, 0) ∧ froundInteger f rm x = (x, 0) ∧
      (∀ n, fldexp f rm x n = (x, 0)) ∧ fclass f x = if s then 2 ^ 3 else 2 ^ 4) ∧
    (∀ s m e, unpack f x = .fin s m e → m ≠ 0 →
      (∀ p q : Nat, 0 < p → 0 < q → (p : Rat) / q * (m * 2 ^ e) = 1 → frcp f rm x = fround f rm s p q) ∧
      (∀ (n : Int) (p q : Nat), 0 < p → 0 < q → (p : Rat) / q = m * 2 ^ (e + n) → fldexp f rm x n = fround f rm s p q) ∧
      (s = true → frsq f x = nv f ∧ fsqrt f rm x = nv f ∧ flg2 f x = nv f) ∧
      (s = false → root f rm (fsqrt f rm x) (m * 2 ^ e) ∧ root f 0 (frsq f x) (1 / (m * 2 ^ e)) ∧
        ∀ j : Int, (m : Rat) * 2 ^ e = 2 ^ j → flg2 f x = fround f 0 (decide (j < 0)) j.natAbs 1) ∧
      (∀ j : Int, val s m e = j → -126 - f ≤ j → j ≤ 127 → fex2 f x = fround f 0 false (2 ^ j.toNat) (2 ^ (-j).toNat)) ∧
      (128 ≤ val s m e → fex2 f x = (infBits f false, flagOF ||| flagNX)) ∧
      (∀ j : Int, 2 * val s m e = j → fsint f x = (0, 0)) ∧
      (fclass f x = if m < 2 ^ f then (if s then 2 ^ 2 else 2 ^ 5) else if s then 2 ^ 1 else 2 ^ 6) ∧
      ∃ (k g : Nat) (j : Int), unpack f (froundInteger f rm x).1 = .fin s g j ∧ (froundInteger f rm x).2 = 0 ∧
        let r : Rat := m * 2 ^ e
        let v : Rat := k
        (g : Rat) * 2 ^ j = v ∧ |v - r| < 1 ∧ (rm = 0 → |v - r| ≤ 1 / 2 ∧ (|v - r| = 1 / 2 → k % 2 = 0)) ∧
        (rm = 1 → v ≤ r) ∧ (rm = 2 → if s then r ≤ v else v ≤ r) ∧ (rm = 3 → if s then v ≤ r else r ≤ v) ∧
        (r = v → x < 2 ^ (f + 9) → (froundInteger f rm x).1 = x)) ∧
    ∀ y s m e t n g, unpack f x = .fin s m e → unpack f y = .fin t n g → (∃ j : Int, val s m e - val t n g = j) →
      fcost f x = fcost f y ∧ (m ≠ 0 → n ≠ 0 → fsint f x = fsint f y)) ∧
  ∀ p ∈ ([(0x00000000, 0x00000000, 0x3F800000), (0x3E000000, 0x3F3504F3, 0x3F3504F3), (0x3E800000, 0x3F800000, 0x00000000),
      (0x3F000000, 0x00000000, 0xBF800000), (0x3F400000, 0xBF800000, 0x00000000)] : List (Nat × Nat × Nat)),
    (fsint 23 p.1).1 = p.2.1 ∧ (fcost 23 p.1).1 = p.2.2) ∧
  (
  (∀ rm (r g b : Word),
    let ch (w : Word) : Rat := match unpack 23 w.toNat with
      | .nan _ => 0
      | .inf s => if s then 0 else 65408
      | .fin s m e => if s then 0 else Min.min (m * 2 ^ e) 65408
    let high (w : Word) : Prop := unpack 23 w.toNat = .inf false ∨ ∃ m e, unpack 23 w.toNat = .fin false m e ∧ (65408 : Rat) < m * 2 ^ e
    let below (w : Word) : Prop := unpack 23 w.toNat = .inf true ∨ ∃ m e, unpack 23 w.toNat = .fin true m e ∧ m ≠ 0
    let mx := Max.max (Max.max (ch r) (ch g)) (ch b)
    let rounds (E : Nat) (w : Word) (q : Nat) : Prop :=
      let t := ch w * 2 ^ (24 - (E : Int))
      |(q : Rat) - t| < 1 ∧ (rm = 0 → |(q : Rat) - t| ≤ 1 / 2 ∧ (|(q : Rat) - t| = 1 / 2 → q % 2 = 0)) ∧
        (rm = 1 ∨ rm = 2 → (q : Rat) ≤ t) ∧ (rm = 3 → t ≤ q)
    let x := packe rm r g b
    ∃ E0 E q0 q1 q2 : Nat,
      (E0 = 0 → mx < 2 ^ (-15 : Int)) ∧ (E0 ≠ 0 → 2 ^ ((E0 : Int) - 16) ≤ mx ∧ mx < 2 ^ ((E0 : Int) - 15)) ∧
      (E = E0 ∨ E = E0 + 1 ∧ ∃ w ∈ [r, g, b], rounds E0 w 512) ∧ E ≤ 31 ∧ q0 < 512 ∧ q1 < 512 ∧ q2 < 512 ∧
      rounds E r q0 ∧ rounds E g q1 ∧ rounds E b q2 ∧ x.1.toNat = q0 + 2 ^ 9 * q1 + 2 ^ 18 * q2 + 2 ^ 27 * E ∧
      (x.2.getLsbD 0 = true ↔ ∃ w ∈ [r, g, b], (unpack 23 w.toNat).isNan = true) ∧ x.2.getLsbD 1 = false ∧
      (x.2.getLsbD 2 = true ↔ ∃ w ∈ [r, g, b], high w) ∧ x.2.getLsbD 3 = false ∧
      (x.2.getLsbD 4 = true ↔ (∃ w ∈ [r, g, b], high w ∨ below w) ∨
        ∃ p ∈ [(r, q0), (g, q1), (b, q2)], ch p.1 * 2 ^ (24 - (E : Int)) ≠ (p.2 : Nat))) ∧
  ∀ (x : Word) c, c < 3 → ∃ k g, unpack 23 (unpke x c).toNat = .fin false k g ∧
    (k : Rat) * 2 ^ g = (x.toNat / 2 ^ (9 * c) % 512 : Nat) * 2 ^ (((x.toNat / 2 ^ 27 : Nat) : Int) - 24))

/-- R175 to R177: CVT. A destination type above 8, or a b field where none is read, is ILL, subcode FIELD; a source type
above 8 is ILL, subcode TYPE. Without BF16X2 the converted lanes are written at once with their flags; packing defers one
register, unpacking two, and BF16X2 to itself one with each NaN made canonical.

R176, R177: what CVT converts to. Between integers OUT; an integer to a float FROUND of it; between floats FROUND of the value,
a NaN canonical, an infinity kept; a float to an integer the integer that RM names, clamped to the destination's range, NaN
giving 0, with NV for a NaN, an infinity and a clamp and else NX where it was inexact. Packing converts both registers to BF16;
BF16X2 to itself makes each NaN canonical. -/
def Obligations.ConvertResults : Prop :=
  (
  ∀ m d a b sf t s,
    let st := s.co.type
    let i := Instr.cvt m d a b sf t
    let sat := modeSat s.co.mode || sf == 1
    let x l := s.co.vreg a.toNat l
    let defer (d : BitVec 6) (f : Nat → Word × Flags) : Deferred := .vreg (s.co.phys d.toNat) s.co.active
      (laneVec fun l => (f l).1) ((lanesOf s.co.active).foldl (fun z l => z ||| (f l).2) 0)
    ∃ r : State, exec i s = .next (r.finishWord m) ∧
      if 9 ≤ t.toNat ∨ (b ≠ 0 ∧ ¬ (t = 8 ∧ st ≠ 8)) then Records s r s.co.planeLanes (causeIll subField i.word)
      else if 9 ≤ st.toNat then Records s r s.co.planeLanes (causeIll subType i.word)
      else if t = 8 ∧ st = 8 then Defers s r [defer d fun l => convertX2 (x l)]
      else if t = 8 then Defers s r [defer d fun l => convertPack st s.co.rm sat (x l) (s.co.vreg b.toNat l)]
      else if st = 8 then Defers s r [defer d fun l => convert 7 t s.co.rm sat (x l),
        defer (d + 1) fun l => convert 7 t s.co.rm sat (x l >>> 16)]
      else WritesVecF s r d fun l => convert st t s.co.rm sat (x l)) ∧
  (
  (∀ st dt rm sat (x : Word), st.toNat < 8 → dt.toNat < 8 →
    let r := convert st dt rm sat x
    let f := if dt = 6 then 23 else 7
    let v := unpack (if st = 6 then 23 else 7) (if st = 6 then x.toNat else x.toNat % 65536)
    (st.toNat < 6 → dt.toNat < 6 → r = (intOut sat dt (intIn st x), 0)) ∧
    (st.toNat < 6 → 6 ≤ dt.toNat → r =
      let i := intIn st x
      if i = 0 then (0, 0) else (BitVec.ofNat 32 (fround f rm (decide (i < 0)) i.natAbs 1).1, (fround f rm (decide (i < 0)) i.natAbs 1).2)) ∧
    (6 ≤ st.toNat → 6 ≤ dt.toNat → (∀ g, v = .nan g → r = (BitVec.ofNat 32 (nanBits f), sigFlag v)) ∧
      (∀ s, v = .inf s → r = (BitVec.ofNat 32 (infBits f s), 0)) ∧
      ∀ s m e, v = .fin s m e → (m = 0 → r = (BitVec.ofNat 32 (signBits f s), 0)) ∧
        ∀ p q : Nat, 0 < p → 0 < q → (p : Rat) / q = m * 2 ^ e → r = (BitVec.ofNat 32 (fround f rm s p q).1, (fround f rm s p q).2)) ∧
    (6 ≤ st.toNat → dt.toNat < 6 → (∀ g, v = .nan g → r = (0, flagNV)) ∧
      (∀ s, v = .inf s → r = (BitVec.ofInt 32 (if s then typeLow dt else typeHigh dt), flagNV)) ∧
      ∀ s m e, v = .fin s m e → ∃ k : Int,
        let y : Rat := (if s then -1 else 1) * (m * 2 ^ e)
        let z : Rat := k
        |z - y| < 1 ∧ (rm = 0 → |z - y| ≤ 1 / 2 ∧ (|z - y| = 1 / 2 → k % 2 = 0)) ∧ (rm = 1 → |z| ≤ |y|) ∧
        (rm = 2 → z ≤ y) ∧ (rm = 3 → y ≤ z) ∧
        r.1 = BitVec.ofInt 32 (Min.min (Max.max k (typeLow dt)) (typeHigh dt)) ∧
        r.2 = if k < typeLow dt ∨ typeHigh dt < k then flagNV else if z = y then 0 else flagNX)) ∧
  (∀ st rm sat (x y : Word),
    let a := convert st 7 rm sat x
    let b := convert st 7 rm sat y
    convertPack st rm sat x y = (BitVec.ofNat 32 (a.1.toNat % 65536 + 65536 * b.1.toNat), a.2 ||| b.2)) ∧
  ∀ x : Word,
    let e (v : Nat) : Nat := if (unpack 7 v).isNan then nanBits 7 else v
    convertX2 x = (BitVec.ofNat 32 (e (x.toNat % 65536) + 65536 * e (x.toNat / 65536)),
      sigFlag (unpack 7 (x.toNat % 65536)) ||| sigFlag (unpack 7 (x.toNat / 65536))))

/-! ### Predicates, groups and control -/

/-- R160, R158, R93: the predicate words complete in every state; K[d] changes in the lanes of ACTIVE(p) alone, and nothing
else changes.

R158, R160, R161, R164: the words that carry lanes to group registers and group predicates complete in every state;
one group register or predicate changes, a write to g0 or gk0 being discarded, and nothing else. -/
def Obligations.PredicateResults : Prop :=
  (
  (∀ p ∈ ([(.pand, fun x y => x &&& y), (.por, fun x y => x ||| y), (.pxor, fun x y => x ^^^ y),
      (.pandn, fun x y => x &&& ~~~y)] :
      List ((Bool → BitVec 5 → BitVec 5 → BitVec 5 → Instr) × (LaneMask → LaneMask → LaneMask))),
    ∀ m d a b s, ∃ r : State, exec (p.1 m d a b) s = .next (r.finishWord m) ∧
      WritesK s r d (p.2 (s.co.kreg a) (s.co.kreg b))) ∧
  (∀ m d a s, ∃ r : State, exec (.pnot m d a) s = .next (r.finishWord m) ∧ WritesK s r d (~~~s.co.kreg a)) ∧
  (∀ m d a s, ∃ r : State, exec (.pmov m d a) s = .next (r.finishWord m) ∧ WritesK s r d (s.co.kreg a)) ∧
  (∀ m d s, ∃ r : State, exec (.pseta m d) s = .next (r.finishWord m) ∧ WritesK s r d (BitVec.allOnes 32)) ∧
  (∀ m d s, ∃ r : State, exec (.pclr m d) s = .next (r.finishWord m) ∧ WritesK s r d 0) ∧
  ∀ m d a s, ∃ r : State, exec (.kfromg m d a) s = .next (r.finishWord m) ∧ WritesK s r d ((s.co.greg a).truncate 32)) ∧
  (
  (∀ m d a s, ∃ r : State, exec (.ballot m d a) s = .next (r.finishWord m) ∧
    WritesG s r d ((s.co.active &&& s.co.kreg a).zeroExtend 64)) ∧
  (∀ m d a s, ∃ r x, exec (.popck m d a) s = .next (r.finishWord m) ∧ WritesG s r d x ∧
    x.toNat = (lanesOf (s.co.active &&& s.co.kreg a)).length) ∧
  (∀ m d a n s, ∃ r x, exec (.rdln m d a n) s = .next (r.finishWord m) ∧ WritesG s r d x ∧
    if s.co.active.getLsbD n.toNat then
      x.truncate 32 = s.co.vreg a.toNat n.toNat ∧ x.toNat / 2 ^ 32 = 1 + 2 * n.toNat
    else x = 0) ∧
  (∀ m d a s, ∃ r x, exec (.first m d a) s = .next (r.finishWord m) ∧ WritesG s r d x ∧
    if s.co.active = 0 then x = 0
    else ∃ l, s.co.active.getLsbD l = true ∧ (∀ j, j < l → s.co.active.getLsbD j = false) ∧
      x.truncate 32 = s.co.vreg a.toNat l ∧ x.toNat / 2 ^ 32 = 1 + 2 * l) ∧
  (∀ m d a s, ∃ r x, exec (.vany m d a) s = .next (r.finishWord m) ∧ WritesGk s r d x ∧
    (x = true ↔ ∃ l, s.co.active.getLsbD l = true ∧ (s.co.kreg a).getLsbD l = true)) ∧
  (∀ m d a s, ∃ r x, exec (.vall m d a) s = .next (r.finishWord m) ∧ WritesGk s r d x ∧
    (x = true ↔ ∀ l, s.co.active.getLsbD l = true → (s.co.kreg a).getLsbD l = true)) ∧
  (∀ m d a b s, ∃ r : State, exec (.gkand m d a b) s = .next (r.finishWord m) ∧ WritesGk s r d (s.co.gkreg a && s.co.gkreg b)) ∧
  (∀ m d a b s, ∃ r : State, exec (.gkor m d a b) s = .next (r.finishWord m) ∧ WritesGk s r d (s.co.gkreg a || s.co.gkreg b)) ∧
  (∀ m d a s, ∃ r : State, exec (.gknot m d a) s = .next (r.finishWord m) ∧ WritesGk s r d (!s.co.gkreg a)) ∧
  ∀ m d a b c s, c.toNat < 10 → ∃ r : State, exec (.gcmp m d a b c) s = .next (r.finishWord m) ∧
    let x := s.co.greg a
    let y := s.co.greg b
    WritesGk s r d (if c = 0 then decide (x = y) else if c = 1 then decide (x ≠ y)
      else if c = 2 then decide (x.toInt < y.toInt) else if c = 3 then decide (x.toInt ≤ y.toInt)
      else if c = 4 then decide (y.toInt < x.toInt) else if c = 5 then decide (y.toInt ≤ x.toInt)
      else if c = 6 then decide (x.toNat < y.toNat) else if c = 7 then decide (x.toNat ≤ y.toNat)
      else if c = 8 then decide (y.toNat < x.toNat) else decide (y.toNat ≤ x.toNat)))

/-! ### The geometry of views -/

/-- R276, R280, R281, R282, R290, R401: the geometry of a view in the real numbers, w holding the square roots that its numbers are
made with. The level of detail is clamp(floor(log2(d / LODD) + LODB / 256) + 1, 0, NLOD - 1), and 0 at distance 0 or with LODD
infinite. A pixel's ray has the origin and the direction of the table of R280, none in the corners of a probe or with
direction zero. A lane's basis is that of R281, its three directions times one positive factor. A triangle is hit at the one
t, b1, b2 that meet it, in range and on either face, and never by a ray in its plane; FACE tells whether its normal points
against the ray. A box is met when some t in range lies between its bounds. The nearest of several hits is kept, equal t by
the lower instance and then the lower triangle. -/
def Obligations.ViewGeometry : Prop :=  (∀ (o a : RVec) (l : Rat) (b : Int) (n : Nat), 0 < l → 0 < n →
    let d2 := RVec.dot (RVec.sub o a) (RVec.sub o a)
    lodOf o a none b n = 0 ∧ (d2 = 0 → lodOf o a (some l) b n = 0) ∧
      (d2 ≠ 0 → (lodOf o a (some l) b n : Int) =
        max 0 (min ((n : Int) - 1) (⌊Real.logb 2 (√(d2 : ℝ) / (l : ℝ)) + (b : ℝ) / 256⌋ + 1)))) ∧
  (∀ kind org (k : Basis) (tanh : Rat) W i (w : Nat → ℝ), kind ≤ 2 → 0 < W → i < W * W →
    let u : Rat := (2 * (i % W) + 1 : Nat) / (W : Rat) - 1
    let v : Rat := 1 - (2 * (i / W) + 1 : Nat) / (W : Rat)
    let q := 1 - u * u - v * v
    let rt : Roots := { a := k.a, b := k.b, c := if kind = 2 ∧ 0 ≤ q then q else 0 }
    rt.RootsAre w →
    let plane (c x y : ℝ) (r t : XVec) : Vec3 ℝ := ((r.real w).times (x * c)).plus ((t.real w).times (y * c))
    let F := k.fwd.real w
    let O := if kind = 1 then org.real.plus (plane tanh u v k.right1 k.up1) else org.real
    let D := if kind = 0 then F.plus (plane tanh u v k.right k.up) else if kind = 1 then F
      else (plane 1 u v k.right k.up).plus (F.times (w 2))
    match pixelRay kind org k tanh W i with
    | none => (kind = 2 ∧ q < 0) ∨ D.sq = 0
    | some y => y.roots = rt ∧ y.org.real w = O ∧ y.dir.real w = D ∧ D.sq ≠ 0) ∧
  (∀ (f u : RVec) (w : Nat → ℝ), RVec.dot f f ≠ 0 →
    let k := Basis.built f u
    let x := upFor f u
    (∀ n, 0 ≤ w n) → w 0 * w 0 = k.a → w 1 * w 1 = k.b →
    let F := f.real.times (1 / √f.real.sq)
    let big (y : RVec) : Prop := (2 : ℝ) ^ (-20 : Int) ≤ √(F.cross y.real).sq
    let S := F.cross x.real
    let R := S.times (1 / √S.sq)
    let U := R.cross F
    let m (j : Nat) : Rat := |u.list.getD j 0|
    let i := smallAxis u
    (i < 3 ∧ ∀ j, j < 3 → m i ≤ m j ∧ (j < i → m i < m j)) ∧ (big u → x = u) ∧
    (¬ big u → ∃ j, j < 3 ∧ x = axis (i + j) ∧ big x ∧ ∀ y, y < j → ¬ big (axis (i + y))) ∧
    k.right1.real w = R ∧ k.up1.real w = U ∧
    ∃ c : ℝ, 0 < c ∧ k.fwd.real w = F.times c ∧ k.right.real w = R.times c ∧ k.up.real w = U.times c) ∧
  (∀ (r : Roots) (k : Span) o d v0 v1 v2 (w : Nat → ℝ), r.RootsAre w → k.dd = r.dot d d → 0 ≤ k.near →
    let O := o.real w
    let D := d.real w
    let e1 := (RVec.sub v1 v0).real
    let e2 := (RVec.sub v2 v0).real
    let meets (t x y : ℝ) : Prop := O.plus (D.times t) = (v0.real.plus (e1.times x)).plus (e2.times y) ∧
      0 ≤ x ∧ 0 ≤ y ∧ x + y ≤ 1 ∧ k.holds (t * √D.sq)
    match r.triangle k o d v0 v1 v2 with
    | none => D.dot (e1.cross e2) = 0 ∨ ∀ t x y, ¬ meets t x y
    | some (n, a, x, y, face) => D.dot (e1.cross e2) ≠ 0 ∧ 0 < Surd.val w 3 a ∧
      meets (Surd.val w 3 n / Surd.val w 3 a) (Surd.val w 3 x / Surd.val w 3 a) (Surd.val w 3 y / Surd.val w 3 a) ∧
      (face = true ↔ D.dot (e1.cross e2) < 0)) ∧
  (∀ (r : Roots) (k : Span) o d bx b2 bz (w : Nat → ℝ), r.RootsAre w → k.dd = r.dot d d → 0 ≤ k.near → (d.real w).sq ≠ 0 →
    (r.meets k o d (some [bx, b2, bz]) = true ↔
      ∃ t : ℝ, k.holds (t * √(d.real w).sq) ∧ ∀ p ∈ ((o.real w).plus ((d.real w).times t)).list.zip [bx, b2, bz],
        p.2.1.atMost p.1 ∧ p.2.2.atLeast p.1)) ∧
  ∀ (r : Roots) (hs : List Hit) (w : Nat → ℝ), r.RootsAre w → (∀ h ∈ hs, 0 < Surd.val w 3 h.den) →
    let t (h : Hit) : ℝ := Surd.val w 3 h.num / Surd.val w 3 h.den
    match hs.foldl r.better none with
    | none => hs = []
    | some m => m ∈ hs ∧ ∀ h ∈ hs, t m < t h ∨ (t m = t h ∧ (m.inst < h.inst ∨ (m.inst = h.inst ∧ m.tri ≤ h.tri)))

/-! ### Groups and control -/

/-- R162, R163: the group arithmetic completes in every state, modulo 2^64, with g0 reading zero and a write to it
discarded; GDIVU and GREMU defer their result to the park (R115). -/
def Obligations.GroupResults : Prop :=  (∀ p ∈ ([(.gadd, fun x y => x + y), (.gsub, fun x y => x - y), (.gmul, fun x y => x * y),
      (.gmulhu, fun x y => BitVec.ofNat 64 (x.toNat * y.toNat / 2 ^ 64)), (.gand, fun x y => x &&& y),
      (.gor, fun x y => x ||| y), (.gxor, fun x y => x ^^^ y), (.gandn, fun x y => x &&& ~~~y),
      (.gshl, fun x y => x <<< (y.toNat % 64)), (.gshr, fun x y => x >>> (y.toNat % 64)),
      (.gsar, fun x y => x.sshiftRight (y.toNat % 64)), (.gmin, fun x y => if x.toInt ≤ y.toInt then x else y),
      (.gmax, fun x y => if x.toInt ≤ y.toInt then y else x), (.gminu, fun x y => if x.toNat ≤ y.toNat then x else y),
      (.gmaxu, fun x y => if x.toNat ≤ y.toNat then y else x)] :
      List ((Bool → BitVec 6 → BitVec 6 → BitVec 6 → Instr) × (Dword → Dword → Dword))),
    ∀ m d a b s, ∃ r : State, exec (p.1 m d a b) s = .next (r.finishWord m) ∧
      WritesG s r d (p.2 (s.co.greg a) (s.co.greg b))) ∧
  (∀ m d a s, ∃ r x, exec (.gpopc m d a) s = .next (r.finishWord m) ∧ WritesG s r d x ∧
    x.toNat = ((List.range 64).filter fun i => (s.co.greg a).getLsbD i).length) ∧
  (∀ m d a s, ∃ r x, exec (.gclz m d a) s = .next (r.finishWord m) ∧ WritesG s r d x ∧
    x.toNat ≤ 64 ∧ (∀ i, i < x.toNat → (s.co.greg a).getLsbD (63 - i) = false) ∧
      (x.toNat < 64 → (s.co.greg a).getLsbD (63 - x.toNat) = true)) ∧
  (∀ m d a s, ∃ r : State, exec (.gmov m d a) s = .next (r.finishWord m) ∧ WritesG s r d (s.co.greg a)) ∧
  (∀ m d a i s, ∃ r : State, exec (.gaddi m d a i) s = .next (r.finishWord m) ∧
    WritesG s r d (s.co.greg a + i.signExtend 64)) ∧
  (∀ m d i s, ∃ r : State, exec (.gmovi m d i) s = .next (r.finishWord m) ∧ WritesG s r d (i.signExtend 64)) ∧
  (∀ m d i s, ∃ r : State, exec (.gmovhi m d i) s = .next (r.finishWord m) ∧
    WritesG s r d ((i.signExtend 64 <<< 13) ||| (s.co.greg d &&& 0x1FFF#64))) ∧
  (∀ m d a i s, ∃ r : State, exec (.gori m d a i) s = .next (r.finishWord m) ∧
    WritesG s r d (s.co.greg a ||| i.zeroExtend 64)) ∧
  (∀ m d a k n s, ∃ r : State, exec (.gshi m d a k n) s = .next (r.finishWord m) ∧
    let x := s.co.greg a
    WritesG s r d (if k = 0 then x <<< n.toNat else if k = 1 then x >>> n.toNat
      else if k = 2 then x.sshiftRight n.toNat else x.rotateLeft n.toNat)) ∧
  ∀ m d a b s,
    (∃ r : State, exec (.gdivu m d a b) s = .next (r.finishWord m) ∧ Defers s r [.greg d
      (if s.co.greg b = 0 then BitVec.allOnes 64 else BitVec.ofNat 64 ((s.co.greg a).toNat / (s.co.greg b).toNat))]) ∧
    ∃ r : State, exec (.gremu m d a b) s = .next (r.finishWord m) ∧ Defers s r [.greg d
      (if s.co.greg b = 0 then s.co.greg a else BitVec.ofNat 64 ((s.co.greg a).toNat % (s.co.greg b).toNat))]

/-- R122 to R124, R133 to R136: NOP, EXIT, YIELD and the branches complete in every state; a taken branch sets NEXT to OFF
plus the signed field (or to G[a] for JI) and ends no run; DBNZ writes its register too. R136: a DBNZ whose g is 0 is no word of the map: it decodes to ILL, subcode FIELD. -/
def Obligations.BranchResults : Prop :=  (∀ m s, exec (.nop m) s = .next (s.finishWord m)) ∧
  (∀ m s, ∃ r : State, exec (.exit m) s = .next (r.finishWord m) ∧ EndsRun s r .exit) ∧
  (∀ m s, ∃ r : State, exec (.yield m) s = .next (r.finishWord m) ∧
    r = { s with co := { s.co with issue := { s.co.issue with ends := true, wait := .none, yielded := true } } }) ∧
  (∀ m o s, ∃ r : State, exec (.jmp m o) s = .next (r.finishWord m) ∧ Jumps s r (s.co.issue.off + o.toInt)) ∧
  (∀ m a s, ∃ r : State, exec (.ji m a) s = .next (r.finishWord m) ∧ Jumps s r (s.co.greg a).toNat) ∧
  (∀ m g o s, ∃ r : State, exec (.br m g o) s = .next (r.finishWord m) ∧
    if s.co.gkreg g then Jumps s r (s.co.issue.off + o.toInt) else r = s) ∧
  (∀ m g o s, ∃ r : State, exec (.brn m g o) s = .next (r.finishWord m) ∧
    if s.co.gkreg g then r = s else Jumps s r (s.co.issue.off + o.toInt)) ∧
  (∀ m k o s, ∃ r : State, exec (.brz m k o) s = .next (r.finishWord m) ∧
    if s.co.masks.exm &&& s.co.kreg k ≠ 0 then r = s
    else Jumps s r (s.co.issue.off + o.toInt)) ∧
  (∀ m k o s, ∃ r : State, exec (.brnz m k o) s = .next (r.finishWord m) ∧
    if s.co.masks.exm &&& s.co.kreg k ≠ 0 then Jumps s r (s.co.issue.off + o.toInt)
    else r = s) ∧
  (∀ w : Word, w.extractLsb' 25 6 = 0x1F → w.extractLsb' 19 6 = 0 → decode w = .error .field) ∧
  ∀ m g o s, g ≠ 0 → ∃ u r, exec (.dbnz m g o) s = .next (r.finishWord m) ∧ WritesG s u g (s.co.greg g - 1) ∧
    if s.co.greg g = 1 then r = u else Jumps u r (s.co.issue.off + o.toInt)

/-- R139, R137, R138: CALL and CALLI. Without room on the return stack they record PROT, without room for the groups to
spill WINX, for EXMSET, and change nothing else. Otherwise the return stack entry stands at the core home at once, every
other byte of memory is as it was, HR, WIN, RSP and SPS move as stated, NEXT is the target, and where groups must spill the
run ends with the groups and their places noted for the park (R141).

R140, R141: RET. On an empty return stack it records PROT, with an uncorrectable error in the entry ECC (R381), without the groups to refill on the spill stack WINX, for
EXMSET. Otherwise HR, WIN, RSP and SPS move back as stated by the entry's slide, NEXT is its offset, and where groups must be
refilled the run ends with the groups and their places noted for the park; nothing else changes. -/
def Obligations.CallAndReturn : Prop :=
  (
  ∀ i m f (s : State) (t : Int), (∃ o, i = Instr.call m f o ∧ t = s.co.issue.off + o.toInt) ∨ (∃ a, i = .calli m f a ∧ t = (s.co.greg a).toNat) →
    s.memOk →
    let c := s.co
    let w := c.window
    let gr := c.regs.preg / 8
    let n := 8 + w.hr + f.toNat - gr
    let home a := homeScr c.ident.core (w.scrBase + a)
    ∃ r : State, exec i s = .next (r.finishWord m) ∧
    if w.rspEnd < w.rsp + 8 then Records s r c.masks.exm (causeSpace cProt w.rsp)
    else if w.spsEnd < w.sps + 1024 * n then Records s r c.masks.exm (causeSpace cWinx w.sps)
    else
      r = { s with mem := r.mem, migrations := r.migrations, dev := { s.dev with poison := r.dev.poison }, co := r.co } ∧
      r.rdNat (home w.rsp) 8 = (c.issue.off + 1).toNat % 2 ^ 32 + f.toNat * 2 ^ 32 ∧
      (∀ a, a < home w.rsp ∨ home w.rsp + 8 ≤ a → Memory.get r.mem a = Memory.get s.mem a) ∧
      r.co = { c with
        window := { w with hr := w.hr + f.toNat - n, win := (w.win + f.toNat) % gr, rsp := w.rsp + 8, sps := w.sps + 1024 * n }
        issue := { c.issue with
          next := t
          ends := c.issue.ends || decide (n ≠ 0)
          wait := if n = 0 then c.issue.wait else .none
          spill := if n = 0 then c.issue.spill else
            (List.range n).map fun j => ((w.win + gr * w.hr - w.hr + j) % gr, home (w.sps + 1024 * j)) } }) ∧
  (
  ∀ m (s : State),
    let c := s.co
    let w := c.window
    let gr := c.regs.preg / 8
    let home a := homeScr c.ident.core (w.scrBase + a)
    let e := s.rdNat (home (w.rsp - 8)) 8
    let f := e / 2 ^ 32 % 8
    let n := f - w.hr
    ∃ r : State, exec (.ret m) s = .next (r.finishWord m) ∧
    if w.rsp ≤ w.rspBase then Records s r c.masks.exm (causeSpace cProt w.rsp)
    else if s.poisoned (home (w.rsp - 8)) 8 then Records s r c.masks.exm (causeSpace cEcc (w.rsp - 8))
    else if w.sps < w.spsBase + 1024 * n then Records s r c.masks.exm (causeSpace cWinx w.sps)
    else r = { s with co := { c with
      window := { w with hr := w.hr - f, win := (w.win + gr * f - f) % gr, rsp := w.rsp - 8, sps := w.sps - 1024 * n }
      issue := { c.issue with
        next := (e % 2 ^ 32 : Nat)
        ends := c.issue.ends || decide (n ≠ 0)
        wait := if n = 0 then c.issue.wait else .none
        refill := if n = 0 then c.issue.refill else (List.range n).map fun j =>
          ((w.win + gr * (w.hr + 1 + j) - (w.hr + 1 + j)) % gr, home (w.sps - 1024 * (j + 1))) } } })

/-- R125, R126, R97: MODE and MODEG set the issuing plane's mode, leaving every other plane's; a reserved bit is ILL, FIELD,
a type above 8 ILL, TYPE, and the mode stays. MODER reads the mode.

R127 to R129, R131: the words on EXM and PLANE. EXM takes only lanes of LIVE from EXMS, and only loses lanes by EXMA. PSW
and PSWI move the EXM lanes whose plane is below PLCNT and record PRANGE, with the plane asked for, for the others; that a lane whose
register holds an uncorrectable error (R381) does neither is the model's choice (log 39). PLQ and IDS read. -/
def Obligations.ModeAndMaskResults : Prop :=
  (
  (∀ m g n t r sa p e s, ∃ u, exec (.mode m g n t r sa p e) s = .next (u.finishWord m) ∧
    if 9 ≤ t.toNat then Records s u s.co.planeLanes (causeIll subType (Instr.mode m g n t r sa p e).word)
    else u = { s with co := { s.co with masks := { s.co.masks with modes := u.co.masks.modes } } } ∧
      ∀ q, q < 4 → vget u.co.masks.modes q = if q = s.co.issue.plane.toNat then
        0#7 ++ g ++ n ++ t ++ r ++ sa ++ p ++ e ++ 0#6 else vget s.co.masks.modes q) ∧
  (∀ m a s, ∃ u, exec (.modeg m a) s = .next (u.finishWord m) ∧
    let x := s.co.greg a
    if x.toNat / 2 ^ 25 ≠ 0 ∨ x.toNat % 64 ≠ 0 then Records s u s.co.planeLanes (causeIll subField (Instr.modeg m a).word)
    else if 9 ≤ x.toNat / 2 ^ 15 % 16 then Records s u s.co.planeLanes (causeIll subType (Instr.modeg m a).word)
    else u = { s with co := { s.co with masks := { s.co.masks with modes := u.co.masks.modes } } } ∧
      ∀ q, q < 4 → vget u.co.masks.modes q =
        if q = s.co.issue.plane.toNat then x.truncate 32 else vget s.co.masks.modes q) ∧
  ∀ m d s, ∃ r : State, exec (.moder m d) s = .next (r.finishWord m) ∧ WritesG s r d (s.co.mode.zeroExtend 64)) ∧
  (
  (∀ m a s, ∃ r : State, exec (.exms m a) s = .next (r.finishWord m) ∧
    r = { s with co := { s.co with masks := { s.co.masks with exm := (s.co.greg a).truncate 32 &&& s.co.masks.live } } }) ∧
  (∀ m d s, ∃ r : State, exec (.exmg m d) s = .next (r.finishWord m) ∧ WritesG s r d (s.co.masks.exm.zeroExtend 64)) ∧
  (∀ m a s, ∃ r : State, exec (.exma m a) s = .next (r.finishWord m) ∧
    r = { s with co := { s.co with masks := { s.co.masks with exm := s.co.masks.exm &&& (s.co.greg a).truncate 32 } } }) ∧
  (∀ i m (s : State) (x : Nat → Word), (∃ a, i = Instr.psw m a ∧ x = s.co.vreg a.toNat) ∨ (∃ p, i = .pswi m p ∧ x = fun _ => p.zeroExtend 32) →
    ∃ r : State, exec i s = .next (r.finishWord m) ∧
      let n := s.co.segs.seg.plm1.toNat + 1
      let on l := s.co.masks.exm.getLsbD l = true ∧ ∀ q ∈ s.co.issue.bad, q.1 ≠ l
      r = { s with co := { s.co with
        masks := { s.co.masks with plane := r.co.masks.plane }
        issue := { s.co.issue with traps := r.co.issue.traps } } } ∧
      ∀ l, l < 32 →
        r.co.planeOf l = (if on l ∧ (x l).toNat < n then (x l).truncate 2 else s.co.planeOf l) ∧
        r.co.causeOf l = (s.co.causeOf l).or
          (if on l ∧ n ≤ (x l).toNat then some (causeWord cPrange (x l)) else none)) ∧
  (∀ m d p s, ∃ r x, exec (.plq m d p) s = .next (r.finishWord m) ∧ WritesG s r d x ∧
    (∀ l, l < 32 → x.getLsbD l = decide (p.toNat ≤ s.co.segs.seg.plm1.toNat ∧ s.co.planeOf l = p)) ∧
    ∀ q, q < 32 → x.getLsbD (32 + q) = s.co.occ.any fun y => y.toNat == q) ∧
  (∀ m d k s, 8 ≤ k.toNat → ∃ r : State, exec (.ids m d k) s = .next (r.finishWord m) ∧
    Records s r s.co.planeLanes (causeIll subField (Instr.ids m d k).word)) ∧
  ∀ m d k s h, k.toNat < 8 → s.haul? s.co.ident.haul = some h → ∃ r : State, exec (.ids m d k) s = .next (r.finishWord m) ∧
    let i := s.co.ident
    WritesG s r d (BitVec.ofNat 64 ([i.cidx, i.rake, h.launchNo.toNat, i.core, i.core / 4, i.core / 64, i.level,
      i.slot + 32 * i.port].getD k.toNat 0)))

/-! ### Memory -/

/-- R194 to R196, R201, R202, R206, R381: the check of an access. The coach, its registers, the units and the pending work are as
they were, but for what its snapshot keeps of a publish set's base range; memory differs at most in the A and D bits of table
entries (bits 7 and 6 of the first byte of an aligned dword), which are only set, and, at a controller's or a host's port, in
the counters of the host window; MISAL stands before PROT, and PROT before the rest; an access that its
translation refuses ends with PROT, with SPECW, or with ECC for a table entry in error.

R202, R214, R45, R321, R357, R359: what a translation that finds a home has passed. The leaf has U in user mode, W for a
write and X for a fetch; a speculative task writes its own publish sets alone; the home is the host window's exactly from the
window's first address on, and no write reaches its first 64 KiB; host memory is reached under the haul's own PASID alone,
where its IOMMU allows, and not by the atomics it does not perform, nor, by the model's reading (log 11), by a read of a sum cell; and device memory only in channel groups that the port's
matrix row, and for a quad's port the MEMP of the VF the quad serves, allow. -/
def Obligations.AccessAndTranslation : Prop :=
  (
  ∀ (s : State) acc (a : Int) n, 0 < n → s.memOk →
    let r := s.access acc a n
    r.1 = { s with
      mem := r.1.mem, migrations := r.1.migrations, tlb := r.1.tlb, dev := { s.dev with poison := r.1.dev.poison }
      co := { s.co with sets := r.1.co.sets } } ∧
    (∀ x, Memory.get r.1.mem x = Memory.get s.mem x ∨
      (x % 8 = 0 ∧ ∃ k : Byte, k &&& 0x3F = 0 ∧ Memory.get r.1.mem x = Memory.get s.mem x ||| k) ∨
      64 ≤ s.ctx.port ∧ homeWin 0x1000 ≤ x ∧ x < homeWin 0x1800) ∧
    (a % n ≠ 0 → r = (s, .error (causeAddr cMisal a))) ∧
    (a % n = 0 → a < 0 ∨ 2 ^ 52 ≤ a → r = (s, .error (causeAddr cProt a))) ∧
    ∀ k, r.2 = .error k → a % n = 0 → k = causeAddr cProt a ∨ k = causeAddr cSpecw a ∨ k = causeAddr cEcc a) ∧
  (
  ∀ (s : State) x acc va home leaf bits, (s.translate x acc va).2 = .found home leaf bits →
    va < 2 ^ 52 ∧
    (x.user = true → leaf.getLsbD eU = true) ∧ (acc.writes = true → leaf.getLsbD eW = true) ∧
    (acc = .fetch → leaf.getLsbD eX = true) ∧
    (∀ sets, x.spec = some sets → acc.writes = true → leafKind leaf = 3 ∧ (leaf.extractLsb' 12 16).toNat ∈ sets) ∧
    (winBase ≤ va → home = homeWin (va - winBase) ∧ (acc.writes = true → 65536 ≤ va - winBase)) ∧
    (va < winBase →
      (home < devBytes ∧ (vget s.dev.cmxrow x.port).getLsbD (groupOf home) = true ∧
        (x.port < 64 → (s.vf (s.quad x.port).vf).memp.getLsbD (groupOf home) = true)) ∨
      (∃ a, home = homeHost x.pasid a ∧ Config.iommuAllows x.pasid a acc.writes = true ∧ acc ≠ .atom ∧ acc ≠ .cell) ∨
      ∃ d a, home = homePod d a))

/-- R211, R194 to R196, R198, R115: SLD, SST, QLD and QST complete in every state. Each active lane in ascending order traps
alone (MISAL before PROT, nothing of it done), or defers its load, or puts its bytes into the write buffer. The bytes known at
issue are those the buffer and the snapshot cover, byte by byte: the model's reading (log 8).

R206 to R209, R297, R305: LD completes in every state. Each active lane in ascending order traps alone, is not resident
(a trap, or with RESE the outcome some true), or takes its place: a plain load is deferred with the bytes that the coach's
buffer and snapshot hold for it at issue, a fresh load with its own buffered bytes and the home's current ones, unless one of
these is in error, which the park reports. That a load takes byte by byte what the buffer or the snapshot covers of a granule
is the model's reading (log 8), and so is that a fresh load first carries the dirty host copies of its granules (log 9). Then the lanes whose page is not resident take 0 and, with RESE, K[RESP] takes 1 in
them and 0 in the resident lanes, all at the park.

R208 to R210, R196: ST lane by lane in ascending order, and GST and GLD for the plane: the access traps and nothing of it
is done, or the bytes go to the write buffer (fresh: to the home), or the load is deferred with the bytes the buffer and the snapshot
cover, byte by byte: the model's reading (log 8). -/
def Obligations.LoadAndStoreResults : Prop :=
  (
  (∀ p ∈ ([(.sld, false), (.qld, true)] :
      List ((Bool → BitVec 6 → BitVec 6 → BitVec 6 → BitVec 2 → BitVec 1 → Instr) × Bool)),
    ∀ m d a b z x s, ∃ r : State, exec (p.1 m d a b z x) s = .next (r.finishWord m) ∧
      Chain (fun u l v =>
        let addr := u.co.spaceAddr a b l
        let n := 2 ^ z.toNat
        let size := if p.2 then u.co.window.qmSize else u.co.window.scrSize
        let home := if p.2 then homeQm (u.co.ident.core / 4) (u.co.window.qmBase + addr)
          else homeScr u.co.ident.core (u.co.window.scrBase + addr)
        if addr % n ≠ 0 then Records u v (laneBit l) (causeSpace cMisal addr)
        else if size < addr + n then Records u v (laneBit l) (causeSpace cProt addr)
        else Defers u v [.load (.lane (u.co.phys d.toNat) (u.co.phys (d.toNat + 1)) l (x == 1)) home
          (u.co.known home n) (causeSpace cEcc addr)])
        (lanesOf s.co.active) s r) ∧
  ∀ p ∈ ([(.sst, false), (.qst, true)] :
      List ((Bool → BitVec 6 → BitVec 6 → BitVec 6 → BitVec 2 → Instr) × Bool)),
    ∀ m d a b z s, ∃ r : State, exec (p.1 m d a b z) s = .next (r.finishWord m) ∧
      Chain (fun u l v =>
        let addr := u.co.spaceAddr a b l
        let n := 2 ^ z.toNat
        let size := if p.2 then u.co.window.qmSize else u.co.window.scrSize
        let home := if p.2 then homeQm (u.co.ident.core / 4) (u.co.window.qmBase + addr)
          else homeScr u.co.ident.core (u.co.window.scrBase + addr)
        if addr % n ≠ 0 then Records u v (laneBit l) (causeSpace cMisal addr)
        else if size < addr + n then Records u v (laneBit l) (causeSpace cProt addr)
        else v = u.store home (leBytes n ((u.co.vreg d.toNat l).toNat + 2 ^ 32 * (u.co.vreg (d.toNat + 1) l).toNat)))
        (lanesOf s.co.active) s r) ∧
  (
  ∀ m d a b h o x z f (s : State),
    let n := 2 ^ z.toNat
    let c := s.co
    ∃ (r t : State) (out : Nat → Option Bool), exec (.ld m d a b h o x z f) s = .next (r.finishWord m) ∧
      Chain (fun u l v =>
        let addr := u.co.laneAddr a b (o == 1) l
        let dest : LoadDest := .lane (u.co.phys d.toNat) (u.co.phys (d.toNat + 1)) l (x == 1)
        match u.accessNamed .load addr n with
        | (t, .error k) => out l = none ∧ Records t v (laneBit l) k
        | (t, .ok none) =>
          if modeRese u.co.mode then out l = some true ∧ v = t
          else out l = none ∧ Records t v (laneBit l) (causeAddr cNres addr)
        | (t, .ok (some (home, name))) => out l = some false ∧
          if f = 1 then
            let w := t.beforeFresh home n
            let bad := ∃ i < n, bufByte w.co.wbuf (home + i) = none ∧ w.poisoned (home + i) 1 = true
            (bad → v = w.modCo fun c =>
              { c with traps := { c.traps with ecc := c.traps.ecc ++ [(l, causeAddr cEcc addr)] } }) ∧
            (¬ bad → Defers w v [.load dest home ((List.range n).map fun i =>
              some ((bufByte w.co.wbuf (home + i)).getD (Memory.get w.mem (home + i)))) (causeAddr cEcc addr)])
          else match name with
            | none => Defers t v [.load dest home (t.co.known home n) (causeAddr cEcc addr)]
            | some q => Defers (t.modCo fun c => c.readSet q home n) v
              [.load dest home (t.co.knownSet q home n) (causeAddr cEcc addr)])
        (lanesOf c.active) s t ∧
      let low := maskOf ((lanesOf c.active).filter fun l => out l == some true)
      let done := maskOf ((lanesOf c.active).filter fun l => (out l).isSome)
      let zero (e : Nat) : Deferred := .vreg (c.phys e) low (laneVec fun _ => 0) 0
      Defers t r ((if low = 0 then [] else if n = 8 then [zero d.toNat, zero (d.toNat + 1)] else [zero d.toNat]) ++
        if modeRese c.mode then [.pred (modeResp c.mode) done low] else [])) ∧
  (
  (∀ m d a b h o z f s, ∃ r : State, exec (.st m d a b h o z f) s = .next (r.finishWord m) ∧
    Chain (fun u l v => match u.storeAccess (u.co.laneAddr a b (o == 1) l) (2 ^ z.toNat) with
      | (t, .error k) => Records t v (laneBit l) k
      | (t, .ok home) =>
        let bytes := leBytes (2 ^ z.toNat) ((t.co.vreg d.toNat l).toNat + 2 ^ 32 * (t.co.vreg (d.toNat + 1) l).toNat)
        v = if f = 1 then t.freshStore home bytes else t.store home bytes)
      (lanesOf s.co.active) s r) ∧
  (∀ m d a i s, ∃ r : State, exec (.gst m d a i) s = .next (r.finishWord m) ∧
    match s.storeAccess ((s.co.greg a).toNat + 8 * i.toInt) 8 with
    | (t, .error k) => Records t r s.co.planeLanes k
    | (t, .ok home) => r = t.store home (leBytes 8 (s.co.greg d).toNat)) ∧
  ∀ m d a i s, ∃ r : State, exec (.gld m d a i) s = .next (r.finishWord m) ∧
    let addr := (s.co.greg a).toNat + 8 * i.toInt
    match s.accessNamed .load addr 8 with
    | (t, .error k) => Records t r s.co.planeLanes k
    | (t, .ok none) => Records t r s.co.planeLanes (causeAddr cNres addr)
    | (t, .ok (some (home, none))) =>
      Defers t r [.load (.group d s.co.planeLanes) home (t.co.known home 8) (causeAddr cEcc addr)]
    | (t, .ok (some (home, some q))) =>
      Defers (t.modCo fun c => c.readSet q home 8) r
        [.load (.group d s.co.planeLanes) home (t.co.knownSet q home 8) (causeAddr cEcc addr)])

/-- R296, R209, R302: where stored bytes go. A store changes no byte of memory: it stands youngest in the coach's write buffer,
and a load of the coach finds its bytes there. A fresh store stands in memory at once, and outside its bytes and those of
the coach's buffered entries memory is as it was. -/
def Obligations.StoresGoWhere : Prop :=  ∀ (s : State) a b, s.memOk →
    (let r := s.store a b
     r.mem = s.mem ∧ r.corePts = s.corePts ∧ r.co.regs = s.co.regs ∧
      (∃ id, r.co.wbuf = s.co.wbuf ++ [{ id := id, addr := a, bytes := b, atCore := false }]) ∧
      ∀ i, i < b.length → r.co.knownByte (a + i) = b[i]?) ∧
    (isHost a = false →
      let r := s.freshStore a b
      (∀ i, i < b.length → some (Memory.get r.mem (a + i)) = b[i]?) ∧
      ∀ x, (x < a ∨ a + b.length ≤ x) → (∀ e ∈ s.co.wbuf, x < e.addr ∨ e.addr + e.bytes.length ≤ x) →
        Memory.get r.mem x = Memory.get s.mem x)

/-- R213, R214, R198, R301: ATOM and ATOMN complete in every state. Each active lane in ascending order traps alone (host
memory performs ADD, XCHG and CAS alone), or performs its step at the home of its word, which takes the new word, every other byte being as the carried entries left it;
ATOM defers the word from just before the step. A poisoned word is left and reported at the park. -/
def Obligations.AtomicResults : Prop :=  ∀ p ∈ ([(.atom, true), (.atomn, false)] :
      List ((Bool → BitVec 6 → BitVec 6 → BitVec 6 → BitVec 2 → BitVec 4 → Instr) × Bool)),
    ∀ m d a b sp op (s : State), op.toNat < 11 → s.memOk → ∃ r : State, exec (p.1 m d a b sp op) s = .next (r.finishWord m) ∧
      Chain (fun u l v =>
        let addr := u.co.laneAddr a b false l
        match if sp = 0 then u.residentAccess (if op.toNat ∈ [0, 8, 9] then .store else .atom) addr 4
          else (u, u.co.space (sp == 1) addr.toNat 4) with
        | (t, .error k) => Records t v (laneBit l) k
        | (t, .ok home) =>
          let w := t.atHome home 4
          let old : Word := BitVec.ofNat 32 (w.rdNat home 4)
          let x := u.co.vreg d.toNat l
          let y := u.co.vreg (d.toNat + 1) l
          let new : Word := [old + x, if old.toInt ≤ x.toInt then old else x, if old.toInt ≤ x.toInt then x else old,
            if old.toNat ≤ x.toNat then old else x, if old.toNat ≤ x.toNat then x else old, old &&& x, old ||| x,
            old ^^^ x, x, if old = x then y else old, BitVec.ofNat 32 (fadd 23 0 old.toNat x.toNat).1].getD op.toNat 0
          if w.poisoned home 4 then v.mem = w.mem ∧ v.co.issue = w.co.issue ∧
            v.co.traps.ecc = w.co.traps.ecc ++ [(l, eccCause (sp == 0) addr)]
          else v.rdNat home 4 = new.toNat ∧
            (∀ i, i < home ∨ home + 4 ≤ i → Memory.get v.mem i = Memory.get w.mem i) ∧ v.co.regs = w.co.regs ∧
            v.co.issue.deferred = w.co.issue.deferred ++
              if p.2 then [.vreg (w.co.phys d.toNat) (laneBit l) (laneVec fun _ => old) 0] else [])
        (lanesOf s.co.active) s r

/-- R216, R190 to R192, R301: AFADD, AFXRD, AFXCLR and AFXFLG complete in every state; each active lane in ascending order
traps alone, or acts in one step on the cell at its home: the cell takes its new value, or the value read is deferred. That a
cell in host memory is refused with PROT is the model's reading (log 11).

R190 to R192: a sum cell adds floor(x * 2^F) to VAL, exactly while it stays in range, and the fraction count stays; so
while no sum clamps, VAL, F and both stickies are the same in whatever order two addends arrive. An infinite addend takes VAL to
the end of its range, a NaN leaves it, and both set OVF. A cell is read as the F32 value nearest VAL * 2^-F, on a tie the one with
an even encoding, and VAL 0 as +0. -/
def Obligations.SumCells : Prop :=
  (
  (∀ p ∈ ([(.afadd, fun x v => cellAdd x v), (.afxclr, fun _ v => cellOf 0 (v.toNat % 128) false false)] :
      List ((Bool → BitVec 6 → BitVec 6 → BitVec 6 → Instr) × (BitVec 128 → Word → BitVec 128))),
    ∀ m d a b (s : State), s.memOk → ∃ r : State, exec (p.1 m d a b) s = .next (r.finishWord m) ∧
      Chain (fun u l v =>
        let addr := (u.co.greg a).toNat + 16 * ((u.co.vreg b.toNat l).toNat : Int)
        match u.residentAccess .atom addr 16 with
        | (t, .error k) => Records t v (laneBit l) k
        | (t, .ok home) =>
          let w := t.atHome home 16
          if w.poisoned home 16 then v.mem = w.mem ∧ v.co.traps.ecc = w.co.traps.ecc ++ [(l, causeAddr cEcc addr)]
          else v.rdNat home 16 = (p.2 (BitVec.ofNat 128 (w.rdNat home 16)) (w.co.vreg d.toNat l)).toNat ∧
            (∀ i, i < home ∨ home + 16 ≤ i → Memory.get v.mem i = Memory.get w.mem i) ∧ v.co = w.co)
        (lanesOf s.co.active) s r) ∧
  ∀ p ∈ ([(.afxrd, cellRead), (.afxflg, fun x => BitVec.ofNat 32
        (cellF x + (if x.getLsbD 126 then 128 else 0) + (if x.getLsbD 127 then 256 else 0)))] :
      List ((Bool → BitVec 6 → BitVec 6 → BitVec 6 → Instr) × (BitVec 128 → Word))),
    ∀ m d a b s, ∃ r : State, exec (p.1 m d a b) s = .next (r.finishWord m) ∧
      Chain (fun u l v =>
        let addr := (u.co.greg a).toNat + 16 * ((u.co.vreg b.toNat l).toNat : Int)
        match u.residentAccess .cell addr 16 with
        | (t, .error k) => Records t v (laneBit l) k
        | (t, .ok home) =>
          let w := t.atHome home 16
          if w.poisoned home 16 then v.mem = w.mem ∧ v.co.traps.ecc = w.co.traps.ecc ++ [(l, causeAddr cEcc addr)]
          else Defers w v [.vreg (w.co.phys d.toNat) (laneBit l)
            (laneVec fun _ => p.2 (BitVec.ofNat 128 (w.rdNat home 16))) 0])
        (lanesOf s.co.active) s r) ∧
  (
  (∀ x v neg m e, unpack 23 v.toNat = .fin neg m e →
    let n : Int := ⌊((if neg then -(m : Int) else m : Int) : Rat) * 2 ^ (e + cellF x)⌋
    cellF (cellAdd x v) = cellF x ∧
    cellVal (cellAdd x v) = Max.max (-(2 ^ 118)) (Min.min (2 ^ 118 - 1) (cellVal x + n)) ∧
    ((cellAdd x v).getLsbD 126 = true ↔ x.getLsbD 126 = true ∨ cellVal x + n < -(2 ^ 118) ∨ 2 ^ 118 - 1 < cellVal x + n) ∧
    ((cellAdd x v).getLsbD 127 = true ↔ x.getLsbD 127 = true ∨
      (n : Rat) ≠ ((if neg then -(m : Int) else m : Int) : Rat) * 2 ^ (e + cellF x))) ∧
  (∀ x v neg, unpack 23 v.toNat = .inf neg → cellF (cellAdd x v) = cellF x ∧
    cellVal (cellAdd x v) = (if neg then -(2 ^ 118) else 2 ^ 118 - 1) ∧
    (cellAdd x v).getLsbD 126 = true ∧ (cellAdd x v).getLsbD 127 = x.getLsbD 127) ∧
  (∀ x v q, unpack 23 v.toNat = .nan q → cellF (cellAdd x v) = cellF x ∧ cellVal (cellAdd x v) = cellVal x ∧
    (cellAdd x v).getLsbD 126 = true ∧ (cellAdd x v).getLsbD 127 = x.getLsbD 127) ∧
  (∀ x : BitVec 128, cellF x = x.toNat / 2 ^ 119 % 128 ∧ cellVal x = (x.extractLsb' 0 119).toInt ∧
    (cellVal x = 0 → cellRead x = 0) ∧ ∃ neg m e, unpack 23 (cellRead x).toNat = .fin neg m e ∧
      let r : Rat := (cellVal x : Rat) / 2 ^ cellF x
      let v : Rat := (if neg then -(m : Rat) else m) * 2 ^ e
      ∀ y s k g, y < 2 ^ 32 → unpack 23 y = .fin s k g →
        let w : Rat := (if s then -(k : Rat) else k) * 2 ^ g
        |v - r| ≤ |w - r| ∧ (v ≠ w → |v - r| = |w - r| → (cellRead x).toNat % 2 = 0)) ∧
  ∀ x v w, (cellAdd (cellAdd x v) w).getLsbD 126 = false → (cellAdd (cellAdd x w) v).getLsbD 126 = false →
    cellAdd (cellAdd x v) w = cellAdd (cellAdd x w) v)

/-- R217 to R220: PGREQ, RESQ and PFETCH complete in every state. PGREQ makes one request for each distinct page that is
mapped and not resident, of the page and its size, leaves the count in G[d] and hands the requests to the VF's controller;
RESQ defers the mask of the lanes whose page is mapped and resident; a lane whose address has no mapping records PROT, one whose table entry is in error ECC (R381); PFETCH
changes no state but the TLBs (that the A bits stay as well is the model's reading, log 12).

R219, R221, R222: page requests and page migration. A held request is written to its ring, WRIDX moving on; a completion
record moves RDIDX on and counts for the coach its tag names. A migration of a 32 KiB page begins with a copy of it; a round
with at most 1,024 dirty lines freezes it, after sixteen it is given up with NOCONV, and otherwise the dirty lines are copied;
the freeze copies the last of them, rewrites the leaf, drops the translations and ends the command. A line that the leader's
port does not reach stays dirty, and a freeze that does not reach the page or its leaf gives the migration up with NOCONV: the
model's choice (log 79). Which homes the pieces of
a page have, and what may be a new frame, is log 32. -/
def Obligations.PagesMove : Prop :=
  (
  (∀ m d a b (s : State), ∃ (r t : State) (pg : Nat → Option (Nat × Nat)) (l : List (Nat × Nat)),
    exec (.pgreq m d a b) s = .next (r.finishWord m) ∧
    Chain (fun u k v =>
      let addr := u.co.laneAddr a b false k
      match u.probe addr with
      | (t, .absent _ bits) => v = t ∧ pg k = some (addr.toNat / 2 ^ bits * 2 ^ bits, bits)
      | (t, .found _ _ _) => v = t ∧ pg k = none
      | (t, .ecc) => pg k = none ∧ Records t v (laneBit k) (causeAddr cEcc addr)
      | (t, _) => pg k = none ∧ Records t v (laneBit k) (causeAddr cProt addr))
      (lanesOf s.co.active) s t ∧
    (l.map (·.1)).Nodup ∧ (∀ p ∈ l, ∃ k ∈ lanesOf s.co.active, pg k = some p) ∧
    (∀ k ∈ lanesOf s.co.active, ∀ p, pg k = some p → p.1 ∈ l.map (·.1)) ∧
    r.co.special.posted = t.co.special.posted + BitVec.ofNat 64 l.length ∧
    (∀ j, r.co.greg j = if j = d ∧ d ≠ 0 then r.co.special.posted else t.co.greg j) ∧
    (r.vf s.ctx.vf).requests = (t.vf s.ctx.vf).requests ++ l.map (fun p =>
      { asid := t.co.special.asid, va := p.1, tag := t.pageTag, size := pageCode p.2 }) ∧
    r.mem = t.mem ∧ r.co.issue = t.co.issue) ∧
  (∀ m d a b (s : State), ∃ (r t : State) (here : Nat → Bool), exec (.resq m d a b) s = .next (r.finishWord m) ∧
    Chain (fun u k v =>
      let addr := u.co.laneAddr a b false k
      match u.probe addr with
      | (t, .absent _ _) => v = t ∧ here k = false
      | (t, .found _ _ _) => v = t ∧ here k = true
      | (t, .ecc) => here k = false ∧ Records t v (laneBit k) (causeAddr cEcc addr)
      | (t, _) => here k = false ∧ Records t v (laneBit k) (causeAddr cProt addr))
      (lanesOf s.co.active) s t ∧
    Defers t r [.greg d ((maskOf ((lanesOf s.co.active).filter here)).zeroExtend 64)]) ∧
  (∀ (s : State) (a : Int), s.probe a =
    if a < 0 ∨ 2 ^ 52 ≤ a then (s, .prot)
    else if winBase ≤ a.toNat then (s, .found (homeWin (a.toNat - winBase)) 0x3F#64 23)
    else s.translateWalk s.ctx .load a.toNat) ∧
  ∀ m a b (s : State), ∃ r : State, exec (.pfetch m a b) s = .next (r.finishWord m) ∧ r = { s with tlb := r.tlb }) ∧
  (
  (∀ vf asid (s u v : State) r g h w d a, (s.vf vf).requests.find? (fun r => r.asid.toNat == asid) = some r →
    s.rings? vf (BitVec.ofNat 16 asid) = some g → asid < 2 ^ 16 → s.ringIndices vf g.req = (u, some (h, w, d)) →
    (w + 2 ^ 32 - d) % 2 ^ 32 < 2 ^ g.logReq → u.gpaHome vf (g.req + 0x40 + 32 * (w % 2 ^ g.logReq)) true = (v, some a) →
    a + 32 ≤ h ∨ h + 4 ≤ a → s.memOk →
    ∃ t : State, exec (.pageRequestPost vf asid) s = .next t ∧ t.rd a 32 = r.bytes ∧ t.rdNat h 4 = (w + 1) % 2 ^ 32 ∧
      (t.vf vf).requests = (s.vf vf).requests.erase r ∧ t.co = s.co ∧
      ∀ x, (x < a ∨ a + 32 ≤ x) → (x < h ∨ h + 4 ≤ x) → Memory.get t.mem x = Memory.get v.mem x) ∧
  (∀ vf asid (s u v : State) g h w d b, s.rings? vf (BitVec.ofNat 16 asid) = some g → asid < 2 ^ 16 →
    s.ringIndices vf g.comp = (u, some (h, w, d)) → w ≠ d → u.readGpa vf (g.comp + 0x40 + 16 * (d % 2 ^ g.logComp)) 8 = (v, some b) →
    s.memOk → let tag : Dword := BitVec.ofNat 64 (leNat b)
    ∃ t : State, exec (.pageRequestCompletion vf asid) s = .next t ∧ t.rdNat (h + 4) 4 = (d + 1) % 2 ^ 32 ∧
      (s.hauls.find? (fun k => k.vf == vf && k.launchNo == tag.extractLsb' 32 32 && !k.retired) = none → t.co = s.co) ∧
      ∀ k, s.hauls.find? (fun k => k.vf == vf && k.launchNo == tag.extractLsb' 32 32 && !k.retired) = some k →
        t.co = if s.co.ident.haul = k.id ∧ tagNames tag s.co = true then { s.co with special := { s.co.special with
          pgc := s.co.special.pgc + 1 } } else s.co) ∧
  (∀ b i (s' u v : State) c root e pa z gpa own o n, s'.command? b i 7 = some c → let s := s'.startCommand c
    (∀ m ∈ s.migrations, m.block ≠ b ∨ m.slot ≠ i) →
    s.rootOf c.vf (BitVec.ofNat 16 (c.arg 0)) = some root → c.arg 1 < winBase →
    walk1 (ctrlPort s.leaderDie) c.vf (c.arg 1) levels (root.toNat % 2 ^ 52 / 4096 * 4096) s = (u, .ok (e, 15, pa, z)) →
    u.pageFrame (s.ctrlCtx c.vf 0 (BitVec.ofNat 16 (c.arg 0)) root) (c.arg 1 / 2 ^ 15 * 2 ^ 15) pa (c.arg 2) e = some (gpa, some own) →
    State.pieceHomes c.vf gpa 1 u = (v, some [o]) → c.arg 2 % 2 ^ 15 = 0 → c.arg 2 < 2 ^ 52 →
    ∀ x, State.pieceHomes c.vf (c.arg 2) 1 v = (x, some [n]) → x.moving [o.1] = false → s.memOk →
      (∀ l, l < 256 → x.lineSeen [(o.1, n.1)] l = true) →
      o.1 + 32768 ≤ n.1 ∨ n.1 + 32768 ≤ o.1 →
      ∃ (t : State) (m : Migration), exec (.pgmig b i) s' = .next t ∧ m ∈ t.migrations ∧ m.block = b ∧ m.slot = i ∧
        m.pieces = [(o.1, n.1)] ∧ m.leaves = [own] ∧ m.dirty = [] ∧ m.rounds = 0 ∧ m.frozen = false ∧ t.commands = s.commands ∧
        t.rd n.1 32768 = x.rd o.1 32768 ∧ ∀ y, y < n.1 ∨ n.1 + 32768 ≤ y → Memory.get t.mem y = Memory.get x.mem y) ∧
  (∀ (s : State) m, s.migrations = [m] → m.frozen = false →
    (m.dirty.length ≤ 1024 → ∃ t : State, exec (.pageMigrationRound m.id) s = .next t ∧
      t = { s with migrations := [{ m with rounds := m.rounds + 1, frozen := true }] }) ∧
    (1024 < m.dirty.length → 16 ≤ m.rounds + 1 → ∃ u t : State, exec (.pageMigrationRound m.id) s = .next t ∧
      EndsCommand u t m.block m.slot 8 0 ∧ t.migrations = [] ∧ t.mem = s.mem) ∧
    (1024 < m.dirty.length → m.rounds + 1 < 16 → ∃ t : State, exec (.pageMigrationRound m.id) s = .next t ∧
      t.co = s.co ∧ ∀ k ∈ t.migrations,
        k.dirty = m.dirty.filter (fun l => !s.lineSeen m.pieces l) ∧ k.rounds = m.rounds + 1 ∧ k.frozen = false)) ∧
  (∀ (s : State) m, s.migrations = [m] → m.frozen = true → s.moveSeen m = false →
    ∃ u t : State, exec (.pageMigrationFreeze m.id) s = .next t ∧ EndsCommand u t m.block m.slot 8 0 ∧ t.migrations = [] ∧
      t.co = s.co) ∧
  ∀ (s : State) m o n l, s.migrations = [m] → m.frozen = true → s.moveSeen m = true →
    (∀ d ∈ m.dirty, s.lineSeen m.pieces d = true) → m.pieces = [(o, n)] → m.leaves = [l] → s.memOk →
    (o + 32768 ≤ n ∨ n + 32768 ≤ o) → (l.1 + 8 ≤ n ∨ n + 32768 ≤ l.1) → (∀ d ∈ m.dirty, d < 256) →
    s.co.present = true → ((s.co :: s.coaches).map fun c => c.ident.id).Nodup →
    (∀ c ∈ s.allCoaches, c.wbuf = [] ∧ c.issue.deferred = []) →
    ∃ u t : State, exec (.pageMigrationFreeze m.id) s = .next t ∧ EndsCommand u t m.block m.slot 0 (BitVec.ofNat 64 m.rounds) ∧
      t.migrations = [] ∧ (∀ d ∈ m.dirty, t.rd (n + 128 * d) 128 = s.rd (o + 128 * d) 128) ∧
      BitVec.ofNat 64 (t.rdNat l.1 8) =
        (BitVec.ofNat 64 (s.rdNat l.1 8) &&& ~~~0x000F_FFFF_FFFF_F000#64) ||| BitVec.ofNat 64 (l.2 / 4096 * 4096) ∧
      (∀ e ∈ t.tlb, e.vf = m.vf → o + 32768 ≤ e.frame ∨ e.frame + 2 ^ e.bits ≤ o) ∧ t.co.regs = s.co.regs)

/-! ### Dray engine, publish sets, waits -/

/-- R223, R226, R227, R321: the Dray words complete in every state. A descriptor that fails a check records DRAYX with the
field's value for EXMSET, a speculative task's global destination without SHADOW records SPECW, and nothing else changes.
Otherwise the command stands last in the queue of its channel, or behind those held when 16 are queued.

R234 to R236: PUBLISH, PPIN and PUNPIN complete in every state. A set that is not registered, and a pin operand that
names no slot, record DRAYX for EXMSET. PUBLISH makes the shadow slot current and counts a generation, or counts a refusal
where no slot is free; PPIN and PUNPIN set and clear one pin bit. The set's entry takes the changed fields in one step, and
every other byte of memory and every register stay. Where the quad's port does not reach the set's entry (R357), the word
records PROT for EXMSET and changes nothing: which cause, and that it is the entry's address, is the model's choice (log 79). -/
def Obligations.DrayAndPublishWords : Prop :=
  (
  ∀ p ∈ ([(.dcopy, 0), (.dcopyt, 1), (.dcvt, 2), (.dgath, 3), (.dscat, 4), (.dfill, 5)] :
      List ((Bool → BitVec 6 → Instr) × Nat)),
    ∀ m a (s : State), ∃ r : State, exec (p.1 m a) s = .next (r.finishWord m) ∧
      let c := s.drayCmd p.2 a
      let ch := s.chan (c.core / 4) c.chan
      match c.check with
      | some v => Records s r s.co.masks.exm (causeAddr cDrayx (v.toNat % 2 ^ 52 : Nat))
      | none =>
        if s.ctx.spec.isSome ∧ c.dsp = 0 ∧ c.isShadow = false then
          Records s r s.co.masks.exm (causeAddr cSpecw (s.co.greg (a + 1)).toNat)
        else r = { s with quads := r.quads } ∧
          (∀ q n, n < 4 → ¬ (q = c.core / 4 ∧ n = c.chan) → r.chan q n = s.chan q n) ∧
          r.chan (c.core / 4) c.chan = (if ch.held = [] ∧ ch.queue.length < 16 then { ch with queue := ch.queue ++ [c] }
            else { ch with held := ch.held ++ [c] })) ∧
  (
  (∀ m a (s : State), s.memOk → ∃ r : State, exec (.publish m a) s = .next (r.finishWord m) ∧
    OnSet s r (s.co.greg a) (fun _ => true) fun p =>
      match [(p.cur + 1) % p.nslot, (p.cur + 2) % p.nslot].find? fun n => n != p.cur && !p.pinned.getLsbD n with
      | none => { p with refused := p.refused + 1 }
      | some n => { p with cur := n, gen := p.gen + 1 }) ∧
  ∀ m a b (s : State), s.memOk →
    let y := (s.co.greg b).toNat
    let ok (p : Machine.PSet) := decide (y < 4) && (decide (y = 3) || decide (y < p.nslot))
    let bit (p : Machine.PSet) : BitVec 3 := 1#3 <<< (if y % 4 = 3 then p.cur else y % 4)
    (∃ r : State, exec (.ppin m a b) s = .next (r.finishWord m) ∧
      OnSet s r (s.co.greg a) ok fun p => { p with pinned := p.pinned ||| bit p }) ∧
    ∃ r : State, exec (.punpin m a b) s = .next (r.finishWord m) ∧
      OnSet s r (s.co.greg a) ok fun p => { p with pinned := p.pinned &&& ~~~bit p })

/-- R226, R228: a plain copy that passes the checks names no byte outside its spaces: every element of every row lies below
the bound of its space, in source and destination, and on its element's alignment.

R201, R206, R228, R230: an element is read from and written to the homes of its spaces: quad memory and scratchpads at once
inside the allocation, PROT outside it; a global one, within a 64-byte block, by its translation, with PROT, NRES or ECC where that
fails and NOSHADOW for a SHADOW element outside the base ranges; the written home then holds the bytes and no other byte
changes. DCOPY, DCOPYT, DGATH, DSCAT and DFILL move their next element from and to the addresses of R228, an index word being read
with the first of its row.

R187, R188, R189, R229: DCVT converts its next block. Expansion writes the 32 halves of the block at 64 bytes a block, those of a
malformed one 0x7FC0 with status BADBLOCK: each half is the element's exact value times the scale, rounded once to nearest even,
with the special cases of R188. Compression reads 32 values and writes their block: the exponent and the mantissas of R189, each
rounded to nearest even and saturated, and the two blocks of NaNs and of zeros.

R227 to R231, R82, R83, R376, R381: the steps of the Dray engine, which pauses while its quad's clock changes. A freed
entry takes the oldest held command; an idle channel starts the head of its queue; a command that runs moves its next element;
and a command whose elements have moved
completes: its counter steps by one, bit 63 set after an error, its channel is idle, and its record stands last in the quad's
event queue, which has room. A counter that cannot be reached or is in error takes no step, and the record says so: that the
record of a dropped step bears the status of the failed access is the model's reading (log 14). -/
def Obligations.DraySteps : Prop :=
  (
  ∀ c : DrayCmd, c.op = 0 → c.check = none → ∀ i j, i < c.rows → j < c.cols →
    let sa := c.src.toNat + i * c.sstr + j * c.selem
    let da := c.dst.toNat + i * c.dstr + j * c.delem
    sa + c.selem ≤ c.limit c.ssp c.score ∧ da + c.delem ≤ c.limit c.dsp c.dcore ∧
      sa % c.selem = 0 ∧ da % c.delem = 0) ∧
  (
  (∀ (s : State) (c : DrayCmd) sp rel a n, sp ≠ 0 →
    s.drayRead c sp rel a n = (s, match c.home sp rel a n with
      | none => .error 1
      | some h => if s.poisoned h n then .error 3 else .ok (s.rd h n))) ∧
  (∀ (s : State) (c : DrayCmd) rel a n, 0 < n → a % 64 + n ≤ 64 →
    s.drayRead c 0 rel a n = match s.translate (s.drayCtx c false) .load a with
      | (t, .found h _ _) => (t, if t.poisoned h n then .error 3 else .ok (t.peek h n))
      | (t, .absent _ _) => (t, .error 2)
      | (t, .ecc) => (t, .error 3)
      | (t, _) => (t, .error 1)) ∧
  (∀ (s : State) (c : DrayCmd) a b, s.memOk →
    let wrote (t u : State) (h : Nat) : Prop := isHost h = false → u.rd h b.length = b ∧
      (∀ x, x < h ∨ h + b.length ≤ x → Memory.get u.mem x = Memory.get t.mem x) ∧ u.co = s.co ∧ u.coaches = s.coaches
    (c.dsp ≠ 0 → match c.home c.dsp c.dcore a b.length with
      | none => s.drayWrite c a b = (s, 1)
      | some h => ∃ u, s.drayWrite c a b = (u, 0) ∧ wrote s u h) ∧
    (c.dsp = 0 → 0 < b.length → a % 64 + b.length ≤ 64 →
      let x := s.drayCtx c true
      if c.isShadow = true ∧ s.noShadow x a = true then s.drayWrite c a b = (s, 5)
      else match s.translate x .store a with
        | (t, .found h _ _) => ∃ u, s.drayWrite c a b = (u, 0) ∧ wrote t u h
        | (t, .absent _ _) => s.drayWrite c a b = (t, 2)
        | (t, .ecc) => s.drayWrite c a b = (t, 3)
        | (t, _) => s.drayWrite c a b = (t, 1))) ∧
  (∀ (s : State) (c : DrayCmd) i, c.idxsp = false → s.drayIndex c i =
    let h := homeQm (c.core / 4) (c.qm.1 + (c.arg.toNat + 4 * i))
    if s.poisoned h 4 then .error 3 else .ok (s.rdNat h 4)) ∧
  (∀ (s : State) (c : DrayCmd) i p, c.idxsp = true → (c.scr.find? fun p => p.1 == c.core) = some p → s.drayIndex c i =
    let h := homeScr p.1 (p.2.1 + (c.arg.toNat + 4 * i))
    if s.poisoned h 4 then .error 3 else .ok (s.rdNat h 4)) ∧
  ∀ (s : State) (c : DrayCmd), c.op ≤ 5 → c.op ≠ 2 →
    let r := c.pos / c.cols
    let k := c.pos % c.cols
    let E := 2 ^ c.esize
    (∀ e, c.op = 3 ∨ c.op = 4 → k = 0 → s.drayIndex c r = .error e → s.drayUnit c = (s, { c with status := e })) ∧
    ∀ j, (if (c.op = 3 ∨ c.op = 4) ∧ k = 0 then s.drayIndex c r = .ok j else j = c.index) →
      let sa := c.src.toNat + (if c.op = 3 then j else r) * c.sstr + k * E
      let da := if c.op = 1 then c.dst.toNat + k * c.dstr + r * E
        else c.dst.toNat + (if c.op = 4 then j else r) * c.dstr + k * E
      let done (st : Nat) : DrayCmd := { c with index := j, pos := c.pos + 1, status := if st = 0 then c.status else st }
      if c.op = 5 then ∀ b, (c.esize < 3 → b = leBytes E (c.arg.toNat % 2 ^ (8 * E))) →
          (c.esize = 3 → b = leBytes 4 c.arg.toNat ++ leBytes 4 c.arg.toNat) → c.esize ≤ 3 →
          s.drayUnit c = ((s.drayWrite c da b).1, done (s.drayWrite c da b).2)
      else match s.drayRead c c.ssp c.score sa E with
        | (t, .error e) => s.drayUnit c = (t, done e)
        | (t, .ok b) => s.drayUnit c = ((t.drayWrite c da b).1, done (t.drayWrite c da b).2)) ∧
  (
  (∀ (s : State) (c : DrayCmd), s.memOk → c.op = 2 → c.ssp ≠ 0 → c.dsp ≠ 0 →
    let r := c.pos / (c.cols / 32)
    let n := c.pos % (c.cols / 32)
    let done (st : Nat) : DrayCmd := { c with pos := c.pos + 1, status := if st = 0 then c.status else st }
    let block := 4 * c.k + 4
    let size := if c.csrc then 2 else 4
    let moved (dh : Nat) (b : List Byte) (st : Nat) : Prop := ∃ u, s.drayUnit c = (u, done st) ∧ u.rd dh b.length = b ∧
      (∀ x, x < dh ∨ dh + b.length ≤ x → Memory.get u.mem x = Memory.get s.mem x) ∧ u.co = s.co ∧ u.coaches = s.coaches
    ∀ sh dh, if c.dir then c.home c.ssp c.score (c.src.toNat + r * c.sstr + 32 * n * size) (32 * size) = some sh →
        c.home c.dsp c.dcore (c.dst.toNat + r * c.dstr + n * block) block = some dh → s.poisoned sh (32 * size) = false →
        moved dh (bfpCompress (if c.csrc then 7 else 23) c.k ((List.range 32).map fun i => s.rdNat (sh + size * i) size)) 0
      else c.home c.ssp c.score (c.src.toNat + r * c.sstr + n * block) block = some sh →
        c.home c.dsp c.dcore (c.dst.toNat + r * c.dstr + 64 * n) 64 = some dh → s.poisoned sh block = false →
        let b := s.rd sh block
        moved dh ((bfpExpand c.k c.arg b).flatMap (leBytes 2)) (if bfpBad c.k b then 4 else 0)) ∧
  (∀ k (s : Word) (b : List Byte), 2 ≤ k → k ≤ 8 → b.length = 4 * k + 4 →
    let w := leNat (b.take 4)
    let E := w % 256
    (bfpBad k b = true ↔ w / 2 ^ 16 ≠ 0 ∨ w / 2 ^ 8 % 2 ^ 8 ≠ k) ∧ (bfpExpand k s b).length = 32 ∧
    ∀ i y, (bfpExpand k s b)[i]? = some y → if bfpBad k b then y = 0x7FC0 else
      ∃ m : Int, -(2 ^ (k - 1)) ≤ m ∧ m < 2 ^ (k - 1) ∧ m % 2 ^ k = ((leNat (b.drop 4) / 2 ^ (k * i) % 2 ^ k : Nat) : Int) ∧
        match unpack 23 s.toNat with
        | .nan _ => y = 0x7FC0
        | .inf neg => y = if E = 255 ∨ E = 0 ∨ m = 0 then 0x7FC0 else infBits 7 (neg != decide (m < 0))
        | .fin neg sm se => (E = 255 → y = 0x7FC0) ∧ (E ≠ 255 → ∃ (v : Int) (n d : Nat), v = (if E = 0 then 0 else m) ∧ 0 < d ∧
            (n : Rat) / d = |(v : Rat)| * 2 ^ ((E : Int) - 127 - (k - 1)) * (sm * 2 ^ se) ∧
            y = (fround 7 0 (neg != decide (v < 0)) n d).1)) ∧
  ∀ f k (xs : List Nat), f = 23 ∨ f = 7 → 2 ≤ k → k ≤ 8 → xs.length = 32 →
    let b := bfpCompress f k xs
    let m := bfpMant k b
    let E := leNat (b.take 4) % 256
    let odd (x : Nat) : Prop := ∀ neg n e, unpack f x ≠ .fin neg n e
    let val (x : Nat) : Rat := match unpack f x with
      | .fin neg n e => (if neg then -1 else 1) * (n * 2 ^ e)
      | _ => 0
    b.length = 4 * k + 4 ∧ leNat (b.take 4) = k * 2 ^ 8 + E ∧
    ((∃ x ∈ xs, odd x) → E = 255 ∧ ∀ i, i < 32 → m i = 0) ∧
    ((∀ x ∈ xs, ¬ odd x ∧ val x = 0) → E = 0 ∧ ∀ i, i < 32 → m i = 0) ∧
    ((∀ x ∈ xs, ¬ odd x) → (∃ x ∈ xs, val x ≠ 0) →
      (∃ e : Int, (∃ x ∈ xs, (2 : Rat) ^ e ≤ |val x|) ∧ (∀ x ∈ xs, |val x| < 2 ^ (e + 1)) ∧
        (E : Int) = min 254 (max 1 (e + 128))) ∧
      ∀ i x, xs[i]? = some x → ∃ z : Int, |val x * 2 ^ (k - 1) / 2 ^ ((E : Int) - 127) - z| ≤ 1 / 2 ∧
        (|val x * 2 ^ (k - 1) / 2 ^ ((E : Int) - 127) - z| = 1 / 2 → z % 2 = 0) ∧
        m i = max (-(2 ^ (k - 1))) (min (2 ^ (k - 1) - 1) z))) ∧
  (
  (∀ q n (s : State), (s.quad q).changing = true →
    exec (.drayEnqueue q n) s = .next s ∧ exec (.drayCommandStart q n) s = .next s ∧ exec (.drayComplete q n) s = .next s) ∧
  (∀ q n (s : State) c rest, n < 4 → (s.quad q).changing = false → (s.chan q n).held = c :: rest →
    (s.chan q n).queue.length < 16 →
    ∃ t : State, exec (.drayEnqueue q n) s = .next t ∧ t = { s with quads := t.quads } ∧
      t.chan q n = { s.chan q n with queue := (s.chan q n).queue ++ [c], held := rest }) ∧
  (∀ q n (s : State) c rest, n < 4 → (s.quad q).changing = false → (s.chan q n).running = none →
    (s.chan q n).queue = c :: rest →
    ∃ t : State, exec (.drayCommandStart q n) s = .next t ∧ t = { s with quads := t.quads } ∧
      (t.chan q n).queue = rest ∧ (t.chan q n).held = (s.chan q n).held ∧
      ∃ x, (t.chan q n).running = some { c with shadow := x } ∧ (c.isShadow = false → x = none)) ∧
  (∀ q n (s : State) c, n < 4 → (s.quad q).changing = false → (s.chan q n).running = some c → c.finished = false →
    ∃ t : State, exec (.drayCommandStart q n) s = .next t ∧ t = { (s.drayUnit c).1 with quads := t.quads } ∧
      (t.chan q n).running = some (s.drayUnit c).2 ∧ (t.chan q n).queue = (s.chan q n).queue) ∧
  ∀ q n (s : State) c, n < 4 → (s.quad q).changing = false → (s.chan q n).running = some c → c.finished = true →
    (s.quad q).eventRoom = true → s.memOk →
    ∃ (t u : State) (e : EventRec), exec (.drayComplete q n) s = .next t ∧ (t.chan q n).running = none ∧
      (t.quad q).events = (s.quad q).events ++ [e] ∧ e.kind = 1 ∧ e.addr = c.counter ∧
      t = { u with quads := t.quads } ∧
      if c.counter = 0 then u = s ∧ e.status = BitVec.ofNat 8 c.status
      else match s.drayCounter c with
        | (v, .found h _ _) =>
          if v.poisoned h 8 = true then u = v ∧ e.status = 3
          else e.status = BitVec.ofNat 8 c.status ∧ (isHost h = false → ∀ x, x = v.rdNat h 8 →
            u.rdNat h 8 = (if c.status = 0 then (x + 1) % 2 ^ 64 else (x + 1) % 2 ^ 64 ||| 2 ^ 63) ∧
            ∀ a, a < h ∨ h + 8 ≤ a → Memory.get u.mem a = Memory.get v.mem a)
        | (v, .ecc) => u = v ∧ e.status = 3
        | (v, _) => u = v ∧ e.status = 1)

/-- R232, R115: DWAIT and DPOLL complete in every state: a counter that may not be read traps for EXMSET; DWAIT then ends the
run with its wait; DPOLL defers the counter, or reports its error at the park for EXMSET, with no lane in EXM for the coach.

R82, R83, R232, R314, R317, R347, R376: the steps that end waits. While the quad's clock changes its event queue stands still. A held record takes a free place of the quad's event queue;
the sequencer reads the oldest record; a coach whose quad's clock is stable and that waits for its counter, for PGC or for TIME becomes ready once the value
is reached, with nothing but its issue state changed. -/
def Obligations.WaitSteps : Prop :=
  (
  (∀ m a b (s : State), ∃ r : State, exec (.dwait m a b) s = .next (r.finishWord m) ∧
    match s.residentAccess .load (s.co.greg a).toNat 8 with
    | (t, .error k) => Records t r s.co.masks.exm k
    | (t, .ok h) => EndsRun t r (.dwait (s.co.greg a).toNat h (s.co.greg b))) ∧
  ∀ m d a (s : State), ∃ r : State, exec (.dpoll m d a) s = .next (r.finishWord m) ∧
    match s.residentAccess .load (s.co.greg a).toNat 8 with
    | (t, .error k) => Records t r s.co.masks.exm k
    | (t, .ok h) =>
        let k := causeAddr cEcc (s.co.greg a).toNat
        if t.poisoned h 8 then r = { t with co := { t.co with traps := { t.co.traps with
            ecc := t.co.traps.ecc ++ (lanesOf s.co.masks.exm).map fun l => (l, k)
            eccBare := if s.co.masks.exm = 0 then some (t.co.traps.eccBare.getD k) else t.co.traps.eccBare } } }
        else Defers t r [.greg d (BitVec.ofNat 64 (t.peekNat h 8))]) ∧
  (
  (∀ q (s : State), (s.quad q).changing = true →
    exec (.eventRecordPost q) s = .next s ∧ exec (.eventQueueRead q) s = .next s) ∧
  (∀ q (s : State) e rest, (s.quad q).changing = false → (s.quad q).held = e :: rest → (s.quad q).events.length < 256 →
    ∃ t : State, exec (.eventRecordPost q) s = .next t ∧ (t.quad q).events = (s.quad q).events ++ [e] ∧
      (t.quad q).held = rest ∧ t.mem = s.mem) ∧
  (∀ q (s : State) e rest, (s.quad q).changing = false → (s.quad q).events = e :: rest →
    ∃ t : State, exec (.eventQueueRead q) s = .next t ∧ t = { s with quads := t.quads } ∧
      t.quad q = { s.quad q with events := rest, lastRead := some e }) ∧
  ∀ i (s : State), s.co.issue.phase = .waiting → s.co.traps.ecc = [] → s.co.traps.eccBare = none →
    (s.quad (s.co.ident.core / 4)).changing = false →
    (∃ a h v, i = Instr.dwaitRelease s.co.ident.id ∧ s.co.issue.wait = .dwait a h v ∧ s.poisoned h 8 = false ∧
      v.toNat % 2 ^ 63 ≤ s.peekNat h 8 % 2 ^ 63) ∨
    (∃ v, i = .evwaitRelease s.co.ident.id ∧ s.co.issue.wait = .evwait v ∧ v.toNat ≤ s.co.special.pgc.toNat) ∨
    (∃ v, i = .sleepWake s.co.ident.id ∧ s.co.issue.wait = .sleep v ∧ v.toNat ≤ s.dev.time.toNat) →
    ∃ t : State, exec i s = .next t ∧ t = { s with co := { s.co with issue := t.co.issue } } ∧
      t.co.issue.phase = .ready ∧ t.co.issue.wait = .none ∧ t.co.issue.off = s.co.issue.off ∧ t.co.issue.count = 0)

/-! ### The matrix array -/

/-- R243, R106: every matrix word meets a partial mask or split planes with MPART for EXMSET and no other effect. -/
def Obligations.MatrixPartialTraps : Prop :=  ∀ m d a b (s : State), ¬ s.co.whole →
    ∀ i ∈ ([.mcfg m a, .malloc m d a, .mfree m a b, .mldw m a, .mldwt m a, .mswap m, .mstream m a b, .mstra m a b,
        .mgather m d a b, .mrda m d a, .mwra m d a, .mzero m a b, .gang m a, .mtok m a, .mwait m] : List Instr),
      ∃ r : State, exec i s = .next (r.finishWord m) ∧ Records s r s.co.masks.exm (causeWord cMpart i.word)

/-- R245, R247 to R249, R258, R260: MCFG, MALLOC, MFREE, GANG and MWAIT. A value with a reserved bit or a stride off its
multiple of 4 is ILL, FIELD; a bank count or a bank that is not the coach's is PROT; otherwise MCFGR, the core's list of
requests with the coach's wait, or the core's banks change, and nothing else. MWAIT goes on once no operation of the coach
is queued, and until then the word stands where it is. -/
def Obligations.MatrixSetupResults : Prop :=  ∀ m (s : State), s.co.whole →
    let c := s.co
    let n := c.ident.core
    let k := s.core n
    (∀ a, ∃ r : State, exec (.mcfg m a) s = .next (r.finishWord m) ∧
      let x := c.greg a
      if [14, 15, 17, 19, 20, 21, 22, 23, 24, 25, 44, 45].any fun i => x.getLsbD i then
        Records s r c.masks.exm (causeIll subField (Instr.mcfg m a).word)
      else r = { s with co := { c with special := { c.special with mcfgr := x } } }) ∧
    (∀ d a, ∃ r : State, exec (.malloc m d a) s = .next (r.finishWord m) ∧
      let x := (c.greg a).toNat
      if x = 0 ∨ 16 * (k.part.toNat / 1024 % 32) < x then Records s r c.masks.exm (causeSpace cProt x)
      else ∃ u, SetsCore s u n { k with mallocs := k.mallocs ++ [(c.ident.id, x, d)] } ∧ EndsRun u r (.malloc x d)) ∧
    (∀ a b, let lo := (c.greg a).toNat
      let x := (c.greg b).toNat
      ∃ r : State, exec (.mfree m a b) s = .next (r.finishWord m) ∧
        ((∀ i, i < x → (lo + i, c.ident.id) ∈ k.banks) → SetsCore s r n { k with
          banks := k.banks.filter fun p => !(decide (lo ≤ p.1) && decide (p.1 < lo + x))
          freeing := k.freeing ++ (List.range x).map (lo + ·) }) ∧
        ∀ j, j < x → (∀ i, i < j → (lo + i, c.ident.id) ∈ k.banks) → (lo + j, c.ident.id) ∉ k.banks →
          Records s r c.masks.exm (causeSpace cProt (lo + j))) ∧
    (∀ a, ∃ r : State, exec (.gang m a) s = .next (r.finishWord m) ∧
      let x := c.greg a
      if s.gangOk x = false then Records s r c.masks.exm (causeWord cGangx (x.truncate 32))
      else if s.ownsToken = true then Records s r c.masks.exm (causeWord cTokx (x.truncate 32))
      else k.latch = [] → r = { s with co := { c with special := { c.special with gang := x } } }) ∧
    ((∀ op ∈ k.queue, op.isQueue = true → c.ident.id ∉ op.owners) → exec (.mwait m) s = .next (s.finishWord m)) ∧
    ((∃ op ∈ k.queue, op.isQueue = true ∧ c.ident.id ∈ op.owners) → exec (.mwait m) s = .next s)

/-- R242, R250, R256, R381: the row operations with nothing queued ahead. A row the coach does not hold is PROT. MZERO clears
the rows it names; MWRA writes 64 columns from the lanes of LIVE, +0 for the others, and nothing when a register it reads is in
error, which is the model's choice (log 39); MRDA defers the row's values for LIVE. No byte outside the rows changes. -/
def Obligations.MatrixRowResults : Prop :=  ∀ m (s : State), s.co.whole → s.memOk → (s.core s.co.ident.core).queue = [] →
    let c := s.co
    let n := c.ident.core
    let held (r : Nat) := (s.core n).banks.any fun p => p.1 == r / 64 && p.2 == c.ident.id
    (∀ a b, let lo := (c.greg a).toNat
      let x := (c.greg b).toNat
      ∃ r : State, exec (.mzero m a b) s = .next (r.finishWord m) ∧
        ((∀ i, i < x → held (lo + i) = true) → r.co = c ∧
          (∀ i, i < 256 * x → Memory.get r.mem (accRow n lo + i) = 0) ∧
          ∀ i, i < accRow n lo ∨ accRow n lo + 256 * x ≤ i → Memory.get r.mem i = Memory.get s.mem i) ∧
        ∀ j, j < x → (∀ i, i < j → held (lo + i) = true) → held (lo + j) = false →
          Records s r c.masks.exm (causeSpace cProt (lo + j))) ∧
    (∀ d a, let row := (c.greg a).toNat
      c.type = 6 ∨ c.type = 7 ∨ c.type = 8 →
      ∃ r : State, exec (.mwra m d a) s = .next (r.finishWord m) ∧
        if held row = false then Records s r c.masks.exm (causeSpace cProt row)
        else if c.issue.bad ≠ [] then r = s
        else r.co = c ∧ (∀ j, j < 64 → BitVec.ofNat 32 (r.rdNat (accRow n row + 4 * j) 4) = c.mwraColumn d j) ∧
          ∀ i, i < accRow n row ∨ accRow n row + 256 ≤ i → Memory.get r.mem i = Memory.get s.mem i) ∧
    (∀ d a, let row := (c.greg a).toNat
      let ws := s.words (accRow n row) 64
      c.type = 6 ∨ c.type = 7 ∨ c.type = 8 → s.poisoned (accRow n row) 256 = false →
      ∃ r : State, exec (.mrda m d a) s = .next (r.finishWord m) ∧
        if held row = false then Records s r c.masks.exm (causeSpace cProt row)
        else r.mem = s.mem ∧ r.co.regs = c.regs ∧ ∃ id x y f,
          r.co.issue.deferred = c.issue.deferred.map (Deferred.giveRow id ws 0) ++
            [.row id (c.phys d.toNat) (if c.type = 8 then c.phys d.toNat else c.phys (d.toNat + 1)) c.masks.live c.type c.rm
              (some (x, y, f))] ∧
          ∀ l, l < 32 → (vget x l, vget y l) = ((rowLane c.type c.rm ws l).1, (rowLane c.type c.rm ws l).2.1) ∧
            let canon (w : Nat) : Nat := if (unpack 23 w).isNan then nanBits 23 else w
            (c.type = 6 → (vget x l).toNat = canon (s.rdNat (accRow n row + 4 * l) 4) ∧
              (vget y l).toNat = canon (s.rdNat (accRow n row + 4 * (32 + l)) 4))) ∧
    ∀ d a, ¬ (c.type = 6 ∨ c.type = 7 ∨ c.type = 8) → ∀ i ∈ ([.mrda m d a, .mwra m d a] : List Instr),
      ∃ r : State, exec i s = .next (r.finishWord m) ∧ Records s r c.masks.exm (causeIll subType i.word)

/-- R241, R246, R251 to R253, R261 to R263, R265, R266: the gang instructions complete in every state. The operand checks stand
first, and a failing one records its cause and does nothing else. Then a coach whose gang was broken takes GANGX and leaves it;
a coach alone puts its operation, with its snapshot, last into the core's queue and its slot owns the token, or waits for the
token; the member of a gang that agrees waits at the latch; and where the gang does not agree it is broken, the issuer taking
GANGX.

R261, R263, R266, R267: MTOK completes in every state. A coach whose gang was broken takes GANGX and leaves it; one alone
takes TOKX for a target that is no slot of a coach and not 63, or where it would wait for the token, and otherwise hands the
token to the gang in the slot that it names, or frees it; the member of a gang that agrees waits at the latch. A gang that is
broken has no GANG value left but BRK, in any of its members, and owns the token no more. -/
def Obligations.MatrixIssueResults : Prop :=
  (
  ∀ m (s : State), s.co.whole →
    let c := s.co
    let n := c.ident.core
    let k := s.core n
    let p := c.msnap
    let g := c.special.gang
    let home x := homeScr n (c.window.scrBase + x)
    let room (x len : Nat) : Bool := decide (len = 0) || decide (x + len ≤ c.window.scrSize)
    let fails (r : State) (code : BitVec 8) (x : Nat) : Prop := Records s r c.masks.exm (causeSpace code x)
    let issued (i : Instr) (op : ArrayOp) (r : State) : Prop :=
      if g.getLsbD 63 = true then ∃ u, Records s u c.masks.exm (causeWord cGangx i.word) ∧
        r = { u with co := { u.co with special := { u.co.special with gang := 0 } } }
      else if g.extractLsb' 0 3 = 0 then
        if k.token = laneBit c.ident.slot ∨ (k.token = 0 ∧ k.joint = []) then
          SetsCore s r n { k with token := laneBit c.ident.slot, queue := k.queue ++ [op] }
        else ∃ u l, SetsCore s u n { k with joint := k.joint ++ [[l]] } ∧ EndsRun u r .token ∧
          l.coach = c.ident.id ∧ l.slot = c.ident.slot ∧ l.gang = g ∧ jointOps [l] = [op]
      else if s.gangAgrees = true then ∃ u l, SetsCore s u n { k with latch := k.latch ++ [l] } ∧ EndsRun u r .latch ∧
        l.coach = c.ident.id ∧ l.slot = c.ident.slot ∧ l.gang = g ∧ jointOps [l] = [op]
      else Records (s.breakGang n g) r (s.breakGang n g).co.masks.exm (causeWord cGangx i.word)
    let streamed (i : Instr) (fresh : Bool) (rows : List (Nat × Nat)) (r : State) : Prop :=
      match rows.find? fun q => !room q.1 (p.k * p.aSize) with
      | some q => fails r cProt q.1
      | none => match rows.find? fun q => !s.holds (q.2 / 64) with
        | some q => fails r cProt q.2
        | none => issued i (.stream [c.ident.id] fresh (rows.map fun q => (home q.1, q.2)) p) r
    (∀ a, let x := (c.greg a).toNat
      let len := if p.k = 0 then 0 else (p.k - 1) * p.wstr + p.n * p.wSize
      let lenT := if p.k = 0 then 0 else (p.n - 1) * p.wstr + p.k * p.wSize
      (∃ r : State, exec (.mldw m a) s = .next (r.finishWord m) ∧
        if x % 4 ≠ 0 then fails r cMisal x
        else if room x len then issued (.mldw m a) (.load [c.ident.id] false (home x) p) r
        else fails r cProt x) ∧
      ∃ r : State, exec (.mldwt m a) s = .next (r.finishWord m) ∧
        if x % 4 ≠ 0 then fails r cMisal x
        else if room x lenT then issued (.mldwt m a) (.load [c.ident.id] true (home x) p) r
        else fails r cProt x) ∧
    (∃ r : State, exec (.mswap m) s = .next (r.finishWord m) ∧ issued (.mswap m) (.swap [c.ident.id]) r) ∧
    (∀ a b, let x := (c.greg a).toNat
      let rows := (List.range p.m).map fun j => (x + j * p.astr, (c.greg b).toNat + j)
      (∃ r : State, exec (.mstream m a b) s = .next (r.finishWord m) ∧
        if x % 4 ≠ 0 then fails r cMisal x else streamed (.mstream m a b) true rows r) ∧
      ∃ r : State, exec (.mstra m a b) s = .next (r.finishWord m) ∧
        if x % 4 ≠ 0 then fails r cMisal x else streamed (.mstra m a b) false rows r) ∧
    ∀ d a b, let x := (c.greg a).toNat
      let y := (c.greg b).toNat
      let z := (c.greg d).toNat
      let half (l j : Nat) : Nat := s.rdNat (home l + 2 * j) 2
      ∃ r : State, exec (.mgather m d a b) s = .next (r.finishWord m) ∧
        if x % 4 ≠ 0 then fails r cMisal x
        else if y % 2 ≠ 0 then fails r cMisal y
        else if z % 2 ≠ 0 then fails r cMisal z
        else if room y (2 * p.m) = false then fails r cProt y
        else if room z (2 * p.m) = false then fails r cProt z
        else if s.poisoned (home y) (2 * p.m) = true then fails r cEcc y
        else if s.poisoned (home z) (2 * p.m) = true then fails r cEcc z
        else streamed (.mgather m d a b) false ((List.range p.m).map fun j => (x + half y j * p.astr, half z j)) r) ∧
  (
  (∀ m a (s : State), s.co.whole →
    let c := s.co
    let n := c.ident.core
    let k := s.core n
    let g := c.special.gang
    let own := laneBit c.ident.slot
    let i : Instr := .mtok m a
    let x := (c.greg a).toNat
    ∃ r : State, exec i s = .next (r.finishWord m) ∧
      if g.getLsbD 63 = true then ∃ u, Records s u c.masks.exm (causeWord cGangx i.word) ∧
        r = { u with co := { u.co with special := { u.co.special with gang := 0 } } }
      else if g.extractLsb' 0 3 = 0 then
        if ¬ (k.token = own ∨ (k.token = 0 ∧ k.joint = [])) ∨ 64 ≤ x ∨ (32 ≤ x ∧ x ≠ 63) ∨
            (x < 32 ∧ s.atSlot n x = none) then
          Records s r c.masks.exm (causeWord cTokx i.word)
        else SetsCore s r n { k with token :=
          if x = 63 then 0 else if own.getLsbD x then own else ((s.atSlot n x).map Coach.gangMask).getD own }
      else if s.gangAgrees = true then ∃ u l, SetsCore s u n { k with latch := k.latch ++ [l] } ∧ EndsRun u r .latch ∧
        l.coach = c.ident.id ∧ l.slot = c.ident.slot ∧ l.gang = g ∧ l.op = 13 ∧ l.a = x
      else Records (s.breakGang n g) r (s.breakGang n g).co.masks.exm (causeWord cGangx i.word)) ∧
  ∀ (s : State) n g, let k := s.core n
    let u := s.breakGang n g
    (∀ l ∈ k.latch, l.gang ≠ g) → s.co.present = true →
    u.core n = { k with token := if k.token = maskOf (gangSlots g) then 0 else k.token } ∧ u.mem = s.mem ∧
    (s.co.ident.core = n → s.co.special.gang = g → u.co.special.gang = 1#64 <<< 63) ∧
    ∀ x ∈ s.coaches, x.present = true → x.ident.core = n → x.special.gang = g → x.ident.id ≠ s.co.ident.id →
      ∃ y ∈ u.coaches, y.ident = x.ident ∧ y.special.gang = 1#64 <<< 63)

/-- R241, R251, R252, R376, R378: the array performs the head of a core's queue, whose bands have their clock. A swap exchanges the two weight planes. A load writes
the shadow plane alone: row 32 * band + k takes the tile's row, zero beyond N, and no byte of the active plane or of the rest
of memory changes. The operation leaves the queue.

R253, R254, R258: a stream injects its next row: each of the N columns of the accumulator row becomes the F32 sum, band
by band, of the band's exact sum of products rounded once, on 0 or on the old value; no byte outside the row's N words
changes, and the stream leaves the queue with its last row. -/
def Obligations.ArrayWork : Prop :=
  (
  ∀ n (s : State) op rest, s.memOk → (s.core n).queue = op :: rest → op.selects &&& (s.core n).gated = 0 →
    (s.quad (n / 4)).changing = false →
    (∀ ms, op = .swap ms → ∃ t : State, exec (.arrayOperationComplete n) s = .next t ∧ (t.core n).queue = rest ∧
      (∀ i, i < 16384 → Memory.get t.mem (homeWgt n i) = Memory.get s.mem (homeWgt n (16384 + i)) ∧
        Memory.get t.mem (homeWgt n (16384 + i)) = Memory.get s.mem (homeWgt n i)) ∧
      (∀ a, a < homeWgt n 0 ∨ homeWgt n 32768 ≤ a → Memory.get t.mem a = Memory.get s.mem a) ∧ t.co = s.co) ∧
    ∀ ms tr a p, op = .load ms tr a p →
      (∀ len, s.poisoned a len = false) →
      ∃ t : State, exec (.arrayOperationComplete n) s = .next t ∧ (t.core n).queue = rest ∧ t.co = s.co ∧
        (∀ k j, k < p.k → j < 64 →
          t.rdNat (homeWgt n (16384 + 128 * (32 * (p.bands.getD (k / 32) 0) + k % 32) + 2 * j)) 2 =
            if j < p.n then
              s.bfElem p.wF32 (if tr then a + j * p.wstr + k * p.wSize else a + k * p.wstr + j * p.wSize)
            else 0) ∧
        ∀ x, x < homeWgt n 16384 ∨ homeWgt n 32768 ≤ x → Memory.get t.mem x = Memory.get s.mem x) ∧
  (
  ∀ n (s : State) rest ms fresh a row rows p, s.memOk → (s.core n).queue = .stream ms fresh ((a, row) :: rows) p :: rest →
    p.asr &&& (s.core n).gated = 0 → (s.quad (n / 4)).changing = false → (∀ x len, s.poisoned x len = false) →
    ∃ t : State, exec (.arrayOperationComplete n) s = .next t ∧ t.co = s.co ∧
      (t.core n).queue = (if rows = [] then rest else .stream ms fresh rows p :: rest) ∧
      (∀ j, j < p.n → BitVec.ofNat 32 (t.rdNat (accRow n row + 4 * j) 4) =
        (p.bands.zip (List.range p.bands.length)).foldl (fun acc q =>
          let pairs := (List.range 32).map fun i =>
            (bfFlush (s.bfElem p.aF32 (a + (32 * q.2 + i) * p.aSize)),
              bfFlush (s.rdNat (homeWgt n (128 * (32 * q.1 + i) + 2 * j)) 2))
          BitVec.ofNat 32 (fadd 23 0 acc.toNat (bandSum pairs)).1)
          (if fresh then 0 else BitVec.ofNat 32 (s.rdNat (accRow n row + 4 * j) 4))) ∧
      ∀ x, x < accRow n row ∨ accRow n row + 4 * p.n ≤ x → Memory.get t.mem x = Memory.get s.mem x)

/-- R248, R249, R261 to R263, R265, R376: the steps of a core's controller while its quad's clock is stable. The oldest MALLOC takes its run of free banks, zeroed,
and its coach goes on with the first bank's number; a freed bank that no queued operation names becomes free; a gang that is
at the latch whole, its members in agreement, takes a free token and its joint operation stands in the queue; one whose
members differ leaves the latch and frees its token; a free token goes to the gang whose rendezvous completed first. -/
def Obligations.MatrixSteps : Prop :=  (∀ (s : State) n d b rest, (s.quad (s.co.ident.core / 4)).changing = false → let c := s.co
    let k := s.core c.ident.core
    k.mallocs = (c.ident.id, n, d) :: rest → k.freeRun n = some b → c.issue.phase = .waiting → c.traps.ecc = [] →
    c.traps.eccBare = none → s.memOk →
    ∃ t : State, exec (.mallocGrant c.ident.core) s = .next t ∧
      (t.core c.ident.core) = { k with mallocs := rest, banks := k.banks ++ (List.range n).map fun i => (b + i, c.ident.id) } ∧
      (∀ j, t.co.greg j = if j = d ∧ d ≠ 0 then BitVec.ofNat 64 b else c.greg j) ∧ t.co.issue.phase = .ready ∧
      t.co.regs.v = c.regs.v ∧
      (∀ i, i < 16384 * n → Memory.get t.mem (homeAcc c.ident.core (16384 * b) + i) = 0) ∧
      ∀ a, a < homeAcc c.ident.core (16384 * b) ∨ homeAcc c.ident.core (16384 * b) + 16384 * n ≤ a →
        Memory.get t.mem a = Memory.get s.mem a) ∧
  (∀ (s : State) n b, (s.quad (n / 4)).changing = false → b ∈ (s.core n).freeing → (∀ op ∈ (s.core n).queue, op.names b = false) →
    ∃ t : State, exec (.bankRelease n b) s = .next t ∧
      SetsCore s t n { s.core n with freeing := (s.core n).freeing.filter fun x => x != b }) ∧
  (∀ (s : State) n g l, (s.quad (n / 4)).changing = false → let k := s.core n
    let ls := k.atLatch g
    l ∈ k.latch → (∀ x ∈ k.latch, x.gang = g) → ls.length = (gangSlots g).length →
    (∀ x ∈ ls, ∀ y ∈ ls, x.differs y = false) → l.op ≠ 13 → k.token = 0 → k.joint = [] →
    ∃ t : State, exec (.gangRendezvous n) s = .next t ∧ t.mem = s.mem ∧
      t.core n = { k with latch := [], token := l.mask, queue := k.queue ++ jointOps ls }) ∧
  (∀ (s : State) n g, (s.quad (n / 4)).changing = false → let k := s.core n
    g ∈ k.latch.map (·.gang) → (∀ x ∈ k.latch, x.gang = g) → (∃ x ∈ k.latch, ∃ y ∈ k.latch, x.differs y = true) →
    ∃ t : State, exec (.gangRendezvous n) s = .next t ∧
      t.core n = { k with latch := [], token := if k.token = maskOf (gangSlots g) then 0 else k.token }) ∧
  ∀ (s : State) n l ls rest, (s.quad (n / 4)).changing = false → let k := s.core n
    k.joint = (l :: ls) :: rest → k.token = 0 →
    ∃ t : State, exec (.tokenGrant n) s = .next t ∧ t.mem = s.mem ∧
      t.core n = { k with token := l.mask, joint := rest, queue := k.queue ++ jointOps (l :: ls) }

/-! ### Traps, special registers, issue -/

/-- R103, R345, R346: SYSC, HVC and BKPT complete in every state: each active lane records its call with its own value, and
HVC in U mode records PRIV for the EXM lanes of its plane.

R330, R335, R336, R337: the entry into a handler of a trap that is neither a call nor at the depth limit: the frame resumes at
the offset itself with RX set, TMASK is the trapping lanes, EXM becomes them, the fetch limit is the vector's stride, and each trapping lane's LTCAUSE and
LTVAL receive its cause, those of the other lanes staying. An entry into H sets HCAUSE.

R332, R333, R335 to R337, R345, R346: a call at the last word of an offset enters its handler at once. SYSC and BKPT from
U or S go to S, where SVEC is valid; HVC from S goes to H, where HVEC is valid. The frame holds the old EXM, the calling
lanes, the offset after the call with RX clear, the old mode, segment, planes and modes; EXM becomes the calling lanes; planes
and modes are reset; LTCAUSE and LTVAL hold the call of each lane; issue begins at offset 0 of the vector's segment. Memory
and every register file stay. That the deferred results land and the trap is taken in the step of the offset's last word is
the model's reading (log 24). -/
def Obligations.CallsEnterHandlers : Prop :=
  (
  (∀ m a (s : State), ∃ r : State, exec (.sysc m a) s = .next (r.finishWord m) ∧
    RecordsEach s r s.co.active fun l => causeWord cSysc (s.co.vreg a.toNat l)) ∧
  (∀ m n (s : State), ∃ r : State, exec (.bkpt m n) s = .next (r.finishWord m) ∧
    RecordsEach s r s.co.active fun _ => causeWord cBkpt (Instr.bkpt m n).word) ∧
  (∀ m a (s : State), s.co.traps.mode ≠ .u → ∃ r : State, exec (.hvc m a) s = .next (r.finishWord m) ∧
    RecordsEach s r s.co.active fun l => causeWord cHvc (s.co.vreg a.toNat l)) ∧
  ∀ m a (s : State), s.co.traps.mode = .u → ∃ r : State, exec (.hvc m a) s = .next (r.finishWord m) ∧
    Records s r s.co.planeLanes (causeWord cPriv (Instr.hvc m a).word)) ∧
  (
  ∀ (s : State) g, s.target = g → g ≠ 3 → s.co.traps.frames.length < 4 → s.co.traps.ecc = [] →
    s.co.traps.eccBare = none → (∀ p ∈ s.co.issue.traps, isCall p.2.code = false) → s.co.issue.traps ≠ [] → s.co.issue.bare = none →
    let t := s.takeTrap
    t.mem = s.mem ∧ t.co.regs = s.co.regs ∧ t.co.masks.exm = s.co.trapMask ∧
    (∃ f, t.co.traps.frames = f :: s.co.traps.frames ∧ f.saveExm = s.co.masks.exm ∧ f.tmask = s.co.trapMask ∧
      f.saveOff = BitVec.ofInt 32 s.co.issue.off ∧ f.rx = true ∧ f.mode = s.co.traps.mode ∧
      f.saveSeg = s.co.segs.seg.word ∧ f.planes = s.co.masks.plane ∧ f.modes = s.co.masks.modes) ∧
    t.co.segs.lim = 2 ^ (t.co.segs.seg.lst.toNat + 6) ∧
    (g = 1 → t.co.traps.mode = .s ∧ t.co.segs.seg = Seg.ofWord s.co.special.svec ∧ t.co.special = s.co.special) ∧
    (g = 2 → t.co.traps.mode = .h ∧ t.co.segs.seg = Seg.ofWord s.dev.hvec ∧
      t.co.special = { s.co.special with hcause := hcauseOf s.co.traps.mode 0 s.co.firstCause.code }) ∧
    ((∀ p ∈ s.co.issue.traps, p.1 < 32) → (s.co.issue.traps.map (·.1)).Nodup → ∀ l, l < 32 →
      (∀ k, (l, k) ∈ s.co.issue.traps → vget t.co.traps.ltcause l = k.word ∧ vget t.co.traps.ltval l = k.val) ∧
      ((∀ k, (l, k) ∉ s.co.issue.traps) → vget t.co.traps.ltcause l = vget s.co.traps.ltcause l ∧
        vget t.co.traps.ltval l = vget s.co.traps.ltval l))) ∧
  (
  ∀ i m a n (s : State) code val vec goal, s.lastWord → s.co.active ≠ 0 → s.co.traps.frames.length < 4 →
    ((i = Instr.sysc m a ∧ code = cSysc ∧ val = s.co.vreg a.toNat ∧ goal = Mode.s ∧ vec = s.co.special.svec ∧
        s.co.traps.mode ≠ .h) ∨
      (i = .bkpt m n ∧ code = cBkpt ∧ (val = fun _ => i.word) ∧ goal = .s ∧ vec = s.co.special.svec ∧ s.co.traps.mode ≠ .h) ∨
      (i = .hvc m a ∧ code = cHvc ∧ val = s.co.vreg a.toNat ∧ goal = .h ∧ vec = s.dev.hvec ∧ s.co.traps.mode = .s)) →
    vec.getLsbD 63 = true →
    ∃ t : State, exec i s = .next t ∧ t.co.traps.mode = goal ∧ t.co.masks.exm = s.co.active ∧ t.co.masks.live = s.co.masks.live ∧
      (∃ f, t.co.traps.frames = f :: s.co.traps.frames ∧ f.saveExm = s.co.masks.exm ∧ f.tmask = s.co.active ∧
        f.saveOff = BitVec.ofInt 32 (s.co.issue.off + 1) ∧ f.rx = false ∧ f.mode = s.co.traps.mode ∧
        f.saveSeg = s.co.segs.seg.word ∧ f.planes = s.co.masks.plane ∧ f.modes = s.co.masks.modes) ∧
      (∀ l, l < 32 → t.co.planeOf l = 0) ∧ (∀ p, p < 4 → vget t.co.masks.modes p = modeReset) ∧
      t.co.segs.seg = Seg.ofWord vec ∧ t.co.segs.lim = 2 ^ ((Seg.ofWord vec).lst.toNat + 6) ∧ t.co.issue.off = 0 ∧ t.co.issue.phase = .ready ∧
      (∀ l, l < 32 → vget t.co.traps.ltcause l =
          (if s.co.active.getLsbD l then code.zeroExtend 32 else vget s.co.traps.ltcause l) ∧
        vget t.co.traps.ltval l = if s.co.active.getLsbD l then val l else vget s.co.traps.ltval l) ∧
      t.mem = s.mem ∧ t.co.regs = s.co.regs ∧ t.co.wbuf = s.co.wbuf)

/-- R340, R341: TRET completes in every state. Below S mode it records PRIV; in S or H it ends the run with the return as its
wait, and at the last word of an offset it restores the newest frame at once: EXM as saved but within LIVE, planes, modes,
mode, segment, and the offset; with RX the lanes still to re-execute are those of TMASK in EXM, and with none of them issue
goes on after that offset. Memory and the register files stay. -/
def Obligations.TrapReturns : Prop :=  (∀ m (s : State), s.co.traps.mode = .u → ∃ r : State, exec (.tret m) s = .next (r.finishWord m) ∧
    Records s r s.co.masks.exm (causeWord cPriv (Instr.tret m).word)) ∧
  (∀ m (s : State), s.co.traps.mode ≠ .u → ∃ r : State, exec (.tret m) s = .next (r.finishWord m) ∧ EndsRun s r .tret) ∧
  ∀ m (s : State) f rest, s.co.traps.mode ≠ .u → s.lastWord → s.co.traps.frames = f :: rest →
    ∃ t : State, exec (.tret m) s = .next t ∧ t.mem = s.mem ∧ t.co.regs = s.co.regs ∧ t.co.special = s.co.special ∧
      t.co.issue.phase = .ready ∧
      let exm := f.saveExm &&& s.co.masks.live
      let x := f.tmask &&& exm
      t.co.masks = { exm := exm, live := s.co.masks.live, plane := f.planes, modes := f.modes } ∧
        t.co.traps.frames = rest ∧ t.co.traps.mode = f.mode ∧ t.co.segs.seg = Seg.ofWord f.saveSeg ∧
        t.co.segs.lim = (let g := Seg.ofWord f.saveSeg
          let h := s.co.segs.home
          if g.base = h.base ∧ g.plm1 = h.plm1 ∧ g.lst = h.lst then s.co.segs.homeLen else 2 ^ (g.lst.toNat + 6)) ∧
        t.co.issue.off = f.saveOff.toNat + (if f.rx = true ∧ x = 0 then 1 else 0) ∧
        t.co.issue.rex = if f.rx = true ∧ x ≠ 0 then some x else none

/-- R334: where a trap goes. A cause of U goes to S, of S to H, of H nowhere; SYSC and BKPT go to S from U and S and to H
from H, HVC to H. An entry whose lanes have causes with different targets goes to the highest; one with no lane goes where its
cause does. S without a valid SVEC gives way to H, and H without a valid HVEC to a halt (3).

R335, R337, R338, R373: a trap with no handler, or with the trap stack full. Routed nowhere, the coach halts. With four
frames, a trap below H with a valid HVEC enters H with TSTK in place of each lane's cause, whose code is the lane's value, no
frame pushed, HCAUSE naming the first cause; in H, or without a valid HVEC, the coach halts. A halt ends the coach's haul with
FAULT (status 6), with the first cause's code, or TSTK's where a full trap stack halts it. Neither touches memory. That ORIG,
and the halt's cause, are those of the lowest-numbered trapping lane is the model's reading (log 28). -/
def Obligations.TrapsThatHalt : Prop :=
  (
  ∀ (s : State),
    let c := s.co
    let of (k : BitVec 8) : Nat := if k = cSysc ∨ k = cBkpt then (if c.traps.mode = .h then 2 else 1) else if k = cHvc then 2
      else if c.traps.mode = .u then 1 else if c.traps.mode = .s then 2 else 3
    let goes (r : Nat) : Nat :=
      let r := if r = 1 ∧ c.special.svec.getLsbD 63 = false then 2 else r
      if r = 2 ∧ s.dev.hvec.getLsbD 63 = false then 3 else r
    (∀ p ∈ c.causes, (∀ q ∈ c.causes, of q.2.code ≤ of p.2.code) → s.target = goes (of p.2.code)) ∧
    ∀ k, c.causes = [] → c.issue.bare.or c.traps.eccBare = some k → s.target = goes (of k.code)) ∧
  (
  ∀ s : State,
    (s.target = 3 → s.takeTrap.co.issue.phase = .halted ∧ s.takeTrap.mem = s.mem ∧ s.takeTrap.co.regs = s.co.regs ∧
      ∀ h ∈ s.takeTrap.hauls, h.id = s.co.ident.haul → (∀ g ∈ s.hauls, g.id = h.id → g.ended = none) →
        ∃ d f, h.ended = some (6, d, f) ∧ d.truncate 8 = s.co.firstCause.code) ∧
    (s.target ≠ 3 → 4 ≤ s.co.traps.frames.length → s.co.traps.mode ≠ .h → s.dev.hvec.getLsbD 63 = true →
      let t := s.takeTrap
      t.co.traps.mode = .h ∧ t.co.traps.frames = s.co.traps.frames ∧ t.co.masks.exm = s.co.trapMask ∧
      t.co.special.hcause = hcauseOf s.co.traps.mode s.co.firstCause.code cTstk ∧ t.mem = s.mem ∧ t.co.issue.off = 0 ∧
      ∀ p ∈ s.co.causes, (∀ q ∈ s.co.causes, q.1 % 32 = p.1 % 32 → q = p) →
        vget t.co.traps.ltcause p.1 = (causeWord cTstk 0).word ∧ vget t.co.traps.ltval p.1 = p.2.code.zeroExtend 32) ∧
    (s.target ≠ 3 → 4 ≤ s.co.traps.frames.length → s.co.traps.mode = .h ∨ s.dev.hvec.getLsbD 63 = false →
      s.takeTrap.co.issue.phase = .halted ∧ s.takeTrap.mem = s.mem ∧
      ∀ h ∈ s.takeTrap.hauls, h.id = s.co.ident.haul → (∀ g ∈ s.hauls, g.id = h.id → g.ended = none) →
        ∃ d, h.ended = some (6, d, 0) ∧ d.truncate 8 = cTstk))

/-- R107 to R109, R349: SRR and SRRL. An index not listed is ILL, SREG, for the EXM lanes of the plane, a mode below the one
that may read it PRIV; otherwise the register named is read, reserved bits as zero, and nothing else changes. ASID, PTBASE and S2BASE read what the
offset has written to them.

R107, R108, R127, R260, R331, R339, R349, R356: SRW and SRWL. An index no mode may write is ILL, SREG, a mode below the
one that may PRIV. Of the rest: EXM keeps within LIVE; FFLAGS, ASR, SEGB, SVEC, HVEC and HCAUSE take the value, a malformed
one being ILL, FIELD; GANG acts as GANG does; ASID, PTBASE and S2BASE wait for the end of the offset; a frame register takes
the value into the newest frame, and is ignored without one; VFSEL and CMXSEL within their ranges select the VF and the row
that the other VF registers and CMXROW write, and a changed register of a locked VF, or a changed row of one of its quads, moves it to ERROR; FLR in VFCTL starts the VF's reset (R360). SRWL writes LTCAUSE or
LTVAL in the active lanes. Nothing else changes. The order of SREG, PRIV and FIELD is the model's reading (log 66). -/
def Obligations.SpecialRegisters : Prop :=
  (
  (∀ m d i (s : State), ∃ r : State, exec (.srr m d i) s = .next (r.finishWord m) ∧
    let w := (Instr.srr m d i).word
    let n := i.toNat
    let need := if n ≤ 0x10 then some 0 else if 0x20 ≤ n ∧ n ≤ 0x2C then some 1
      else if 0x30 ≤ n ∧ n ≤ 0x3B then some 2 else none
    match need with
    | none => Records s r s.co.planeLanes (causeIll subSreg w)
    | some k => if s.co.traps.mode.rank < k then Records s r s.co.planeLanes (causeWord cPriv w)
        else WritesG s r d (s.sreg n)) ∧
  (∀ (s : State), let c := s.co
    let k := s.core c.ident.core
    let v := s.vf s.dev.vfsel
    (∀ p ∈ ([(0x00, c.masks.exm.toNat), (0x01, c.window.win), (0x02, c.segs.seg.plm1.toNat + 1),
        (0x03, c.segs.seg.base.toNat), (0x04, k.cycle.toNat), (0x05, s.dev.time.toNat), (0x06, c.special.fflags.toNat),
        (0x07, c.special.gang.toNat), (0x08, k.token.toNat), (0x09, c.special.asr.toNat), (0x0A, k.ric.toNat),
        (0x0B, c.ident.level), (0x0C, c.special.nbound), (0x0D, c.special.pgc.toNat), (0x0E, c.window.sps),
        (0x0F, c.window.rsp), (0x10, c.special.mcfgr.toNat), (0x20, c.traps.mode.code.toNat),
        (0x21, (c.special.svec &&& 0xFF0FFFFFFFFFFFFF#64).toNat), (0x22, c.traps.frames.length),
        (0x2B, (c.issue.newAsid.getD c.special.asid).toNat), (0x2C, (c.issue.newRoot.getD c.special.ptbase).toNat),
        (0x30, (s.dev.hvec &&& 0xFF0FFFFFFFFFFFFF#64).toNat), (0x31, s.dev.vfsel), (0x32, v.quads.toNat),
        (0x33, v.memp.toNat), (0x34, v.queues.toNat), (0x35, v.slice.toNat),
        (0x36, v.en.toNat + 2 * v.shr.toNat + 8 * v.flrb.toNat + 16 * v.lock.toNat + 4096 * v.dpasid.toNat),
        (0x37, s.dev.cmxsel), (0x38, (vget s.dev.cmxrow s.dev.cmxsel).toNat), (0x3A, v.key.toNat),
        (0x3B, c.special.hcause.toNat)] : List (Nat × Nat)),
      s.sreg p.1 = BitVec.ofNat 64 p.2) ∧
    ((∀ p ∈ c.issue.newS2, p.1 ≠ s.dev.vfsel) → s.sreg 0x39 = v.s2base) ∧
    (∀ l x, c.issue.newS2 = l ++ [(s.dev.vfsel, x)] → s.sreg 0x39 = x) ∧
    (c.traps.frames = [] → ∀ n, 0x23 ≤ n → n ≤ 0x2A → s.sreg n = 0) ∧
    ∀ f rest, c.traps.frames = f :: rest → s.sreg 0x23 = f.tmask.zeroExtend 64 ∧ s.sreg 0x24 = f.saveExm.zeroExtend 64 ∧
      s.sreg 0x25 = BitVec.ofNat 64 (f.saveOff.toNat + (if f.rx then 2 ^ 32 else 0) + f.mode.code.toNat * 2 ^ 33) ∧
      s.sreg 0x26 = f.saveSeg &&& 0xFF0FFFFFFFFFFFFF#64 ∧ ∀ p, p < 4 → s.sreg (0x27 + p) = (vget f.modes p).zeroExtend 64) ∧
  ∀ m d i (s : State), ∃ r : State, exec (.srrl m d i) s = .next (r.finishWord m) ∧
    let w := (Instr.srrl m d i).word
    if 3 < i.toNat then Records s r s.co.planeLanes (causeIll subSreg w)
    else if i.toNat < 2 ∧ s.co.traps.mode = .u then Records s r s.co.planeLanes (causeWord cPriv w)
    else WritesVec s r d fun l => if i = 0 then vget s.co.traps.ltcause l else if i = 1 then vget s.co.traps.ltval l
      else if i = 2 then (s.co.planeOf l).zeroExtend 32 else BitVec.ofNat 32 l) ∧
  (
  ∀ m i b (s : State), let w := (Instr.srw m i b).word
    let n := i.toNat
    let x := s.co.greg b
    let rank := s.co.traps.mode.rank
    (∃ r : State, exec (.srw m i b) s = .next (r.finishWord m) ∧
      (n ∉ [0x00, 0x03, 0x06, 0x07, 0x09, 0x21] → ¬ (0x23 ≤ n ∧ n ≤ 0x2C) → ¬ (0x30 ≤ n ∧ n ≤ 0x3B ∧ n ≠ 0x3A) →
        Records s r s.co.planeLanes (causeIll subSreg w)) ∧
      (n = 0x03 ∨ n = 0x21 ∨ (0x23 ≤ n ∧ n ≤ 0x2C) → rank < 1 → Records s r s.co.planeLanes (causeWord cPriv w)) ∧
      (0x30 ≤ n ∧ n ≤ 0x3B ∧ n ≠ 0x3A → rank < 2 → Records s r s.co.planeLanes (causeWord cPriv w)) ∧
      (n = 0x00 → r = { s with co := { s.co with masks := { s.co.masks with exm := x.truncate 32 &&& s.co.masks.live } } }) ∧
      (n = 0x06 → r = { s with co := { s.co with special := { s.co.special with fflags := x.truncate 5 } } }) ∧
      (n = 0x09 → r = { s with co := { s.co with special := { s.co.special with asr := x.truncate 4 } } }) ∧
      (n = 0x21 → 1 ≤ rank → if segBad x then Records s r s.co.planeLanes (causeIll subField w)
        else r = { s with co := { s.co with special := { s.co.special with svec := x } } }) ∧
      (n = 0x30 → 2 ≤ rank → if segBad x then Records s r s.co.planeLanes (causeIll subField w)
        else r = { s with dev := { s.dev with hvec := x } }) ∧
      (n = 0x2B → 1 ≤ rank → r = { s with co := { s.co with issue := { s.co.issue with newAsid := some (x.truncate 16) } } }) ∧
      (n = 0x2C → 1 ≤ rank → ∃ y, y = x &&& 0x000FFFFFFFFFF000#64 ∧
        r = { s with co := { s.co with issue := { s.co.issue with newRoot := some y } } }) ∧
      (n = 0x03 → 1 ≤ rank →
        if 2 ^ 52 ≤ x.toNat ∨ x.toNat % s.co.segs.seg.stride ≠ 0 then Records s r s.co.planeLanes (causeIll subField w)
        else r = { s with co := { s.co with segs := { s.co.segs with seg := { s.co.segs.seg with base := x.truncate 52 } } } }) ∧
      (n = 0x07 →
        if s.gangOk x = false then Records s r s.co.masks.exm (causeWord cGangx (x.truncate 32))
        else if s.ownsToken = true then Records s r s.co.masks.exm (causeWord cTokx (x.truncate 32))
        else (s.core s.co.ident.core).latch = [] →
          r = { s with co := { s.co with special := { s.co.special with gang := x } } }) ∧
      (0x23 ≤ n ∧ n ≤ 0x2A → 1 ≤ rank → s.co.traps.frames = [] → r = s) ∧
      (∀ f rest, s.co.traps.frames = f :: rest → 1 ≤ rank →
        let takes (g : Frame) : Prop := r = { s with co := { s.co with traps := { s.co.traps with frames := g :: rest } } }
        (n = 0x23 → takes { f with tmask := x.truncate 32 }) ∧ (n = 0x24 → takes { f with saveExm := x.truncate 32 }) ∧
        (n = 0x25 → takes { f with saveOff := x.truncate 32, rx := x.getLsbD 32 }) ∧
        (n = 0x26 → if segBad x then Records s r s.co.planeLanes (causeIll subField w) else takes { f with saveSeg := x }) ∧
        ∀ p, p < 4 → n = 0x27 + p → match modeBad x with
          | some sub => Records s r s.co.planeLanes (causeIll sub w)
          | none => takes { f with modes := vset f.modes p (x.truncate 32) }) ∧
      (2 ≤ rank →
        let bad : Prop := Records s r s.co.planeLanes (causeIll subField w)
        let y := s.dev.vfsel
        let v := s.vf y
        let p := s.dev.cmxsel
        let sets (old : Dword) (k : Machine.Vf) : Prop :=
          (v.lock = false ∨ old = x → SetsVf s r y k) ∧ (v.lock = true → old ≠ x → (r.vf y).error = true)
        (n = 0x31 → if 31 < x.toNat then bad else r = { s with dev := { s.dev with vfsel := x.toNat } }) ∧
        (n = 0x32 → sets v.quads { v with quads := x }) ∧ (n = 0x33 → sets v.memp { v with memp := x }) ∧
        (n = 0x34 → sets v.queues { v with queues := x }) ∧
        (n = 0x35 → if 2 ^ 16 ≤ x.toNat then bad else SetsVf s r y { v with slice := x.truncate 16 }) ∧
        (n = 0x36 → if 2 ^ 32 ≤ x.toNat ∨ x.toNat / 32 % 128 ≠ 0 ∨ (x.getLsbD 0 = true ∧ s.enBad y (x.getLsbD 1) = true)
          then bad
          else ∃ u : State, SetsVf s u y { v with
              en := x.getLsbD 0, shr := x.getLsbD 1, dpasid := x.extractLsb' 12 20 } ∧
            (x.getLsbD 2 = false → r = u) ∧
            (x.getLsbD 2 = true → y < 32 → exec (.functionLevelReset y) u = .next r)) ∧
        (n = 0x37 → if 71 < x.toNat then bad else r = { s with dev := { s.dev with cmxsel := x.toNat } }) ∧
        (n = 0x38 →
          let listed (k : Nat) : Prop := p < 64 ∧ (s.vf k).lock = true ∧ (s.vf k).quads.getLsbD p = true
          (vget s.dev.cmxrow p = x ∨ (∀ k, k < 32 → ¬ listed k) → r = { s with dev := { s.dev with cmxrow := r.dev.cmxrow } }) ∧
          (vget s.dev.cmxrow p ≠ x → ∀ k, k < 32 → listed k → (r.vf k).error = true) ∧
          ∀ q, q < 72 → vget r.dev.cmxrow q = if q = p % 72 then x else vget s.dev.cmxrow q) ∧
        (n = 0x39 → if 2 ^ 52 ≤ x.toNat ∨ x.toNat % 2 ^ 12 ≠ 0 then bad else
          (v.lock = false ∨ v.s2base = x →
            r = { s with co := { s.co with issue := { s.co.issue with newS2 := s.co.issue.newS2 ++ [(y, x)] } } }) ∧
          (v.lock = true → v.s2base ≠ x → (r.vf y).error = true))) ∧
      (n = 0x3B → 2 ≤ rank → r = { s with co := { s.co with special := { s.co.special with
        hcause := x &&& 0x3FFFF#64 } } })) ∧
    ∃ r : State, exec (.srwl m i b) s = .next (r.finishWord m) ∧
      let v := (Instr.srwl m i b).word
      if 1 < n then Records s r s.co.planeLanes (causeIll subSreg v)
      else if s.co.traps.mode = .u then Records s r s.co.planeLanes (causeWord cPriv v)
      else r = { s with co := { s.co with traps := { s.co.traps with
          ltcause := r.co.traps.ltcause, ltval := r.co.traps.ltval } } } ∧
        ∀ l, l < 32 →
          vget r.co.traps.ltcause l = (if n = 0 ∧ s.co.active.getLsbD l = true then s.co.vreg b.toNat l
            else vget s.co.traps.ltcause l) ∧
          vget r.co.traps.ltval l = if n = 1 ∧ s.co.active.getLsbD l = true then s.co.vreg b.toNat l
            else vget s.co.traps.ltval l)

/-- R94, R100, R112, R119, R349, R381: what follows a word's effect. With planes left, the next occupied plane's word is due,
the lanes that read an erroneous register have recorded it, and nothing else moves. After the last word, with nothing
recorded, writes of ASID, PTBASE and S2BASE come into force, and the coach stands at NEXT. A marked word or one that ends the
run parks it; with no result outstanding the park is over at once, and the coach is ready for its next run. Memory, every
register file, mask and mode stay. A coach that its own word has stopped (R360) issues nothing further. That a trap is taken with the last word of the offset is log 24, and that the 24th offset
issues before RUN_LIMIT parks is log 64: readings of the model.

R117, R332, R106, R381: a cause recorded at the offset, an error in a register that a lane read among them, is taken once its last word has issued: with no result outstanding and
the quad's clock stable the coach is then in a handler, or halted; with the clock changing the trap is held. -/
def Obligations.WordsEnd : Prop :=
  (
  ∀ (r : State) m, (r.co.issue.phase = .halted → r.finishWord m = r) ∧ (r.co.issue.phase ≠ .halted →
    (∀ p ps, r.co.issue.todo = p :: ps →
      let t := r.finishWord m
      t = { r with co := { r.co with issue := { r.co.issue with
        marked := r.co.issue.marked || m, plane := p, todo := ps, traps := t.co.issue.traps, bad := t.co.issue.bad } } } ∧
      (∀ l, t.co.causeOf l = (r.co.causeOf l).or ((r.co.issue.bad.find? fun q => q.1 == l).map (·.2))) ∧
      (r.co.regs.bad = [] → t.co.issue.bad = [])) ∧
    (r.co.issue.todo = [] → r.co.issue.traps = [] → r.co.issue.bare = none → r.co.issue.bad = [] → r.co.issue.wait ≠ .tret →
      let t := r.finishWord m
      let i := r.co.issue
      let ends := i.marked || m || i.ends
      (ends = false ∨ i.deferred ≠ [] → t.co.issue = { i with
        marked := i.marked || m, open_ := false, count := i.count + 1, off := i.next, rex := none, newAsid := none
        newRoot := none, newS2 := []
        phase := if ends then .parked else i.phase }) ∧
      (ends = true → i.deferred = [] → i.spill = [] → i.refill = [] → i.wait = .none → r.co.traps.ecc = [] →
        r.co.traps.eccBare = none →
        t.co.issue.phase = .ready ∧ t.co.issue.off = i.next ∧ t.co.issue.count = 0 ∧ t.co.issue.since = r.fresh) ∧
      (ends = false ∨ i.deferred ≠ [] ∨ (i.spill = [] ∧ i.refill = [] ∧ i.wait = .none ∧ r.co.traps.ecc = [] ∧
          r.co.traps.eccBare = none) →
        t = { r with vfs := t.vfs, co := { r.co with issue := t.co.issue, special := { r.co.special with
          asid := i.newAsid.getD r.co.special.asid, ptbase := i.newRoot.getD r.co.special.ptbase } } } ∧
        (i.newS2 = [] → t.vfs = r.vfs))))) ∧
  (
  ∀ (r : State) m, r.co.issue.phase ≠ .halted → r.co.issue.todo = [] → (r.co.issue.traps ≠ [] ∨ r.co.issue.bare ≠ none ∨ r.co.issue.bad ≠ []) →
    r.co.issue.deferred = [] →
    r.co.issue.spill = [] → r.co.issue.refill = [] →
    ((r.quad (r.co.ident.core / 4)).changing = false → (r.finishWord m).mem = r.mem ∧
      ((r.finishWord m).co.issue.phase = .halted ∨ (r.finishWord m).co.issue.phase = .ready ∧
        (r.finishWord m).co.issue.off = 0 ∧ (r.finishWord m).co.traps.mode ≠ .u)) ∧
    ((r.quad (r.co.ident.core / 4)).changing = true →
      (r.finishWord m).co.issue.phase = .parked ∧ (r.finishWord m).co.traps.held = true))

/-- R115 to R117, R184, R206, R242, R256, R297, R381: the park writes the deferred results in the order of issue, each in its
lanes of the physical register resolved at issue, later over earlier, and leaves none: lane values with their flags, group
registers, lane predicates, the sticky flags that FFLGR reads, and the accumulator rows that the array has delivered. A load
takes the bytes its coach had buffered or filled and the rest from the word that stands for their granule now, byte by byte:
the model's reading (log 8); a load that meets an error keeps its destination, and its lanes report it. -/
def Obligations.ParkLands : Prop :=  (∀ s : State, s.landAll.co.issue.deferred = [] ∧
    s.landAll.co.regs = (s.co.issue.deferred.foldl State.landOne s).co.regs) ∧
  (∀ (s : State) p m x f, let t := s.landOne (.vreg p m x f)
    (∀ q l, q < 256 → l < 32 → vget (vget t.co.regs.v q) l =
      if q = p % 256 ∧ m.getLsbD l = true then vget x l else vget (vget s.co.regs.v q) l) ∧
    t.co.special.fflags = s.co.special.fflags ||| f ∧ t.mem = s.mem) ∧
  (∀ (s : State) g x, let t := s.landOne (.greg g x)
    (∀ j, t.co.greg j = if j = g ∧ g ≠ 0 then x else s.co.greg j) ∧ t.mem = s.mem) ∧
  (∀ (s : State) k m x, let t := s.landOne (.pred k m x)
    (∀ j l, (t.co.kreg j).getLsbD l =
      if j = k ∧ k ≠ 0 ∧ m.getLsbD l = true then x.getLsbD l else (s.co.kreg j).getLsbD l) ∧
    t.mem = s.mem ∧ t.co.regs.v = s.co.regs.v ∧ t.co.regs.g = s.co.regs.g) ∧
  (∀ (s : State) p m, let t := s.landOne (.flags p m)
    (∀ q l, q < 256 → l < 32 → vget (vget t.co.regs.v q) l =
      if q = p % 256 ∧ m.getLsbD l = true then s.co.special.fflags.zeroExtend 32 else vget (vget s.co.regs.v q) l) ∧
    t.co.special = s.co.special ∧ t.mem = s.mem) ∧
  (∀ (s : State) id lo hi m ty rm x y f, let t := s.landOne (.row id lo hi m ty rm (some (x, y, f)))
    (∀ q l, q < 256 → l < 32 → vget (vget t.co.regs.v q) l =
      if q = hi % 256 ∧ m.getLsbD l = true then vget y l
      else if q = lo % 256 ∧ m.getLsbD l = true then vget x l else vget (vget s.co.regs.v q) l) ∧
    t.co.special.fflags = s.co.special.fflags ||| f ∧ t.mem = s.mem) ∧
  ∀ (s : State) dest a (known : List (Option Byte)) e,
    let t := s.landOne (.load dest a known e)
    let missing (i : Nat) : Prop := i < known.length ∧ known.getD i none = none
    let bad := ∃ i, missing i ∧ s.co.snap? (granule (a + i)) = none ∧ s.poisoned (a + i) 1 = true
    (bad → t.mem = s.mem ∧ t.co.regs = s.co.regs ∧ (dest.lanes ≠ 0 →
      t.co.traps.ecc = s.co.traps.ecc ++ (lanesOf dest.lanes).map fun l => (l, e)) ∧
      (dest.lanes = 0 → t.co.traps.eccBare = some (s.co.traps.eccBare.getD e))) ∧
    (¬ bad → t.mem = s.mem ∧ t.co.traps = s.co.traps ∧
      let b := (List.range known.length).map fun i => (known.getD i none).getD
        (((s.co.snap? (granule (a + i))).getD (s.fillWord (granule (a + i)))).extractLsb' (8 * ((a + i) % 4)) 8)
      let x := leNat b
      (∀ i, missing i → (t.co.snap? (granule (a + i))).isSome = true) ∧
      (∀ g m, dest = .group g m → ∀ j, t.co.greg j = if j = g ∧ g ≠ 0 then BitVec.ofNat 64 x else s.co.greg j) ∧
      ∀ lo hi l sx, dest = .lane lo hi l sx → l < 32 →
        (known.length = 4 → vget (vget t.co.regs.v lo) l = BitVec.ofNat 32 x) ∧
        (known.length = 2 ∨ known.length = 1 → vget (vget t.co.regs.v lo) l =
          if sx = true ∧ 2 ^ (8 * known.length - 1) ≤ x then BitVec.ofInt 32 ((x : Int) - 2 ^ (8 * known.length))
          else BitVec.ofNat 32 x) ∧
        (known.length = 8 → lo % 256 ≠ hi % 256 → vget (vget t.co.regs.v lo) l = BitVec.ofNat 32 (x % 2 ^ 32) ∧
          vget (vget t.co.regs.v hi) l = BitVec.ofNat 32 (x / 2 ^ 32)))

/-- R28, R100, R105, R106, R112, R342, R350, R376: the steps around the words of an offset. A fetch failure traps the EXM lanes of
the occupied planes and no word of the offset acts; an undecodable word records ILL with its subcode, for its plane, or for
every occupied one when coach-once; after 24 offsets the run ends; a park whose results are there lands them and makes the
coach ready for its next run, once the quad's clock is stable; a trap held through a clock change is taken once the clock is
stable; a zero word is ILL, ZERO. With a pre-emption pending, a coach that has waited at the park for results, and one that has taken
the trap held, come to their save point there (R350). That RUN_LIMIT parks after the 24th offset is the model's reading (log
64), and so is that the wait for results saves the coach in full (logs 20, 59).

R73, R74, R123, R296 to R298, R308: of the ready coaches bound to a port, of which those that have just yielded count only when no other
is ready, the port takes the one of highest effective priority, then the one that became ready first, then the one in the lowest
slot; it begins to issue. One that has an error in a result to report enters its trap (log 72). A write-buffer entry moves a point
along its path, unless an older one that overlaps it would be left behind: a global one to the core point, then to its home, or of
host memory into the pkg point's copy, which is dirty then; a granule is filled from its source at any time, and stays in the
snapshot, where the pending loads that need it find it. -/
def Obligations.IssueSteps : Prop :=
  (
  (∀ (c : Coach) l, l < 32 → (c.occLanes.getLsbD l = true ↔ c.masks.exm.getLsbD l = true ∧ c.planeOf l ∈ c.occ)) ∧
  (∀ (s : State) k u, (s.quad (s.co.ident.core / 4)).changing = false → s.fetchOffset = (u, .error k) → ∃ r : State, exec .fetchFault s = .next (r.endOffset) ∧
    Records u r u.co.occLanes k) ∧
  (∀ (s : State), s.co.issue.off < 0 ∨ (s.co.segs.lim : Int) ≤ s.co.issue.off →
    s.fetchOffset = (s, .error (causeWord cProt (BitVec.ofInt 32 s.co.issue.off)))) ∧
  (∀ (s : State) w sub, decode w = .error sub → ∃ r : State, exec (.illegalEncoding w) s = .next (r.finishWord (w.getLsbD 31)) ∧
    Records s r (if coachOnce w then s.co.occLanes else s.co.planeLanes) (causeIll sub.code w)) ∧
  (∀ m x (s : State), ∃ r : State, exec (.zeroWordTrap m x) s = .next (r.finishWord m) ∧
    Records s r s.co.planeLanes (causeIll 0 (Instr.zeroWordTrap m x).word)) ∧
  (∀ (s : State), s.co.issue.phase = .issuing → s.co.issue.open_ = false → 24 ≤ s.co.issue.count → s.co.issue.deferred ≠ [] →
    (s.quad (s.co.ident.core / 4)).changing = false →
    exec .runLimit s = .next { s with co := { s.co with issue := { s.co.issue with phase := .parked } } }) ∧
  (∀ (s : State) i, let u := s.landAll
    s.co.issue.wait = .none → s.co.issue.traps = [] → s.co.issue.bare = none → s.co.issue.spill = [] → s.co.issue.refill = [] →
    (∀ d ∈ s.co.issue.deferred, d.unread = false) → u.co.traps.ecc = [] → u.co.traps.eccBare = none →
    (s.quad (s.co.ident.core / 4)).changing = false →
    (i = Instr.parkEnd ∧ s.co.issue.phase = .parked ∧ s.co.traps.held = false) ∨
      (i = .runLimit ∧ s.co.issue.phase = .issuing ∧ s.co.issue.open_ = false ∧ 24 ≤ s.co.issue.count ∧
        s.co.issue.deferred = []) →
    ∃ t : State, exec i s = .next t ∧
      t = { u with co := { u.co with issue := t.co.issue, preempt := t.co.preempt } } ∧ t.co.issue.phase = .ready ∧
      t.co.issue.count = 0 ∧ t.co.issue.off = s.co.issue.off ∧ t.co.issue.deferred = [] ∧
      t.co.preempt = if s.co.issue.deferred ≠ [] ∧ s.co.preempt.pending = true ∧ s.co.ident.level = 0 ∧
          s.co.preempt.atSave = false ∧ s.co.issue.rex = none
        then { s.co.preempt with atSave := true, full := true } else s.co.preempt) ∧
  (∀ (s : State), (s.quad (s.co.ident.core / 4)).changing = true →
    exec .parkEnd s = .next s ∧ exec (.trapEntry s.co.ident.id) s = .next s ∧ exec .runLimit s = .next s ∧
      exec .fetchFault s = .next s) ∧
  ∀ (s : State), s.co.issue.phase = .parked → s.co.traps.held = true → (s.quad (s.co.ident.core / 4)).changing = false →
    ∃ t : State, exec (.trapEntry s.co.ident.id) s = .next t ∧
      t = { s.takeTrap with co := { s.takeTrap.co with preempt := t.co.preempt } } ∧
      t.co.preempt = if s.takeTrap.co.issue.phase = .ready ∧ s.co.preempt.pending = true ∧ s.co.ident.level = 0 ∧
          s.co.preempt.atSave = false
        then { s.co.preempt with atSave := true, full := true } else s.co.preempt) ∧
  (
  (∀ (s : State) n p c, (s.quad (n / 4)).changing = false →
    (∀ k ∈ s.allCoaches, k.ident.core = n → k.ident.port = p → k.issue.phase ≠ .issuing) →
    let may (k : Coach) : Prop := k ∈ s.allCoaches ∧ k.ident.core = n ∧ k.ident.port = p ∧ k.issue.phase = .ready ∧
      k.preempt.atSave = false
    let prio (k : Coach) : Nat := min 3 (((s.haul? k.ident.haul).map (·.prio)).getD 0 + k.ident.level)
    let before (a b : Coach) : Prop := prio b < prio a ∨ (prio a = prio b ∧ (a.issue.since < b.issue.since ∨
      (a.issue.since = b.issue.since ∧ a.ident.slot < b.ident.slot)))
    may c → (c.issue.yielded = true → ∀ k, may k → k.issue.yielded = true) →
    (∀ k, may k → k ≠ c → before c k ∨ (k.issue.yielded = true ∧ c.issue.yielded = false)) →
    (∀ k ∈ s.co :: s.coaches, k.ident.id = c.ident.id → k = c) →
    let run (ph : Phase) (k : Coach) : Coach :=
      if k.ident.id = c.ident.id then { k with issue := { k.issue with phase := ph, yielded := false } }
      else if k.ident.core = n ∧ k.ident.port = p then { k with issue := { k.issue with yielded := false } } else k
    (c.hasErr = false → ∃ t : State, exec (.coachSelect n p) s = .next t ∧ t.mem = s.mem ∧
      t.allCoaches = s.allCoaches.map (run .issuing)) ∧
    (c.hasErr = true → s.co = c → ∃ u : State, exec (.coachSelect n p) s = .next u.enterTrap ∧ u.co = run .ready c ∧
      u.mem = s.mem ∧ u.coaches = s.coaches.map (run .ready))) ∧
  (∀ (s : State) l e rest, s.co.wbuf = l ++ e :: rest → (∀ x ∈ l ++ rest, x.id ≠ e.id) → s.memOk →
    let near (x : WEntry) : Prop := x.addr < e.addr + e.bytes.length ∧ e.addr < x.addr + x.bytes.length
    let early : Prop := isGlobal e.addr = true ∧ e.atCore = false
    ((∃ x ∈ l, near x ∧ (early → x.atCore = false)) → exec (.writeBufferAdvance s.co.ident.id e.id) s = .next s) ∧
    (early → (∀ x ∈ l, near x → x.atCore = true) →
      ∃ t : State, exec (.writeBufferAdvance s.co.ident.id e.id) s = .next t ∧
        t.mem = s.mem ∧ t.co.regs = s.co.regs ∧ t.co.wbuf = l ++ { e with atCore := true } :: rest ∧
        ∀ g ∈ granules e.addr e.bytes.length, ∃ c ∈ t.corePts, c.core = s.co.ident.core ∧ c.addr = g ∧ c.entry = e.id) ∧
    (¬ early → (∀ x ∈ l, ¬ near x) → ∃ t : State, exec (.writeBufferAdvance s.co.ident.id e.id) s = .next t ∧
      t.co.wbuf = l ++ rest ∧ t.co.regs = s.co.regs ∧
      (isHost e.addr = false → (∀ i, i < e.bytes.length → some (Memory.get t.mem (e.addr + i)) = e.bytes[i]?) ∧
        ∀ a, a < e.addr ∨ e.addr + e.bytes.length ≤ a → Memory.get t.mem a = Memory.get s.mem a) ∧
      (isHost e.addr = true → t.mem = s.mem ∧ ∀ g, if g ∈ granules e.addr e.bytes.length
        then ∃ h, t.hostCopy? g = some h ∧ h.dirty = true ∧ s.owner ∈ h.owners ∧
          h.word = overlay g (s.homeWord g) e.addr e.bytes
        else t.hostCopy? g = s.hostCopy? g))) ∧
  ∀ (s : State) a, s.co.present = true → s.poisoned (granule a) 4 = false → s.co.snap? (granule a) = none →
    ∃ t : State, exec (.snapshotFill s.co.ident.id a) s = .next t ∧ t.mem = s.mem ∧ t.co.regs = s.co.regs ∧
      t.co.snap? (granule a) = some (s.fillWord (granule a)) ∧
      ∀ x ∈ t.co.issue.deferred, x.needs (granule a) = false)

/-! ### Ordering, views, tasks -/

/-- R296 to R299: what PUBL.s carries. At scope 1 and wider no scratchpad entry stays buffered, from scope 2 on none of the
quad memory, and a global entry that stays has reached its core point, and stays only at scopes 1 and 2 or, below pod scope,
for another pod device. A byte whose entries all reach their ends holds the youngest of them, or what it held. Beside
the buffer, the snapshot, the core points and the host copies nothing of the coach and no register changes.

R299, R311 to R314: PUBL, REFR and PHASE publish, empty the snapshot, or both (at scope 0 nothing); IFENCE and EVWAIT end the
run with their waits; HFLUSH publishes at scope 4 and carries every dirty host copy of the coach's address space (VF and
ASID) to the host, HINV also discards these copies and empties the snapshot. Each completes in every state. Which host copies are those of the
coach's ASID (the ones that its VF and ASID made, wrote or filled) is the model's reading (log 9). -/
def Obligations.PublishResults : Prop :=
  (
  ∀ (s : State) x, 1 ≤ x → s.memOk →
    let u := s.publish x
    u = { s with
      co := { s.co with wbuf := u.co.wbuf, snap := u.co.snap }
      mem := u.mem, corePts := u.corePts, hostCopies := u.hostCopies, migrations := u.migrations
      dev := { s.dev with poison := u.dev.poison } } ∧
    (∀ e ∈ u.co.wbuf, isScr e.addr = false ∧ (isQm e.addr = true → x = 1) ∧
      (isGlobal e.addr = true → e.atCore = true ∧ (x ≤ 2 ∨ (isPod e.addr = true ∧ x ≠ 5)))) ∧
    ∀ a, (∀ e ∈ s.co.wbuf, e.addr ≤ a → a < e.addr + e.bytes.length → isHost e.addr = false ∧
        (isScr e.addr = true ∨ (isQm e.addr = true ∧ 2 ≤ x) ∨ (isGlobal e.addr = true ∧ isPod e.addr = false ∧ 3 ≤ x) ∨
          (isPod e.addr = true ∧ x = 5))) →
      Memory.get u.mem a = (bufByte s.co.wbuf a).getD (Memory.get s.mem a)) ∧
  (
  (∀ m (x : BitVec 3) (s : State), let e (u : State) : State := { u with co := { u.co with
      snap := if x = 0 then u.co.snap else [], sets := if x = 0 then u.co.sets else [] } }
    exec (.publ m x) s = .next ((s.publish x.toNat).finishWord m) ∧
    (∃ r : State, exec (.refr m x) s = .next (r.finishWord m) ∧ r = e s) ∧
    ∃ r : State, exec (.phase m x) s = .next (r.finishWord m) ∧ r = e (s.publish x.toNat)) ∧
  (∀ s : State, s.publish 0 = s) ∧
  (∀ m (s : State), ∃ r : State, exec (.ifence m) s = .next (r.finishWord m) ∧ EndsRun s r .ifence) ∧
  (∀ m a (s : State), ∃ r : State, exec (.evwait m a) s = .next (r.finishWord m) ∧ EndsRun s r (.evwait (s.co.greg a))) ∧
  ∀ m (s : State), s.memOk →
    let u := s.publish 4
    let mine (h : HostCopy) := s.owner ∈ h.owners
    let sunk (r : State) : Prop := ∀ h ∈ u.hostCopies, h.dirty = true → mine h →
      (∀ k ∈ u.hostCopies, k.addr + 4 ≤ h.addr ∨ h.addr + 4 ≤ k.addr ∨ k = h) → r.rdNat h.addr 4 = h.word.toNat
    let rest (r : State) : Prop := ∀ a, (∀ h ∈ u.hostCopies, h.dirty = true → mine h → a < h.addr ∨ h.addr + 4 ≤ a) →
      Memory.get r.mem a = Memory.get u.mem a
    (∃ r : State, exec (.hflush m) s = .next (r.finishWord m) ∧ sunk r ∧ rest r ∧ r.co = u.co ∧
      ∀ h ∈ r.hostCopies, mine h → h.dirty = false) ∧
    ∃ r : State, exec (.hinv m) s = .next (r.finishWord m) ∧ sunk r ∧ rest r ∧ r.co = { u.co with snap := [], sets := [] } ∧
      ∀ h ∈ r.hostCopies, ¬ mine h)

/-- R315 to R318: barriers. A shading coach's barrier word records VIEWX. With an arrival pending at the scope BAR and BARA
end the run until the generation has completed, and BARW until it completes; with none pending BAR publishes, arrives and
waits, BARA publishes and arrives, and BARW refreshes. A generation completes once every participant has arrived: then each
participant that waits at it, on quads whose clocks are stable, goes on, its arrival no longer pending and its snapshot empty,
and no memory changes. A coach that is saved out takes part with the arrival it was saved with (R316, R318). -/
def Obligations.BarrierResults : Prop :=  (∀ m x (s : State), s.co.ident.level ≠ 0 → ∀ i ∈ ([.bar m x, .bara m x, .barw m x] : List Instr),
    ∃ r : State, exec i s = .next (r.finishWord m) ∧ Records s r s.co.masks.exm (causeWord cViewx i.word)) ∧
  (∀ m (x : BitVec 3) (s : State), s.co.ident.level = 0 →
    let p := s.co.pendb.getLsbD x.toNat
    let u := s.publish x.toNat
    let v : State := { u with co := { u.co with pendb := u.co.pendb ||| (1#8 <<< x.toNat) } }
    (∃ r : State, exec (.bar m x) s = .next (r.finishWord m) ∧
      if p then EndsRun s r (.rearrive x true) else EndsRun v r (.barrier x)) ∧
    (∃ r : State, exec (.bara m x) s = .next (r.finishWord m) ∧ if p then EndsRun s r (.rearrive x false) else r = v) ∧
    ∃ r : State, exec (.barw m x) s = .next (r.finishWord m) ∧
      if p then EndsRun s r (.barrier x)
      else r = { s with co := { s.co with
        snap := if x = 0 then s.co.snap else [], sets := if x = 0 then s.co.sets else [] } }) ∧
  ∀ (s : State) (x : BitVec 3) h, x ≠ 0 → s.co.present = true → ((s.co :: s.coaches).map fun c => c.ident.id).Nodup →
    s.haul? s.co.ident.haul = some h → s.co.arrived x = true → h.takesPart x s.co s.co = true →
    (∀ k ∈ s.allCoaches, h.takesPart x s.co k = true → k.arrived x = true ∧ k.issue.phase = .waiting ∧
      k.issue.wait = .barrier x ∧ k.traps.ecc = [] ∧ k.traps.eccBare = none) →
    (∀ k ∈ s.allCoaches, h.takesPart x s.co k = true → (s.quad (k.ident.core / 4)).changing = false) →
    (∀ k ∈ h.savedCoaches, h.takesPart x s.co k = true → k.arrived x = true) → (x.toNat < 4 ∨ h.hdr.rakes ≤ h.nextRake) →
    ∃ t : State, exec (.barrierGenerationComplete s.co.ident.id x) s = .next t ∧ t.mem = s.mem ∧
      t.co.ident = s.co.ident ∧
      ∀ k ∈ s.allCoaches, h.takesPart x s.co k = true → ∃ c ∈ t.allCoaches, c.ident = k.ident ∧ c.issue.phase = .ready ∧
        c.snap = [] ∧ c.sets = [] ∧ c.pendb = k.pendb &&& ~~~(1#8 <<< x.toNat) ∧ c.regs = k.regs ∧ c.wbuf = k.wbuf

/-- R277, R278, R285, R287: VIEW and VIEWL publish at pkg scope; with four tickets outstanding they end the run to wait for a
commit. Otherwise a descriptor that cannot be read traps as the load of it does, one that breaks its rules records VIEWX with
its address, and one that is refused, or accepted once its camera and scene are read and sound, gives G[a + 1] the ticket:
the lowest free slot with the coach's count above it. The request takes the descriptor, a refused one complete at once, and
an accepted one waits last in its lift's FIFO. A record of the three that cannot be read traps, or, where it holds an error,
reports it for EXMSET, and no ticket is made. No lane, group or predicate register but G[a + 1] changes. That a VIEWL
which reads an erroneous register for a lane (R381) makes no request is the model's choice (log 39).

R286, R288 to R291: VWAIT and VPOLL record VIEWX for a dword that is no outstanding ticket; VWAIT then ends the run, and
VPOLL defers the request's status word, 0 while it is not complete. VOUT and VHIT record VIEWX in a coach that shades no
request; VOUT writes the pixel words of the active lanes into the request's tile, and VHIT defers a field of each pixel's
hit record. VPOLL of a ticket restored with a tile defers the tile's status word. VLVL reads the levels and the lift's free
slots and queue, and 0 where the quad has no such lift, as in a haul without lifts. Each completes in every state. -/
def Obligations.ViewWordResults : Prop :=
  (
  ∀ i m d a b (s : State) lanes, (i = Instr.view m d a ∧ lanes = none) ∨
      (i = .viewl m d a b ∧ lanes = some (s.co.viewLanes.map fun l => (l, (List.range 6).map fun n => s.co.vreg (b.toNat + n) l))) →
    let u := s.publish 4
    let g := s.co.greg a
    let fails (t r : State) (x : Nat) : Prop := (∀ v k, t.residentAccess .load x 64 = (v, .error k) → Records v r s.co.masks.exm k) ∧
      ∀ v h, t.residentAccess .load x 64 = (v, .ok h) → v.poisoned h 64 = true → r = { v with co := { v.co with traps := { v.co.traps with
        ecc := v.co.traps.ecc ++ (lanesOf s.co.masks.exm).map fun l => (l, causeAddr cEcc x)
        eccBare := if s.co.masks.exm = 0 then some (v.co.traps.eccBare.getD (causeAddr cEcc x)) else v.co.traps.eccBare } } }
    ∃ r : State, exec i s = .next (r.finishWord m) ∧
    (lanes.isSome = true → s.co.issue.bad ≠ [] → r = s) ∧
    ((lanes.isSome = true → s.co.issue.bad = []) → 4 ≤ s.co.tickets.length → EndsRun u r (.view i g lanes)) ∧
    ((lanes.isSome = true → s.co.issue.bad = []) → s.co.tickets.length < 4 →
      fails u r g.toNat ∧
      ∀ t p, u.viewRecord g.toNat = (t, some p) →
        let v := ViewDesc.ofBytes p
        (viewBad p = true ∨ (lanes.isSome = true ∧ 1 < v.res) → Records t r s.co.masks.exm (causeAddr cViewx g.toNat)) ∧
        (viewBad p = false → (lanes.isSome = true → v.res ≤ 1) →
          let gives (t r : State) (st : Option Nat) : Prop := ∃ n k w, n < 4 ∧ (∀ x ∈ s.co.tickets, x.slot ≠ n) ∧ (∀ j, j < n → ∃ x ∈ s.co.tickets, x.slot = j) ∧
            k = BitVec.ofNat 64 (n + 4 * (s.co.tcount % 2 ^ 30)) ∧
            r.co.tickets = s.co.tickets ++ [{ slot := n, dword := k, req := w.id, tile := none }] ∧
            r.co.tcount = (s.co.tcount + 1) % 2 ^ 30 ∧
            (∀ j, r.co.greg j = if j = a + 1 ∧ a + 1 ≠ 0 then k else s.co.greg j) ∧
            r.co.regs = { s.co.regs with g := r.co.regs.g } ∧ r.views = t.views ++ [w] ∧ w.desc = v ∧ w.ticket = k ∧ w.d = d ∧ w.lanes = lanes ∧ r.mem = t.mem ∧
            w.lift = s.co.ident.level + 1 ∧ w.coach = s.co.ident.id ∧
            match st with
            | some x => w.status = x ∧ w.complete = true ∧ r.quads = t.quads
            | none => w.started = false ∧ w.traversed = false ∧ (∀ f, t.lift? (s.co.ident.core / 4) w.lift = some f →
                r.lift? (s.co.ident.core / 4) w.lift = some { f with fifo := f.fifo ++ [w.id] })
          (∀ x, t.viewRefusal v lanes = some x → gives t r (some x)) ∧
          (t.viewRefusal v lanes = none → fails t r v.cam ∧ ∀ t2 c, t.viewRecord v.cam = (t2, some c) →
            (cameraBad c = true → Records t2 r s.co.masks.exm (causeAddr cViewx v.cam)) ∧
            (cameraBad c = false → fails t2 r v.scene ∧ ∀ t3 z, t2.viewRecord v.scene = (t3, some z) →
              if sceneBad z then Records t3 r s.co.masks.exm (causeAddr cViewx v.scene) else gives t3 r none))))) ∧
  (
  (∀ m d a (s : State), let t := s.co.greg a
    let bad := ∀ k ∈ s.co.tickets, k.dword ≠ t
    let x := causeWord cViewx (t.truncate 32)
    (∃ r : State, exec (.vwait m d a) s = .next (r.finishWord m) ∧ (bad → Records s r s.co.masks.exm x) ∧
      (¬ bad → EndsRun s r (.vwait t d))) ∧
    ∃ r : State, exec (.vpoll m d a) s = .next (r.finishWord m) ∧ (bad → Records s r s.co.masks.exm x) ∧
      (¬ bad → ∃ w, Defers s r [.greg d w] ∧ (∀ k v, (∀ j ∈ s.co.tickets, j.dword = t → j = k) → k.dword = t → k.tile = none →
        s.view? k.req = some v → w = if v.complete = false then 0
          else if 4 ≤ v.status ∧ v.status ≤ 6 then BitVec.ofNat 64 (v.status + v.failAddr.toNat * 2 ^ 32)
          else BitVec.ofNat 64 v.status) ∧
        ∀ k x sh, (∀ j ∈ s.co.tickets, j.dword = t → j = k) → k.dword = t → k ∈ s.co.tickets → k.tile = some (x, sh) → w = sh.status)) ∧
  (∀ m d a w e (s : State), s.shading = none → ∀ i ∈ ([.vout m a w, .vhit m d e] : List Instr),
    ∃ r : State, exec i s = .next (r.finishWord m) ∧ Records s r s.co.planeLanes (causeWord cViewx i.word)) ∧
  (∀ m a w (s : State) v c, s.shading = some (v, c) → ∃ r : State, exec (.vout m a w) s = .next (r.finishWord m) ∧
    if w = 1 ∧ v.desc.out1 = 0 then Records s r s.co.planeLanes (causeWord cViewx (Instr.vout m a w).word)
    else r = { s with views := r.views } ∧ ∃ t, r.view? v.id = some { v with tile := t } ∧ t.length = v.tile.length ∧
      (∀ l, s.co.active.getLsbD l = true → v.place (32 * c + l) w.toNat < t.length →
        t[v.place (32 * c + l) w.toNat]? = some (s.co.vreg a.toNat l)) ∧
      ∀ i, (∀ l, s.co.active.getLsbD l = true → i ≠ v.place (32 * c + l) w.toNat) → t[i]? = v.tile[i]?) ∧
  (∀ m d e (s : State) v c, s.shading = some (v, c) → ∃ r : State, exec (.vhit m d e) s = .next (r.finishWord m) ∧
    Defers s r [.vreg (s.co.phys d.toNat) s.co.active
      (laneVec fun l => ((v.hits.getD (32 * c + l) []).getD e.toNat 0)) 0]) ∧
  ∀ m d l (s : State), ∃ r : State, exec (.vlvl m d l) s = .next (r.finishWord m) ∧
    let n := s.co.special.nbound
    if 4 < l.toNat then Records s r s.co.planeLanes (causeIll subField (Instr.vlvl m d l).word)
    else ∃ x, WritesG s r d (BitVec.ofNat 64 x) ∧
      (l = 0 → x = s.co.ident.level + n * 2 ^ 8 + (n - s.co.ident.level) * 2 ^ 16) ∧ (l ≠ 0 → n < l.toNat → x = 0) ∧
      (∀ f, l ≠ 0 → l.toNat ≤ n → s.lift? (s.co.ident.core / 4) l.toNat = some f →
        x = f.free + f.fifo.length % 2 ^ 16 * 2 ^ 16 + f.shade.length * 2 ^ 32) ∧
      (l ≠ 0 → l.toNat ≤ n → s.lift? (s.co.ident.core / 4) l.toNat = none → x = 0))

/-- R279, R282 to R285, R288, R376: the steps of a view, while its quad's clock is stable. The head of a lift's FIFO leaves it when its slots are free, taking them; a
started request's traversal gives every dealt pixel its hit record and its default pixel words, or the status and address
it failed with; its next shading coach takes a free shading slot with its pixels live, their numbers in v0 and its view's
arguments in g1 to g5; and the oldest ticket, complete and waited for, lands its tile, a VIEWL's in the lanes that asked, with G[d] its status word,
the coach going on with an empty snapshot and the request's slots free again. -/
def Obligations.ViewSteps : Prop :=  (∀ q n (s : State) l id rest v, s.lift? q n = some l → l.fifo = id :: rest → s.view? id = some v → v.slots ≤ l.free →
    (s.quad q).changing = false → s.poisoned (Config.fifoAt id) 8 = false →
    ∃ t : State, exec (.viewRequestStart q n) s = .next t ∧ t = { s with views := t.views, quads := t.quads } ∧
      t.lift? q n = some { l with free := l.free - v.slots, fifo := rest, serving := l.serving ++ [id] } ∧
      t.view? id = some { v with started := true }) ∧
  (∀ id (s : State) v, s.view? id = some v → v.started = true → v.traversed = false →
    (s.quad v.quad).changing = false → ∃ t : State, exec (.viewTraversalEnd id) s = .next t ∧ t.co = s.co ∧
      match State.traceViews v v.eyes s with
      | (_, .ok hits) => t.view? id = some { v with traversed := true, status := 1, hits := hits, tile := v.defaults hits }
      | (_, .error e) => t.view? id =
          some { v with traversed := true, status := e.1, failAddr := BitVec.ofNat 32 e.2 }) ∧
  (∀ id z n (s : State) v f h d, s.view? id = some v → v.traversed = true → v.status = 1 → v.launched < v.ncoach →
    s.lift? v.quad v.lift = some f → s.haul? v.haul = some h → h.ended = none → h.lifts[v.lift - 1]? = some d →
    z ∈ f.shade → n ∈ s.freeSlots (4 * v.quad + z % 4) → f.serving.head? = some v.id → (s.quad v.quad).changing = false →
    s.memOk →
    ∃ (t : State) (c : Coach), exec (.shadingLaunch id z n) s = .next t ∧ t.coaches = s.coaches ++ [c] ∧ t.co = s.co ∧
      c.ident.level = v.lift ∧ c.ident.core = 4 * v.quad + z % 4 ∧ c.ident.slot = n ∧ c.ident.cidx = v.launched ∧
      c.ident.view = some (v.id, v.launched) ∧ c.issue.phase = .ready ∧ c.issue.off = v.desc.entry ∧ c.traps.mode = .u ∧
      (∀ l, l < 32 → c.masks.exm.getLsbD l = decide (32 * v.launched + l < v.dealt) ∧
        vget (vget c.regs.v 0) l = BitVec.ofNat 32 (32 * v.launched + l)) ∧ c.masks.live = c.masks.exm ∧
      ([1, 2, 3, 4, 5].map fun j => vget c.regs.g j) = [v.desc.sharg, v.ticket, BitVec.ofNat 64 v.launched,
        BitVec.ofNat 64 v.ncoach, BitVec.ofNat 64 v.dealt] ∧
      (∀ j, j < d.sscr → Memory.get t.mem (homeScr c.ident.core (c.window.scrBase + j)) = 0) ∧
      t.view? id = some { v with launched := v.launched + 1 } ∧ ∀ g, t.lift? v.quad v.lift = some g → z ∉ g.shade) ∧
  ∀ (s : State) k rest t v d, let w := v.desc.words
    let p := v.desc.pixels
    let n := (p + 31) / 32
    s.co.issue.phase = .waiting → s.co.issue.wait = .vwait t d → s.co.tickets = k :: rest → k.dword = t → k.tile = none →
    s.view? k.req = some v → v.complete = true → (s.quad (s.co.ident.core / 4)).changing = false → s.co.traps.ecc = [] →
    s.co.traps.eccBare = none →
    ∃ r : State, exec (.ticketCommit s.co.ident.id) s = .next r ∧ r.mem = s.mem ∧ r.co.issue.phase = .ready ∧
      r.co.snap = [] ∧ r.co.sets = [] ∧ r.co.tickets = rest ∧ (∀ u ∈ r.views, u.id ≠ v.id) ∧
      (∀ j, r.co.greg j = if j = d ∧ d ≠ 0 then v.statusWord else s.co.greg j) ∧
      (v.lanes = none → v.d.toNat + w * n ≤ 64 → w * n ≤ s.co.regs.preg → s.co.regs.preg ≤ 256 → ∀ y j l, y < w → j < n → l < 32 →
        r.co.vreg (v.d.toNat + y * n + j) l =
          if 32 * j + l < p then v.outTile.getD (y * p + 32 * j + l) 0 else s.co.vreg (v.d.toNat + y * n + j) l) ∧
      (∀ ls, v.lanes = some ls → (ls.map (·.1)).Nodup → v.d.toNat + w * p ≤ 64 → w * p ≤ s.co.regs.preg → s.co.regs.preg ≤ 256 →
        ∀ y i, y < w → i < p →
          (∀ j e, ls[j]? = some e → e.1 < 32 → r.co.vreg (v.d.toNat + y * p + i) e.1 = v.outTile.getD ((j * w + y) * p + i) 0) ∧
          ∀ l, l < 32 → l ∉ ls.map (·.1) → r.co.vreg (v.d.toNat + y * p + i) l = s.co.vreg (v.d.toNat + y * p + i) l) ∧
      ∀ f, s.lift? v.quad v.lift = some f → r.lift? v.quad v.lift = some { f with
        free := if f.serving.contains v.id then f.free + v.slots else f.free
        fifo := f.fifo.filter (· != v.id)
        serving := f.serving.filter (· != v.id) }

/-- R319 to R321, R381: the checks of the four words that name a TCB, before anything else happens: MISAL for an address off its
multiple of 64, PROT or NRES where a store would take them, ECC for a table entry in error, SPECW for a speculative issuer, each for EXMSET and with no other
effect.

R44, R79, R84, R320: TSPAWN and TSPEC on a TCB at a device home, the checks passed: the issuer publishes at pkg scope
first. TSPAWN does nothing to a TCB the device holds; one that breaks its rules becomes FAILED with result 1; one without
predecessors is READY and on its VF's ready list, any other WAITING, and the device holds it. TSPEC leaves a TCB that runs or
has ended, and fails one that breaks its rules; otherwise its task starts, speculative and RUNNING, as a new haul, exactly when
the leader reads a sound image that fits a quad (`readImage`, R34); where that ends with a status, the task is FAILED with it,
and so is one whose TCB holds an error. Where the leader's port does not reach the TCB (R357) the task is given up: log 79. The
TCB checked by the leader as it starts the task is log 18, the address space of a TCB that was spawned before log 80. No
register changes, and no byte outside the TCB by TSPAWN.

R84, R237, R320, R374: TCOMMIT and TDISCARD on a TCB at a device home, the checks passed. Where no uncommitted
speculative task runs under it nothing happens. Otherwise TCOMMIT commits the task's haul and its record; TDISCARD makes the
TCB DISCARDED, no longer held, and the haul, unless it has retired, ends with status 10, every coach of it stopped. Where the
quad's port does not reach the entry of a set that the task names (R357), TCOMMIT records PROT for it and changes nothing: the
model's choice (log 79). -/
def Obligations.TaskWordResults : Prop :=
  (
  ∀ m a (s : State), let x := (s.co.greg a).toNat
    let c := { s.ctx with spec := none }
    ∀ i ∈ ([.tspawn m a, .tspec m a, .tcommit m a, .tdiscard m a] : List Instr), ∀ k,
      (x % 64 ≠ 0 ∧ k = causeAddr cMisal x) ∨
      (x % 64 = 0 ∧ (s.translate c .store x).2 = .prot ∧ k = causeAddr cProt x) ∨
      (x % 64 = 0 ∧ (∃ l b, (s.translate c .store x).2 = .absent l b) ∧ k = causeAddr cNres x) ∨
      (x % 64 = 0 ∧ (s.translate c .store x).2 = .ecc ∧ k = causeAddr cEcc x) ∨
      (x % 64 = 0 ∧ (∃ h l b, (s.translate c .store x).2 = .found h l b) ∧ s.ctx.spec.isSome = true ∧ k = causeAddr cSpecw x) →
      ∃ r : State, exec i s = .next (r.finishWord m) ∧ ∃ t, Records t r s.co.masks.exm k ∧ t.co = s.co ∧ t.quads = s.quads ∧
        t.vfs = s.vfs ∧ t.hauls = s.hauls) ∧
  (
  ∀ m a (s t : State) p, s.memOk → s.tcbAccess a = (t, some p) → (∀ x, x < 64 → isHost (p + x) = false) →
    let u := t.publish 4
    let vf := s.ctx.vf
    (∃ r : State, exec (.tspawn m a) s = .next (r.finishWord m) ∧ r.co = u.co ∧
      (∀ x, x < p ∨ p + 64 ≤ x → Memory.get r.mem x = Memory.get u.mem x) ∧
      if (u.held? vf p).isSome then r = u
      else if u.tcbBad p then r.rdNat p 1 = 5 ∧ r.rdNat (p + 0x28) 8 = 1 ∧ r.held? vf p = none
      else (∃ h, r.held? vf p = some h ∧ h.spec = false ∧ h.vaddr = (s.co.greg a).toNat ∧ h.asid = s.co.special.asid) ∧
        if u.rdNat (p + 4) 4 = 0 then r.rdNat p 1 = 1 ∧ ∃ n, (p, n) ∈ (r.vf vf).ready else r.rdNat p 1 = 0) ∧
    ∃ r : State, exec (.tspec m a) s = .next (r.finishWord m) ∧ r.co = { u.co with pdone := r.co.pdone } ∧
      ((∀ h ∈ u.hauls, h.id ≠ u.nextId) → u.co.ident.haul ≠ u.nextId → r.co = u.co) ∧
      let h : Held := match u.held? vf p with
        | some k => { k with spec := true }
        | none => u.newHeld p (s.co.greg a).toNat true
      let w := (u.unhold vf p).hold vf h
      let x := w.heldCtx vf h
      let bare (k : Haul) : Haul := { k with saved := [] }
      let fails (e : Nat) : Prop := r.rdNat p 1 = 5 ∧ r.rdNat (p + 0x28) 8 = (e + if e = 9 then 8 * 2 ^ 32 else 0) % 2 ^ 64 ∧
        r.held? vf p = none ∧ r.hauls = u.hauls
      if 2 ≤ u.rdNat p 1 then r = u
      else if u.tcbBad p then fails 1
      else if w.portSees x.port p = false then r.held? vf p = none ∧ r.hauls = u.hauls
      else if w.poisoned p 64 then fails 9
      else match (w.readImage (launchReader x) (w.peekNat (p + 0x18) 8)).2 with
        | .error e => fails e
        | .ok (hd, ls, _) => r.rdNat p 1 = 2 ∧ r.rdNat (p + 1) 1 = 1 ∧ (∃ k, r.held? vf p = some k ∧ k.spec = true) ∧
          ∃ k, r.hauls.map bare = u.hauls.map bare ++ [bare k] ∧ k.tcb = some p ∧ k.vf = vf ∧ k.asid = h.asid ∧ k.hdr = hd ∧
            k.lifts = ls ∧ k.spec = true ∧ k.committed = false ∧ k.ended = none) ∧
  (
  ∀ m a (s t : State) p, s.memOk → s.tcbAccess a = (t, some p) → (∀ x, x < 64 → isHost (p + x) = false) →
    let vf := s.ctx.vf
    (t.specHaul vf p = none → exec (.tcommit m a) s = .next (t.finishWord m) ∧ exec (.tdiscard m a) s = .next (t.finishWord m)) ∧
    ∀ h, t.specHaul vf p = some h →
      let seen (n : Nat) : Prop := ∀ q, t.pset? vf n = some q → t.portSees t.ctx.port q.entry = true
      (∀ l n l' q, h.psets = l ++ n :: l' → (∀ i ∈ l, seen i) → t.pset? vf n = some q → t.portSees t.ctx.port q.entry = false →
        ∃ r : State, exec (.tcommit m a) s = .next (r.finishWord m) ∧ Records t r s.co.masks.exm (causeAddr cProt q.entry)) ∧
      ((∀ n ∈ h.psets, seen n) → ∃ r : State, exec (.tcommit m a) s = .next (r.finishWord m) ∧ r.co = t.co ∧
        (∀ k ∈ r.hauls, k.id = h.id → k.committed = true) ∧
        (h.heldRelease = false → (∀ k ∈ (r.vf vf).tasks, k.tcb = p → k.committed = true) ∧
          (h.psets = [] → h.retired = false → r.mem = t.mem))) ∧
      ∃ r : State, exec (.tdiscard m a) s = .next (r.finishWord m) ∧ r.rdNat p 1 = 4 ∧ r.held? vf p = none ∧
        (∀ x, x ≠ p → Memory.get r.mem x = Memory.get t.mem x) ∧ r.co.regs = s.co.regs ∧
        (h.retired = false → (∀ k ∈ r.hauls, k.id = h.id → k.ended.isSome = true) ∧
          (h.ended = none → ∃ k ∈ r.hauls, k.id = h.id ∧ k.ended = some (10, 0, 0)) ∧
          ∀ c ∈ r.allCoaches, c.ident.haul = h.id → c.issue.phase = .halted))

/-- R20, R44, R79 to R84, R320: TDONE publishes; without a task, or once the task has released, nothing follows; a speculative task's
release is held; otherwise the task's successors are released one after the other, each with its event record, and with a
record of the coach held by a full event queue the run ends. A release counts a waiting successor's predecessors down to
READY, on the ready list, and passes any other by; its accesses pass the quad's port. The leader starts the head of a ready list:
the task is FAILED where its TCB breaks R44 or holds an error, which the leader checks as it starts it (the model's reading, log
18), or where reading the image ends with a status (`readImage`, R34), and RUNNING as a new haul otherwise; a TCB that the
leader's port does not reach is given up (log 79). -/
def Obligations.TaskReleases : Prop :=  (∀ m (s : State), let u := s.publish 4
    let quad := s.co.ident.core / 4
    ∃ r : State, exec (.tdone m) s = .next (r.finishWord m) ∧
      (s.haul? s.co.ident.haul = none → r = u) ∧
      ∀ h, s.haul? s.co.ident.haul = some h → (u.holdsEvent u.co = false) →
        (h.tcb = none ∨ h.released = true → r = u) ∧
        ∀ p, h.tcb = some p → h.released = false →
          (h.spec = true → h.committed = false → r = { u with hauls := r.hauls } ∧
            ∀ k ∈ r.hauls, k.id = h.id → k.heldRelease = true) ∧
          (h.spec = false ∨ h.committed = true →
            let v : State := { u with hauls := u.hauls.map fun k => if k.id = h.id then { k with released := true, heldRelease := false } else k }
            (v.portSees quad p = false → quad < 64 → r = v) ∧
            ∀ w b, v.portSees quad p = true → v.readVa (v.releaseCtx h quad) (v.peekNat (p + 8) 8) (8 * v.peekNat (p + 0x10) 4) = (w, .ok b) →
              ∃ z : State, Chain (fun x va y => let q := x.releaseStep h quad va
                ∃ e : EventRec, e.kind = BitVec.ofNat 8 q.2.1 ∧ e.count = BitVec.ofNat 32 q.2.2 ∧ e.addr = BitVec.ofNat 64 va ∧
                  e.src = s.co.src ∧ y = { q.1 with quads := y.quads } ∧
                  (y.quad quad).events ++ (y.quad quad).held = (q.1.quad quad).events ++ (q.1.quad quad).held ++ [e])
                (dwordsOf (v.peekNat (p + 0x10) 4) b) w z ∧
              if z.holdsEvent z.co then EndsRun z r .tdone else r = z)) ∧
  (∀ (s : State) h quad va t p l b, s.memOk → va % 64 = 0 →
    s.translate { s.haulCtx h with port := quad } .store va = (t, .found p l b) → t.poisoned p 64 = false →
    (∀ x, x < 64 → isHost (p + x) = false) →
    let q := s.releaseStep h quad va
    let n := t.rdNat (p + 4) 4
    (t.rdNat p 1 = 0 → 1 < n → q.2 = (2, n - 1) ∧ q.1.rdNat (p + 4) 4 = n - 1 ∧ q.1.rdNat p 1 = 0) ∧
    (t.rdNat p 1 = 0 → n = 1 → q.2 = (3, 0) ∧ q.1.rdNat (p + 4) 4 = 0 ∧ q.1.rdNat p 1 = 1 ∧
      (∃ k, (p, k) ∈ (q.1.vf h.vf).ready) ∧ (q.1.held? h.vf p).isSome = true) ∧
    (t.rdNat p 1 = 1 ∨ 3 ≤ t.rdNat p 1 → q = (t, 4, 0))) ∧
  ∀ vf (s : State) p n rest h, (s.vf vf).ready = (p, n) :: rest → s.leads = true → (s.vf vf).blackout = none →
    (s.vf vf).flrb = false → s.held? vf p = some h → (∀ x, x < 64 → isHost (p + x) = false) → s.memOk →
    let u := s.modVf vf fun v => { v with ready := rest }
    let x := u.heldCtx vf h
    let bare (k : Haul) : Haul := { k with saved := [] }
    ∃ t : State, exec (.taskDispatch vf) s = .next t ∧ t.co = { s.co with pdone := t.co.pdone } ∧
      let fails (e : Nat) : Prop := t.rdNat p 1 = 5 ∧ t.rdNat (p + 0x28) 8 = (e + if e = 9 then 8 * 2 ^ 32 else 0) % 2 ^ 64 ∧
        t.held? vf p = none ∧ t.hauls = s.hauls ∧ ∀ k, (p, k) ∉ (t.vf vf).ready
      if s.portSees x.port p = false then t.held? vf p = none ∧ t.hauls = s.hauls
      else if s.poisoned p 64 then fails 9
      else if s.tcbBad p then fails 1
      else match (u.readImage (launchReader x) (s.peekNat (p + 0x18) 8)).2 with
        | .error e => fails e
        | .ok (hd, ls, _) => t.rdNat p 1 = 2 ∧ (t.vf vf).ready = rest ∧
          ∃ k, t.hauls.map bare = s.hauls.map bare ++ [bare k] ∧ k.tcb = some p ∧ k.vf = vf ∧ k.asid = h.asid ∧ k.hdr = hd ∧
            k.lifts = ls ∧ k.spec = false ∧ k.ended = none

/-! ### The device -/

/-- R124, R371, R283, R376: a coach in no gang, while its quad's clock is stable, retires once its tickets are complete and discarded, the array has nothing of it,
and, shading, its page requests are completed: it publishes, what is left in its buffer reaches its home (the model's reading, log 60), it is gone, its banks are
free; the last coach of a rake retires
the rake, which its haul counts, and a shading coach counts for its view.

R65, R87, R372, R373: a haul whose rakes have all retired, with no Dray command and no view left, retires with TIME; with no
controller serving its completion is held; otherwise, launched by nobody and under no task, its 64-byte record stands where
RECORD leads. One that ends otherwise is torn down first: no coach, rake or view of it is left. A completion subtracts 1 from its signal.

R35, R69 to R71: a FRESH rake with room, next in its queue, is placed whole: coach i on the core of relative core i mod 4
under the rotation, in the slot chosen, ready at ENTRY in U mode with its lanes live, their numbers in v0 and ARGS, the rake,
its index and the two counts in g1 to g5; the quad is the haul's, its memory zero, and NEXT moves on. A retired coach comes back
as retired: log 61.

R72, R74, R76, R77, R350, R358: scheduling. A victim of its slice is requested to save, with every rake of a quad that another haul waits for, which then drains; a rake that has waited eight slices heads its queue; a drained quad
leaves its haul, its lifts released and its cores' tokens and banks free; a shared quad with no haul left serves the next VF
that waits. A request, which a save, a lock of the VF, a draining quad or a slice that is over raises, pends at every coach of its rake and at once reaches a coach that waits; past the deadline it reaches every other, but
none that is still to re-execute an offset (log 20); no register changes. When a waiting coach reaches its save point is the model's reading (log 59). -/
def Obligations.RakesAndHauls : Prop :=
  (
  ∀ s : State, let c := s.co
    let n := c.ident.core
    c.issue.phase = .retiring → (s.quad (n / 4)).changing = false → c.tickets = [] → s.arrayBusy n c.ident.id = false →
    c.ident.level = 0 ∨ c.special.posted.toNat ≤ c.special.pgc.toNat → c.special.gang.toNat % 8 = 0 →
    c.ident.id ≠ 0 → (∀ k ∈ s.coaches, k.ident.id ≠ c.ident.id) → (∀ h ∈ s.hauls, h.id = c.ident.haul → h.saved = []) →
    ∃ t : State, exec (.coachRetire c.ident.id) s = .next t ∧ t.co = coachNone ∧ t.coaches = s.coaches ∧
      t.mem = ((s.publish 4).drain).mem ∧ (∀ b ∈ (t.core n).banks, b.2 ≠ c.ident.id ∧ b ∈ (s.core n).banks) ∧
      (c.ident.level = 0 → (∃ k ∈ s.coaches, k.of c.ident.haul c.ident.rake = true) → t.rakes = s.rakes ∧
        t.hauls.map (·.rakesDone) = s.hauls.map (·.rakesDone)) ∧
      (c.ident.level = 0 → (∀ k ∈ s.coaches, k.of c.ident.haul c.ident.rake = false) →
        t.rakes = s.rakes.filter (fun r => !(r.haul == c.ident.haul && r.rake == c.ident.rake)) ∧
        t.hauls.map (·.rakesDone) = s.hauls.map fun h => h.rakesDone + if h.id = c.ident.haul then 1 else 0) ∧
      (c.ident.level ≠ 0 → ∀ r i v, c.ident.view = some (r, i) → s.view? r = some v →
        t.view? r = some { v with retired := v.retired + 1 })) ∧
  (
  (∀ (s : State) h, s.haul? h.id = some h → h.retired = false → s.drayBusy (fun c => c.haul == h.id) = false → h.ended = none →
    h.hdr.rakes ≤ h.rakesDone → s.viewsLeft h.id = false → h.silent = false → h.saving = none → (s.vf h.vf).flrb = false →
    let g : Haul := { h with retired := true, tEnd := s.dev.time }
    let u : State := { s with hauls := s.hauls.map fun k => if k.id = h.id then { k with retired := true, tEnd := s.dev.time, saving := none } else k }
    ∃ t : State, exec (.haulRetire h.id) s = .next t ∧
      (s.leads = false → t = { u with dev := { s.dev with heldCompletions := s.dev.heldCompletions ++ [h.id] } }) ∧
      ∀ v p l b, s.leads = true → h.tcb = none → h.packet = none → h.signal = 0 → h.record ≠ 0 → h.record % 64 = 0 → s.memOk →
        u.translate (u.haulCtx g) .store h.record = (v, .found p l b) → isHost p = false →
        t.rd p 64 = recordBytes 0 0 h.image h.launchNo.toNat h.rakesDone h.tAccept s.dev.time 0 ∧ t.co = s.co ∧
        ∀ a, a < p ∨ p + 64 ≤ a → Memory.get t.mem a = Memory.get v.mem a) ∧
  (∀ st de ad im no dn ta te, let b := recordBytes st de im no dn ta te ad
    b.length = 64 ∧ (st < 2 ^ 32 → field b 0 4 = st) ∧ field b 4 4 = de.toNat ∧ (im < 2 ^ 64 → field b 8 8 = im) ∧
    (no < 2 ^ 32 → field b 16 4 = no) ∧ (dn < 2 ^ 32 → field b 20 4 = dn) ∧ field b 24 8 = ta.toNat ∧
    field b 32 8 = te.toNat ∧ field b 40 8 = ad.toNat ∧ field b 48 16 = 0) ∧
  (∀ (s : State) h e, s.haul? h.id = some h → h.retired = false → s.drayBusy (fun c => c.haul == h.id) = false →
    h.ended = some e → s.arraysBusy h.id = false →
    ∃ t : State, exec (.haulRetire h.id) s = .next t ∧ (∀ c ∈ t.allCoaches, c.ident.haul ≠ h.id) ∧
      (∀ r ∈ t.rakes, r.haul ≠ h.id) ∧ (∀ v ∈ t.views, v.haul ≠ h.id) ∧ ∀ k ∈ t.hauls, k.id = h.id → k.retired = true) ∧
  ∀ (s v : State) x sig p l b, s.memOk → sig ≠ 0 → s.translate x .store sig = (v, .found p l b) → isHost p = false →
    v.poisoned p 8 = false → let t := s.recordAndSignal x 0 sig []
    t.2 = true ∧ t.1.rdNat p 8 = (v.rdNat p 8 + (2 ^ 64 - 1)) % 2 ^ 64 ∧
      ∀ a, a < p ∨ p + 8 ≤ a → Memory.get t.1.mem a = Memory.get v.mem a) ∧
  (
  ∀ (s : State) h rake q rot slots, s.haul? h.id = some h → h.saved = [] → s.memOk →
    s.room h rake q rot = true → s.isNext h rake q = true → s.slotsOk (h.coachesToSeat rake s.fresh) q rot slots = true →
    ∃ (t : State) (r : Rake) (cs : List Coach), exec (.rakePlace h.id rake q rot slots) s = .next t ∧
      t.rakes = s.rakes ++ [r] ∧ r.haul = h.id ∧ r.rake = rake ∧ r.quad = q ∧ r.rot = rot ∧ t.co = s.co ∧
      t.coaches = s.coaches ++ cs ∧ cs.length = h.hdr.ncoach ∧
      (∀ i c, cs[i]? = some c → c.ident.cidx = i ∧ c.ident.rake = rake ∧ c.ident.haul = h.id ∧ c.ident.level = 0 ∧
        c.ident.core = 4 * q + (rot + i % 4) % 4 ∧ slots[i]? = some c.ident.slot ∧ c.issue.phase = .ready ∧
        c.issue.off = (h.hdr.entry : Int) ∧ c.traps.mode = .u ∧ c.masks.live = c.masks.exm ∧
        (∀ l, l < 32 → c.masks.exm.getLsbD l = decide (32 * i + l < h.hdr.lanes) ∧
          vget (vget c.regs.v 0) l = BitVec.ofNat 32 (32 * i + l)) ∧
        ([1, 2, 3, 4, 5].map fun j => vget c.regs.g j) = [h.hdr.args, BitVec.ofNat 64 rake, BitVec.ofNat 64 i,
          BitVec.ofNat 64 h.hdr.rakes, BitVec.ofNat 64 h.hdr.ncoach] ∧
        c.special.asid = h.asid ∧ c.special.ptbase = h.ptroot) ∧
      (t.quad q).haul = some h.id ∧ (t.quad q).power = .on ∧
      (∀ x, x < h.hdr.qmb → Memory.get t.mem (homeQm q r.qmBase + x) = 0) ∧
      ∀ k ∈ t.hauls, k.id = h.id → k.nextRake = h.nextRake + 1 ∨ ∃ g ∈ s.hauls, g ≠ h ∧ g.id = h.id) ∧
  (
  (∀ h r (s : State) g k, s.haul? h = some g → s.rake? h r = some k →
    let asked : Prop := g.saving.isSome = true ∨ (s.vf g.vf).locking.isSome = true ∨ (s.quad k.quad).draining = true ∨
      (s.swapIn (s.quad k.quad).vf ≠ [] ∧ s.victim k.quad = some k)
    (¬ asked → exec (.preemptionRequest h r) s = .next s) ∧
    (asked → ∃ t : State, exec (.preemptionRequest h r) s = .next t ∧ t.mem = s.mem ∧
      t.allCoaches = s.allCoaches.map (fun c => if c.of h r = true ∧ c.preempt.pending = false then { c with preempt := {
        pending := true, atSave := c.issue.phase == .waiting && c.issue.rex.isNone
        full := c.issue.phase == .waiting && c.issue.rex.isNone, vlive := [], start := 0, len := 0
        since := s.dev.time } } else c))) ∧
  (∀ (s : State) h r, s.haul? h.id = some h → ∃ t : State, exec (.preemptionDeadline h.id r) s = .next t ∧ t.mem = s.mem ∧
    t.allCoaches = s.allCoaches.map fun c => if c.of h.id r = true ∧ c.preempt.pending = true ∧ c.preempt.atSave = false ∧ c.issue.rex = none ∧
        h.hdr.deadlineUs * 100 ≤ (s.dev.time - c.preempt.since).toNat
      then { c with preempt := { c.preempt with atSave := true, full := true } } else c) ∧
  (∀ q (s : State) v w rest, s.victim q = some v → s.swapIn (s.quad q).vf = w :: rest →
    ∃ t : State, exec (.timeSlice q) s = .next t ∧ t.mem = s.mem ∧ t.rakes = s.rakes ∧
      (∀ c ∈ t.allCoaches, c.of v.haul v.rake = true → c.preempt.pending = true) ∧
      (w.haul ≠ v.haul → (t.quad q).draining = true ∧
        ∀ r ∈ s.rakes, r.quad = q → ∀ c ∈ t.allCoaches, c.of r.haul r.rake = true → c.preempt.pending = true) ∧
      (w.haul = v.haul → t.quads = s.quads)) ∧
  (∀ (s : State) h r w, s.haul? h.id = some h → h.waiting.find? (fun w => w.rake == r) = some w → s.runs h = true →
    w.front = false → w.since + 8 * h.hdr.sliceUs * 100 < s.dev.time.toNat →
    ∃ t : State, exec (.swapInPromote h.id r) s = .next t ∧ t = { s with hauls := t.hauls } ∧
      t.haul? h.id = some { h with promoted := h.promoted ++ [r] }) ∧
  (∀ (s : State) q h, (s.quad q).haul = some h → s.drained q h = true →
    ∃ t : State, exec (.quadHaulChange q) s = .next t ∧ t.mem = s.mem ∧ t.co = s.co ∧
      t.quad q = { s.quad q with haul := none, lifts := [], draining := false } ∧
      ∀ j, j < 4 → (t.core (4 * q + j)).banks = [] ∧ (t.core (4 * q + j)).token = 0) ∧
  ∀ q (s : State) n, let v := (s.quad q).vf
    (s.vf v).shr = true → (if (s.vf v).slice = 0 then 2000 else (s.vf v).slice.toNat) * 100 ≤ (s.dev.time - (s.quad q).vfSince).toNat →
    (∀ m, s.lists m q = true → (s.vf m).shr = true → s.swapIn m ≠ [] → m = v ∨ m = n) → n < 32 → n ≠ v → v < 32 →
    s.lists n q = true → (s.vf n).shr = true → s.swapIn n ≠ [] →
    ∃ t : State, exec (.vfSliceSwitch q) s = .next t ∧ t.mem = s.mem ∧
      ((s.quad q).haul = none → SetsQuad s t q { s.quad q with vf := n, vfSince := s.dev.time, draining := false }) ∧
      ((s.quad q).haul ≠ none → (t.quad q).draining = true ∧
        ∀ r ∈ s.rakes, r.quad = q → ∀ c ∈ t.allCoaches, c.of r.haul r.rake = true → c.preempt.pending = true))

/-- R347, R348, R351: SLEEP, PHINT and TLBI. SLEEP ends the run until TIME reaches G[a]. PHINT checks its range and, with a
request pending for a primary coach, ends the run at a save point. TLBI needs S mode, scope 2 H mode, and drops from every TLB
the translations its scope names; with no write buffered, nothing else changes. What PHINT does for a shading coach is the
model's reading (log 65), as is the order of PRIV and FIELD for TLBI (log 66).

R85, R86, R239, R240, R375 to R378: power control. A quad's clock begins to change to a legal one, its cores pausing, and is
in force once stable; a new limit cuts, of the quads whose clock is or would become faster, those of lowest effective priority
(log 63: a quad's is its coaches' highest); a core's cadence is 1 to 16. A band that nothing has selected for 4 µs is gated, a
selected one queues for its wake; a quad that is quiet for 100 µs turns idle, then is gated without its haul, and one that is not
quiet is not; a gated one that work waits for queues for its wake, and the wake's end makes the first in the queue usable. No
memory, coach or register changes. -/
def Obligations.PowerSteps : Prop :=
  (
  (∀ m a (s : State), ∃ r : State, exec (.sleep m a) s = .next (r.finishWord m) ∧ EndsRun s r (.sleep (s.co.greg a))) ∧
  (∀ m a b (s : State), ∃ r : State, exec (.phint m a b) s = .next (r.finishWord m) ∧
    let start := (s.co.greg b).toNat % 2 ^ 32
    let len := (s.co.greg b).toNat / 2 ^ 32
    if start % 4 ≠ 0 ∨ len % 4 ≠ 0 ∨ s.co.window.scrProg < start + len then Records s r s.co.masks.exm (causeSpace cProt start)
    else if s.co.preempt.pending = false ∨ s.co.ident.level ≠ 0 then r = s
    else ∃ u, EndsRun s u .none ∧ r = { u with co := { u.co with preempt := { s.co.preempt with
      atSave := true, full := false, vlive := s.co.liveRegs (s.co.greg a), start := start, len := len } } }) ∧
  ∀ m a b (s : State), ∃ r : State, exec (.tlbi m a b) s = .next (r.finishWord m) ∧
    let i := Instr.tlbi m a b
    let k := (s.co.greg b).toNat
    let va := (s.co.greg a).toNat % 2 ^ 52
    if s.co.traps.mode = .u then Records s r s.co.masks.exm (causeWord cPriv i.word)
    else if 3 ≤ k then Records s r s.co.masks.exm (causeIll subField i.word)
    else if k = 2 ∧ s.co.traps.mode ≠ .h then Records s r s.co.masks.exm (causeWord cPriv i.word)
    else
      let left := s.tlb.filter fun t => !(t.vf == s.ctx.vf && (k == 2 || (t.asid == s.co.special.asid &&
        (k == 1 || t.page / 2 ^ t.pbits == va / 2 ^ t.pbits))))
      r.tlb = left ∧ ((∀ c ∈ s.allCoaches, c.wbuf = []) → r = { s with tlb := left })) ∧
  (
  (∀ q n (s : State), (600 ≤ n ∧ n ≤ 1900 ∧ n % 25 = 0) → (s.quad q).changing = false →
    ∃ t : State, exec (.clockChange q n) s = .next t ∧ SetsQuad s t q { s.quad q with changing := true, target := n }) ∧
  (∀ q (s : State), (s.quad q).changing = true → ∃ t : State, exec (.clockStable q) s = .next t ∧
    SetsQuad s t q { s.quad q with changing := false, clock := (s.quad q).target }) ∧
  (∀ n (s : State), (600 ≤ n ∧ n ≤ 1900 ∧ n % 25 = 0) → ∃ t : State, exec (.powerLimitCrossed n) s = .next t ∧
    t = { s with quads := t.quads } ∧
    let aim (q : Nat) : Nat := if (s.quad q).changing then (s.quad q).target else (s.quad q).clock
    ∀ q, let cut : Prop := q < 64 ∧ n < aim q ∧ ∀ k < 64, n < aim k → s.quadPrio q ≤ s.quadPrio k
      (cut → t.quad q = if (s.quad q).changing then { s.quad q with target := n }
        else { s.quad q with changing := true, target := n }) ∧ (¬ cut → t.quad q = s.quad q)) ∧
  (∀ c n (s : State), 1 ≤ n → n ≤ 16 → ∃ t : State, exec (.ricWrite c n) s = .next t ∧
    SetsCore s t c { s.core c with ric := BitVec.ofNat 5 n }) ∧
  (∀ c b (s : State), b < 4 → (true, 4 * c + b) ∉ s.dev.wakes →
    ((∀ op ∈ (s.core c).queue, op.selects.getLsbD b = false) → 400 ≤ (s.dev.time - vget (s.core c).bandUsed b).toNat → ∃ t : State, exec (.bandGate c b) s = .next t ∧
      SetsCore s t c { s.core c with gated := (s.core c).gated ||| (1#4 <<< b) }) ∧
    ((∃ op ∈ (s.core c).queue, op.selects.getLsbD b = true) → (s.core c).gated.getLsbD b = true →
      ∃ t : State, exec (.bandWake c b) s = .next t ∧
        t = { s with dev := { s.dev with wakes := s.dev.wakes ++ [(true, 4 * c + b)] } })) ∧
  (∀ q (s : State), s.quiet q = false →
    ((s.quad q).power = .on → ∃ t : State, exec (.quadIdle q) s = .next t ∧ SetsQuad s t q { s.quad q with idleFrom := none }) ∧
    ((s.quad q).power = .idle → ∃ t : State, exec (.quadGate q) s = .next t ∧
      SetsQuad s t q { s.quad q with power := .on, idleFrom := none })) ∧
  (∀ q (s : State), s.quiet q = true →
    ((s.quad q).power = .on →
      ((s.quad q).idleFrom = none → ∃ t : State, exec (.quadIdle q) s = .next t ∧
        SetsQuad s t q { s.quad q with idleFrom := some s.dev.time }) ∧
      ∀ from_, (s.quad q).idleFrom = some from_ →
        if (s.dev.time - from_).toNat < 10000 then exec (.quadIdle q) s = .next s
        else ∃ t : State, exec (.quadIdle q) s = .next t ∧ SetsQuad s t q { s.quad q with power := .idle, idleFrom := none }) ∧
    ((s.quad q).power = .idle → ∃ t : State, exec (.quadGate q) s = .next t ∧
      t.quad q = { s.quad q with power := .gating, haul := none, lifts := [], draining := false } ∧ t.mem = s.mem ∧
      t.co = s.co)) ∧
  (∀ (q : Machine.Quad) e, (q.post e).idleFrom = none ∧ (q.post e).power = if q.power = .idle then .on else q.power) ∧
  (∀ q (s : State), (s.quad q).power = .gating → ∃ t : State, exec (.gatingComplete q) s = .next t ∧
    SetsQuad s t q { s.quad q with power := .gated }) ∧
  (∀ q n (s : State), (s.quad q).power = .gated → n < 32 → s.lists n q = true → s.swapIn n ≠ [] →
    ∃ t : State, exec (.quadWake q) s = .next t ∧ (t.quad q).power = .waking ∧ t.dev.wakes = s.dev.wakes ++ [(false, q)] ∧
      t.mem = s.mem) ∧
  ∀ b n rest (s : State), s.dev.wakes = (b, n) :: rest → ∃ t : State, exec .wakeChainEnd s = .next t ∧ t.dev.wakes = rest ∧
    (b = true → (t.core (n / 4)).gated = (s.core (n / 4)).gated &&& ~~~(1#4 <<< (n % 4))) ∧
    (b = false → t.quad n = { s.quad n with power := .on }) ∧ t.mem = s.mem ∧ t.co = s.co)

/-- R14 to R16, R374, R380, R381, R383: errors. A retried flit counts as corrected; a link that retrains changes nothing, and
one that fails counts as uncorrectable and, between dies, ends every haul with HWERR. An error of a memory is one of the unit
that holds the address, or nothing happens: a stack's channel groups, a die's, a quad's memory, a core's pool. A correctable
one is counted; an uncorrectable one, or one the scrubber cannot correct, is counted and poisons the granules of its codeword,
or the words of a coach's registers that lie there; one of a crossbar or a Coupler fails the loads of the granule of one coach
in flight, or any access of the next step. No byte of memory changes. The model's own: which access a failing unit fails (log
41), which register words a pool address meets and that their readers trap (logs 13, 39), and that an error at an address which
its unit does not hold changes nothing (log 25). -/
def Obligations.ErrorSteps : Prop :=  ∀ d u i (s : State), d < 4 → i < unitsOf u →
    let e := s.errorsOf d u i
    let fixed (t : State) : Prop := (∃ g, t.errorsOf d u i = (e.1 + 1, e.2.1, g) ∧ (e.2.2 = true → g = true)) ∧
      t = { s with dev := { s.dev with errors := t.dev.errors } } ∧
      ∀ k, k ≠ (d, u, i) → t.errorsOf k.1 k.2.1 k.2.2 = s.errorsOf k.1 k.2.1 k.2.2
    let lost (t : State) : Prop := t.errorsOf d u i = (e.1, e.2.1 + 1, e.2.2) ∧ t.mem = s.mem ∧
      ∀ k, k ≠ (d, u, i) → t.errorsOf k.1 k.2.1 k.2.2 = s.errorsOf k.1 k.2.1 k.2.2
    let n := if u = 8 then 32 else 8
    let spoilt (a : Nat) (t : State) : Prop :=
      let gs := (List.range (n / 4)).map fun j => a / n * n + 4 * j
      let clean (c : Coach) : Coach := { c with regs := { c.regs with bad := [] } }
      t = { s with co := t.co, coaches := t.coaches, dev := { s.dev with errors := t.dev.errors, poison := t.dev.poison } } ∧
      (t.co :: t.coaches).map clean = (s.co :: s.coaches).map clean ∧
      (∀ p ∈ (s.co :: s.coaches).zip (t.co :: t.coaches), ∀ w, w ∈ p.2.regs.bad ↔
        w ∈ p.1.regs.bad ∨ (p.1.present = true ∧ w ∈ p.1.regsAt gs)) ∧
      ∀ g, g ∈ t.dev.poison ↔ g ∈ s.dev.poison ∨ (g ∈ gs ∧ ∀ c ∈ s.allCoaches, c.regsAt [g] = [])
    (u = 1 ∨ u = 2 → (∃ t : State, exec (.flitRetry d u i) s = .next t ∧ fixed t) ∧
      exec (.linkRetrain d u i true) s = .next s ∧
      ∃ t : State, exec (.linkRetrain d u i false) s = .next t ∧ lost t ∧
        (u = 1 → ∀ h ∈ t.hauls, h.retired = false → h.ended.isSome = true)) ∧
    (∀ a, (unitHolds d u i a = true ↔
      (u = 4 → (homeScr (64 * d + i) 0 ≤ a ∧ a < homeScr (64 * d + i) 4194304) ∨
        (homeAcc (64 * d + i) 0 ≤ a ∧ a < homeAcc (64 * d + i) 0 + 2 ^ 52)) ∧
      (u = 5 → homeQm (16 * d + i) 0 ≤ a ∧ a < homeQm (16 * d + i) 0 + 2 ^ 52) ∧ (u = 6 → isGlobal a = true) ∧
      (u = 7 → a < devBytes ∧ groupOf a / 16 = d) ∧ (u = 8 → a < devBytes ∧ groupOf a / 8 = 2 * d + i))) ∧
    (∀ a, 4 ≤ u → if unitHolds d u i a = true
      then ∃ t : State, exec (.uncorrectableError d u i a) s = .next t ∧ lost t ∧ spoilt a t
      else exec (.uncorrectableError d u i a) s = .next s) ∧
    (∀ a, u = 2 ∨ u = 3 → ∃ t : State, exec (.uncorrectableError d u i a) s = .next t ∧ lost t ∧ t.dev.poison = s.dev.poison ∧
      (granule a, s.fresh + 1) ∈ t.dev.lost ∧ (s.co.present = true → (∃ x ∈ s.co.issue.deferred, x.needs (granule a) = true) →
        (∀ x ∈ t.co.issue.deferred, x.needs (granule a) = false) ∧ t.co.regs = s.co.regs)) ∧
    ∀ a, 4 ≤ u → if unitHolds d u i a = true
      then (∃ t : State, exec (.scrub d u i a true) s = .next t ∧ fixed t) ∧
        (u = 4 ∨ u = 6 → exec (.scrub d u i a false) s = .next s) ∧
        (u = 5 ∨ u = 7 ∨ u = 8 → ∃ t : State, exec (.scrub d u i a false) s = .next t ∧ lost t ∧ spoilt a t)
      else ∀ b, exec (.scrub d u i a b) s = .next s

/-- R38, R88, R352, R365: a haul that its watchdog catches ends with TIMEOUT (4), every coach of it stopped; a save outside the
device frees the request slots of the complete tickets of coaches at their save points; a rake all of whose
coaches stand at save points, nothing of it under way, is saved: its coaches leave their core with its room and banks free,
each kept with its masks, its live registers and its saved offset, or the haul ends with HWERR where the save meets an
uncorrectable error.

R355, R360 to R363, R107, R356: VFs from outside. A function-level reset sets FLRB and ends the hauls of the VF
without record; once the last of them has stopped, at once where there is none, the VF is disabled and unlocked, FLRB is 0, and
its queues, translations, registrations and migrations are gone (log 33), no other VF changing. An interface is
locked, with its session key and its SHA3-384 measurements (which parts, hashed one by one in which order: log 7), once no rake of the VF is resident; a locked one that loses its
integrity goes to ERROR and is reset; a peer's write to a VF in its blackout joins the stub. Device reset leaves every register at its reset value, and memory beyond the firmware's window as it was: log 34.

R18 to R20, R45, R46, R214, R355, R357, R368: accesses from outside to device memory. One that the port's matrix row
refuses, or a host's write into a locked VF's table, changes only the refusal counter of the VF the memory belongs to; another
write lands at its home, a read changes nothing, and an atomic of the host makes its step, unless its word is poisoned. What a
peer names in the frames of a VF in its blackout joins the stub or waits at the port, and in those of one that has left it is
handed on. A write to the window, of the host or of a peer (by its addresses: log 77), lands beyond the firmware's 64
KiB alone. Which counter a refused access to a locked table steps is log 55, which frames are a VF's log 56, an event that cannot happen log 25. -/
def Obligations.OutsideSteps : Prop :=
  (
  (∀ (s : State) h, s.haul? h.id = some h → h.hdr.watchdog ≠ 0 → h.hdr.watchdog * 100000 < s.watched h → h.ended = none →
    h.retired = false → h.rakesDone < h.hdr.rakes →
    ∃ t : State, exec (.watchdogExpiry h.id) s = .next t ∧ t.haul? h.id = some { h with ended := some (4, 0, 0) } ∧
      t.mem = s.mem ∧ ∀ c ∈ t.allCoaches, c.ident.haul = h.id → c.issue.phase = .halted) ∧
  (∀ (s : State) h r, s.haul? h.id = some h → s.rake? h.id r.rake = some r → h.ended = none → h.saving.isSome = true →
    (∀ c ∈ s.coachesOf h.id r.rake, c.stopped = true) → s.savable h r.rake (s.coachesOf h.id r.rake) = false →
    ∃ t : State, exec (.rakeSave h.id r.rake) s = .next t ∧ t = { s with views := t.views, quads := t.quads } ∧
      (t.views.map fun v => { v with slots := 0 }) = (s.views.map fun v => { v with slots := 0 }) ∧
      ∀ c ∈ s.coachesOf h.id r.rake, ∀ k ∈ c.tickets, k.tile = none → s.ticketDone k = true → ∀ v, t.view? k.req = some v →
        v.slots = 0) ∧
  ∀ (s : State) h r, s.haul? h.id = some h → s.rake? h.id r.rake = some r → h.ended = none → s.savable h r.rake (s.coachesOf h.id r.rake) = true →
    let ids := (s.coachesOf h.id r.rake).map fun c => c.ident.id
    (∀ c ∈ s.allCoaches, c.wbuf = []) → s.co.present = true → ((s.co :: s.coaches).map fun c => c.ident.id).Nodup →
    ∃ t : State, exec (.rakeSave h.id r.rake) s = .next t ∧ t.mem = s.mem ∧
      if (s.saveError h r (s.coachesOf h.id r.rake)).isSome then ∃ k ∈ t.hauls, k.id = h.id ∧ ∃ d, k.ended = some (9, d, 0)
      else t.rakes = s.rakes.filter (fun x => !(x.haul == h.id && x.rake == r.rake)) ∧
        (∀ c ∈ t.allCoaches, c.ident.id ∉ ids) ∧ (∀ n, n / 4 = r.quad → ∀ b ∈ (t.core n).banks, b.2 ∉ ids) ∧
        ∃ k v, t.haul? h.id = some k ∧ k.saved = h.saved ++ [v] ∧ v.rake = r.rake ∧
          v.coaches.length = (s.coachesOf h.id r.rake).length ∧
          ∀ p ∈ v.coaches.zip (s.coachesOf h.id r.rake), p.1.ident = p.2.ident ∧ p.1.masks = p.2.masks ∧ p.1.traps = p.2.traps ∧
            p.1.regs.g = p.2.regs.g ∧ p.1.regs.k = p.2.regs.k ∧ p.1.issue.off = p.2.issue.off ∧
            ∀ i, i < 256 → vget p.1.regs.v i = if p.2.savedRegs.contains i then vget p.2.regs.v i else Vector.replicate 32 0) ∧
  (
  (∀ n (s : State), n < 32 →
    let gone (t : State) : Prop := (t.vf n).en = false ∧ (t.vf n).lock = false ∧ (t.vf n).flrb = false ∧
      (t.vf n).launches = 0 ∧ (t.vf n).psets = [] ∧ (t.vf n).key = 0 ∧ (∀ q ∈ t.queues, q.vf ≠ n) ∧ (∀ e ∈ t.tlb, e.vf ≠ n) ∧
      (∀ m ∈ t.migrations, m.vf ≠ n) ∧ (∀ h ∈ t.hauls, h.vf = n → h.retired = true) ∧
      (∀ k, k ≠ n → t.vf k = s.vf k) ∧ ∀ a, a < homeWin 0 ∨ homeWin 65536 ≤ a → Memory.get t.mem a = Memory.get s.mem a
    let stopping (t : State) : Prop := (t.vf n).flrb = true ∧ (t.vf n).lock = (s.vf n).lock ∧ t.mem = s.mem ∧
      (∀ h ∈ t.hauls, h.vf = n → h.retired = false →
        h.ended.isSome = true ∧ h.silent = true ∧ h.saved = [] ∧ h.nextRake = h.hdr.rakes) ∧ ∀ k, k ≠ n → t.vf k = s.vf k
    let live : Prop := ∃ h ∈ s.hauls, h.vf = n ∧ h.retired = false
    (s.memOk → ∃ t : State, exec (.functionLevelReset n) s = .next t ∧ (t.vf n).error = false ∧
      (live → stopping t) ∧ (¬ live → gone t)) ∧
    (∀ h, s.memOk → s.haul? h.id = some h → h.vf = n → h.retired = false → h.ended.isSome = true → h.silent = true →
      h.saving = none → (s.vf n).flrb = true → (∀ k ∈ s.hauls, k.vf = n → k.retired = false → k.id = h.id) →
      (s.drayBusy fun c => c.haul == h.id) = false → s.arraysBusy h.id = false → (∀ c ∈ s.allCoaches, c.wbuf = []) →
      ∃ t : State, exec (.haulRetire h.id) s = .next t ∧ gone t) ∧
    (s.memOk → (s.vf n).lock = true → ∃ t : State, exec (.interfaceError n) s = .next t ∧ (t.vf n).error = true ∧
      (live → stopping t) ∧ (¬ live → gone t)) ∧
    ((s.vf n).lock = false → exec (.interfaceError n) s = .next s) ∧
    (∀ key, (s.vf n).lock = false → (∀ r ∈ s.rakes, s.rakeOf n r = false) → (s.vf n).locking = none →
      ∃ (t : State) (x : Vf), exec (.tdispLockInterface n key) s = .next t ∧ SetsVf s t n x ∧
        x = { s.vf n with lock := true, key := key, error := false, measured := (s.measuredParts n).map sha3_384 }) ∧
    ∀ p a b, p ∈ [64, 66, 68, 70] → b ≠ [] → (s.vf n).blackout.isSome = true → (s.gpaOf n a).isSome = true →
      (s.portAllows p a = true → s.portAllows p (a + b.length - 1) = true → (s.vf n).stub.length < 4096 →
        ∃ t : State, exec (.stubAppend n a { port := p, op := .write b }) s = .next t ∧
          SetsVf s t n { s.vf n with stub := (s.vf n).stub ++ [(a, .write b)] }) ∧
      (s.portAllows p a = false ∨ s.portAllows p (a + b.length - 1) = false →
        exec (.stubAppend n a { port := p, op := .write b }) s = .next (s.countRefused a))) ∧
  ∀ s : State, s.memOk → ∃ t : State, exec .deviceReset s = .next t ∧ t = { State.reset with
      mem := t.mem, dev := { deviceReset with poison := s.dev.poison }, schedule := s.schedule, fresh := s.fresh, nextId := s.nextId } ∧
    ∀ a, Memory.get t.mem a = if homeWin 0 ≤ a ∧ a < homeWin 65536 then 0 else Memory.get s.mem a) ∧
  (
  (∀ p a b (s : State), p ∈ [64, 65, 66, 68, 70] → b ≠ [] → s.memOk → (p = 65 ∨ a < winBase) →
    let n := b.length
    let may := s.portAllows p a = true ∧ s.portAllows p (a + n - 1) = true
    (¬ may ∨ (p = 65 ∧ s.tableLocked a n = true) → ∃ (t : State) (v : Nat), exec (.ingressAccess p a (.write b)) s = .next t ∧ v < 32 ∧
      (a < devBytes → (s.vf v).memp.getLsbD (groupOf a) = true ∨ v = 0) ∧ t.co = s.co ∧
      t.rdNat (homeWin (0x1000 + 64 * v + 8)) 8 = (s.rdNat (homeWin (0x1000 + 64 * v + 8)) 8 + 1) % 2 ^ 64 ∧
      ∀ x, x < homeWin (0x1000 + 64 * v + 8) ∨ homeWin (0x1000 + 64 * v + 16) ≤ x → Memory.get t.mem x = Memory.get s.mem x) ∧
    (may → p = 65 ∧ s.tableLocked a n = false ∨ p ≠ 65 ∧ s.movingVf a = none ∧ s.leftVf a = none →
      ∃ t : State, exec (.ingressAccess p a (.write b)) s = .next t ∧ t.rd a n = b ∧ t.co = s.co ∧
        ∀ x, x < a ∨ a + n ≤ x → Memory.get t.mem x = Memory.get s.mem x)) ∧
  (∀ p a n (s : State), s.portAllows p a = true → s.portAllows p (a + n - 1) = true →
    (p = 65 ∨ s.movingVf a = none ∧ s.leftVf a = none) → exec (.ingressAccess p a (.read n)) s = .next s) ∧
  (∀ p a b (s : State), p ∈ [64, 66, 68, 70] → b ≠ [] → a < winBase → s.portAllows p a = true →
    s.portAllows p (a + b.length - 1) = true →
    (∀ v, s.movingVf a = some v → v < 32 ∧ (s.vf v).blackout.isSome = true ∧ (s.gpaOf v a).isSome = true ∧
      ((s.vf v).stub.length < 4096 → ∃ t : State, exec (.ingressAccess p a (.write b)) s = .next t ∧
        SetsVf s t v { s.vf v with stub := (s.vf v).stub ++ [(a, .write b)] }) ∧
      ∃ t : State, exec (.ingressAccess p a (.read b.length)) s = .next t ∧
        SetsVf s t v { s.vf v with held := (s.vf v).held ++ [(p, a, .read b.length)] }) ∧
    ∀ v g, s.movingVf a = none → s.leftVf a = some (v, g) → v < 32 ∧ (s.vf v).forwarding = true ∧
      ∃ t : State, exec (.ingressAccess p a (.write b)) s = .next t ∧
        SetsVf s t v { s.vf v with sent := (s.vf v).sent ++ [(g, .write b)] }) ∧
  (∀ a x y r (s : State) o new, s.portAllows 65 a = true → s.portAllows 65 (a + 3) = true → a % 4 = 0 →
    s.tableLocked a 4 = false → s.memOk →
    let old : Word := BitVec.ofNat 32 (s.rdNat a 4)
    (o = 0 ∧ new = old + x) ∨ (o = 8 ∧ new = x) ∨ (o = 9 ∧ new = if old = x then y else old) →
    if s.poisoned a 4 = true then exec (.ingressAccess 65 a (.atomic o x y r)) s = .next s
    else ∃ t : State, exec (.ingressAccess 65 a (.atomic o x y r)) s = .next t ∧ t.rdNat a 4 = new.toNat ∧
      ∀ i, i < a ∨ a + 4 ≤ i → Memory.get t.mem i = Memory.get s.mem i) ∧
  (∀ p a b (s : State), p ∈ [64, 66, 68, 70] → winBase ≤ a → s.memOk → a + b.length ≤ 2 ^ 52 →
    if a - winBase < 65536 then exec (.ingressAccess p a (.write b)) s = .next s
    else ∃ t : State, exec (.ingressAccess p a (.write b)) s = .next t ∧ t.rd (homeWin (a - winBase)) b.length = b ∧
      ∀ x, x < homeWin (a - winBase) ∨ homeWin (a - winBase) + b.length ≤ x → Memory.get t.mem x = Memory.get s.mem x) ∧
  ∀ a b (s : State), s.memOk → ∃ t : State, exec (.ingressAccess 65 a (.cxl b)) s = .next t ∧
    if 65536 ≤ a ∧ a + b.length ≤ winBytes then t.rd (homeWin a) b.length = b ∧
        ∀ x, x < homeWin a ∨ homeWin a + b.length ≤ x → Memory.get t.mem x = Memory.get s.mem x
    else t = s)

/-- R56 to R59: kicks. A kick of a VF that is disabled or in its reset, with a reserved bit, or whose walk drops it changes no
queue and is counted in the VF's counter of dropped kicks; one whose walk finds its queue sets both KICKED bits, counts in the
QCB and sets the queue's bit of its die's bitmap; firmware makes an entry that kicks are held for present, or clears its V
(which of the two is free: log 70), and the kicks are walked again; the leader takes a 32-bit word of a bitmap, leaving it
zero, and an idle queue of the tables on its slots that has packets becomes ACTIVE, or joins the deferred list where its VF's
quota leaves no room. That all of them count in the one counter is the model's reading (log 67). -/
def Obligations.KickSteps : Prop :=  (∀ v w p (s : State), v < 32 → s.memOk → let y := p.getD (s.vf v).dpasid
    let drops (u t : State) : Prop := t.queues = s.queues ∧ t.dev.kicks = s.dev.kicks ∧
      t.rdNat (homeWin (0x1000 + 64 * v)) 8 = (u.rdNat (homeWin (0x1000 + 64 * v)) 8 + 1) % 2 ^ 64 ∧
      ∀ x, x < homeWin (0x1000 + 64 * v) ∨ homeWin (0x1000 + 64 * v + 8) ≤ x → Memory.get t.mem x = Memory.get u.mem x
    (w.toNat / 1024 ≠ 0 ∨ (s.vf v).en = false ∨ (s.vf v).flrb = true → ∃ t : State, exec (.kick v w p) s = .next t ∧ drops s t) ∧
    (∀ u, w.toNat / 1024 = 0 → (s.vf v).en = true → (s.vf v).flrb = false →
      s.walkQueue v y.toNat (w.toNat % 1024) = (u, .drop) → ∃ t : State, exec (.kick v w p) s = .next t ∧ drops u t) ∧
    ∀ u e, w.toNat / 1024 = 0 → (s.vf v).en = true → (s.vf v).flrb = false →
      s.walkQueue v y.toNat (w.toNat % 1024) = (u, .hold e) →
      ∃ t : State, exec (.kick v w p) s = .next t ∧ SetsVf u t v { u.vf v with heldKicks := (u.vf v).heldKicks ++ [(e, w, y)] }) ∧
  (∀ v w p (s u : State) a c, v < 32 → w.toNat / 1024 = 0 → (s.vf v).en = true → (s.vf v).flrb = false → s.memOk →
    s.walkQueue v (p.getD (s.vf v).dpasid).toNat (w.toNat % 1024) = (u, .found a c) → a + 8 ≤ c ∨ c + 64 ≤ a →
    ∃ t : State, exec (.kick v w p) s = .next t ∧
      (t.rdNat a 1).testBit 2 = true ∧ (t.rdNat c 1).testBit 2 = true ∧ t.rdNat (c + 0x20) 4 = (u.rdNat (c + 0x20) 4 + 1) % 2 ^ 32 ∧
      (u.rdNat (c + 6) 1 < 4 → u.rdNat (c + 4) 2 < 4096 →
        (vget t.dev.kicks (u.rdNat (c + 6) 1)).getLsbD (u.rdNat (c + 4) 2) = true) ∧
      (∃ q ∈ t.queues, q.vf = v ∧ q.qcb = c) ∧
      ∀ x, x ≠ a → x ≠ c → (x < c + 0x20 ∨ c + 0x24 ≤ x) → Memory.get t.mem x = Memory.get u.mem x) ∧
  (∀ v e (s : State), (∀ k ∈ (s.vf v).heldKicks, k.1 ≠ e) ∨ s.leads = false → exec (.kickRewalk v e) s = .next s) ∧
  (∀ v e w y (s : State), (s.vf v).heldKicks = [(e, w, y)] → v < 32 → s.leads = true →
    let b := s.rdNat e 1
    let empty (u : State) : State := { u with vfs := (u.modVf v fun x => { x with heldKicks := [] }).vfs }
    ∃ u t : State, exec (.kickRewalk v e) s = .next t ∧ exec (.kick v w (some y)) (empty u) = .next t ∧
      if s.portSees (ctrlPort s.leaderDie) e = false then u = s.countRefused e
      else if b.testBit 0 = true ∧ b.testBit 1 = false then u = s.wrNat e 1 (b + 2) ∨ u = s.wrNat e 1 (b - 1) else u = s) ∧
  ∀ (s : State) d w, s.leads = true → d < 4 → w < 128 →
    let bits := (vget s.dev.kicks d).extractLsb' (32 * w) 32
    let off : State := { s with dev := { s.dev with
      kicks := vset s.dev.kicks d (vget s.dev.kicks d &&& ~~~((BitVec.allOnes 32).zeroExtend 4096 <<< (32 * w))) } }
    let u := off.discover (onSlot d w bits)
    ∃ t : State, exec (.pendingKickTake d w) s = .next t ∧ (bits = 0 → t = s) ∧
      (∀ i, 32 * w ≤ i → i < 32 * w + 32 → (vget t.dev.kicks d).getLsbD i = false) ∧
      (∀ i k, k < 4 → ¬ (k = d ∧ 32 * w ≤ i ∧ i < 32 * w + 32) → (vget t.dev.kicks k).getLsbD i = (vget s.dev.kicks k).getLsbD i) ∧
      ∀ q, (u.queues.filter fun k => u.qcb k 6 1 == d && u.qcb k 4 2 / 32 == w && bits.getLsbD (u.qcb k 4 2 % 32)) = [q] →
        u.memOk → q.force = [] → u.qcbSeen q = true →
        u.qcb q 1 1 = 0 → u.qcb q 0x10 4 ≠ q.rdidx → (u.vf q.vf).deferred.contains q.id = false →
        if u.quotaRoom q.vf = true then t.qcb q 1 1 = 1 ∧ ∀ x, x ≠ q.qcb + 1 → Memory.get t.mem x = Memory.get u.mem x
        else SetsVf u t q.vf { u.vf q.vf with deferred := (u.vf q.vf).deferred ++ [q.id] }

/-- R50, R51, R59, R67: the leader reads the packet at RDIDX, as its journal has it (R64), of an ACTIVE queue whose QCB its port reaches; where it does
not, the access is counted and nothing read (R368, log 79). With WRIDX at RDIDX the queue is settled: with nothing left it turns IDLE. More packets than slots is error 1, a packet that
breaks its format error 2, a read that fails error 4; otherwise the packet is held, and with the next such step goes into the
journal: RDIDX moves on and the packet waits last to start (R64, R65: one that a controller has read and not journalled when it
stops is read again). An error
sets STATE to ERROR and the cause, unless the queue stands in error already.

R52, R53, R400: packets that may start. NOP and FENCE complete; LAUNCH reads its image in the queue's
address space (`readImage`, R34): a sound one that fits a quad is accepted as a new haul, and a status ends the packet with its record and signal,
complete, or failed where one of these cannot be written; SIGNAL makes
one atomic step on its dword, and fails on a poisoned one or where its access fails; WAIT starts, its poll completes it once the condition holds within
TIMEOUT, and its timeout or an access that fails gives it the fate of an error; MARKER writes TAG and the time of its start;
DCOPY starts, and completes once its bytes are copied and its signal, if it names one, counted down, or fails where either
cannot be. That FENCE flushes the copies of all hauls
launched from the queue is the model's reading (log 62). -/
def Obligations.PacketSteps : Prop :=
  (
  (∀ (s : State) q, s.queue? q.id = some q → s.leads = true → s.qcbSeen q = false →
    exec (.packetFetch q.id) s = .next (s.countRefused q.qcb)) ∧
  (∀ (s : State) q, let wr := s.qcb q 0x10 4
    let rd := q.rdidx
    let size := 2 ^ s.qcb q 2 1
    let at_ := s.qcb q 8 8 + 64 * (rd % size)
    s.queue? q.id = some q → s.qcbSeen q = true → s.reads q = true → q.reading = none → s.memOk →
    ∃ t : State, exec (.packetFetch q.id) s = .next t ∧
      (wr = rd → t = s.settleQueue q.id ∧ (q.packets.all Packet.done = true → (s.vf q.vf).deferred = [] → t.qcb q 1 1 = 0)) ∧
      (wr ≠ rd → size < (wr + 2 ^ 32 - rd) % 2 ^ 32 → t = (s.queueError q 1).settleQueue q.id) ∧
      (wr ≠ rd → (wr + 2 ^ 32 - rd) % 2 ^ 32 ≤ size → ∀ u g, s.readVa (s.queueCtx q) at_ 64 = (u, g) →
        match g with
        | .ok b => t = { u with queues := t.queues } ∧ t.co = s.co ∧ t.queue? q.id = some { q with reading := some b }
        | _ => t = (u.queueError q 4).settleQueue q.id)) ∧
  (∀ (s : State) q b, let rd := q.rdidx
    s.queue? q.id = some q → s.qcbSeen q = true → s.reads q = true → q.reading = some b → s.memOk →
    ∃ t : State, exec (.packetFetch q.id) s = .next t ∧
      let v : State := s.wrNat (q.qcb + 0x14) 4 ((rd + 1) % 2 ^ 32)
      if packetBad b then t = ((v.modQueue q.id fun k => { k with reading := none, rdidx := (rd + 1) % 2 ^ 32 }).queueError q 2).settleQueue q.id
      else t.mem = v.mem ∧ t.rdNat (q.qcb + 0x14) 4 = (rd + 1) % 2 ^ 32 ∧ t.co = s.co ∧
        t.queue? q.id = some { q with reading := none, rdidx := (rd + 1) % 2 ^ 32, packets := (q.packets.filter fun p => !p.done) ++
          [{ index := rd, bytes := b, started := false, done := false, at_ := 0 }] }) ∧
  (∀ (s : State) q n, s.memOk → s.qcbSeen q = true → s.qcb q 1 1 ≠ 3 → n < 256 → s.qcb q 0x18 8 = 0 → (s.vf q.vf).deferred = [] →
    let t := s.queueError q n
    t.qcb q 1 1 = 3 ∧ t.qcb q 7 1 = n ∧ (∀ k ∈ t.queues, k.id = q.id → k.stopped = true) ∧
      ∀ x, x ≠ q.qcb + 1 → x ≠ q.qcb + 7 → Memory.get t.mem x = Memory.get s.mem x) ∧
  ∀ (s : State) q n, s.qcb q 1 1 = 3 → s.queueError q n = s) ∧
  (
  (∀ (s : State) q p, s.startable q.id p.index p.kind = some (q, p) →
    let u := s.startPacket q.id p.index
    let x := u.queueCtx q
    (p.kind = 0 → exec (.nopPacket q.id p.index) s = .next (u.packetDone q.id p.index)) ∧
    (p.kind = 3 → exec (.waitPacket q.id p.index) s = .next u) ∧ (p.kind = 6 → exec (.dcopyPacket q.id p.index) s = .next u) ∧
    (p.kind = 4 → p.arg ≠ 1 → exec (.fencePacket q.id p.index) s = .next (u.packetDone q.id p.index)) ∧
    (p.kind = 4 → p.arg = 1 → ∃ t v : State, exec (.fencePacket q.id p.index) s = .next t ∧ t = v.packetDone q.id p.index ∧
      v.co = s.co ∧ ∀ h ∈ u.hauls, h.vf = q.vf → h.pasid = q.pasid → h.qno = some q.qno → ∀ k ∈ v.hostCopies, (h.vf, h.asid) ∈ k.owners → k.dirty = false) ∧
    (p.kind = 2 → ∀ v g, u.translate x .store (p.dw 8) = (v, g) → (∀ h l b, g ≠ .found h l b) →
      exec (.signalPacket q.id p.index) s = .next (v.failPacket q.id p.index 4)) ∧
    (p.kind = 2 → ∀ v h l b, u.translate x .store (p.dw 8) = (v, .found h l b) → isHost h = false → s.memOk →
      if v.poisoned h 8 = true then exec (.signalPacket q.id p.index) s = .next (v.failPacket q.id p.index 4)
      else ∃ t w : State, exec (.signalPacket q.id p.index) s = .next t ∧ t = w.packetDone q.id p.index ∧
        w.rdNat h 8 = (if p.arg = 0 then p.dw 16 % 2 ^ 64 else if p.arg = 1 then (v.rdNat h 8 + p.dw 16) % 2 ^ 64
          else (v.rdNat h 8 + 2 ^ 64 - p.dw 16) % 2 ^ 64) ∧
        ∀ y, y < h ∨ h + 8 ≤ y → Memory.get w.mem y = Memory.get v.mem y) ∧
    (p.kind = 5 → ∀ w g z k, u.writeVa x (p.dw 8) (leBytes 8 (p.dw 16)) = (w, g) →
      w.writeVa x (p.dw 8 + 8) (leBytes 8 s.dev.time.toNat) = (z, k) →
      exec (.markerPacket q.id p.index) s = .next (z.endPacket q.id p.index (decide (g = .ok [] ∧ k = .ok [])))) ∧
    (p.kind = 1 → ∃ t : State, exec (.launchPacket q.id p.index) s = .next t ∧
      let bare (k : Haul) : Haul := { k with saved := [] }
      ∀ v g, u.readImage (launchReader x) (p.dw 8) = (v, g) → match g with
        | .ok (hd, ls, _) => ∃ h, t.hauls.map bare = s.hauls.map bare ++ [bare h] ∧ h.packet = some (q.id, p.index) ∧ h.qno = some q.qno ∧
          h.image = p.dw 8 ∧ h.record = p.dw 24 ∧ h.signal = p.dw 16 ∧ h.vf = q.vf ∧ h.pasid = q.pasid ∧ h.hdr = hd ∧
          h.lifts = ls ∧ h.retired = false ∧ h.ended = none ∧ h.tAccept = s.dev.time ∧
          h.launchNo = (s.vf q.vf).launches + 1 ∧ (t.vf q.vf).launches = (s.vf q.vf).launches + 1
        | .error e => v.hauls = s.hauls ∧
          let r := v.recordAndSignal (v.queueCtx q) (p.dw 24) (p.dw 16)
            (recordBytes e (if e = 9 then 8 else 0) (p.dw 8) 0 0 s.dev.time s.dev.time 0)
          t = r.1.endPacket q.id p.index r.2)) ∧
  (∀ (s : State) q p, s.pending q.id p.index 3 = some (q, p) →
    let late : Prop := p.dw 24 ≠ 0 ∧ p.dw 24 * 100 < (s.dev.time - p.at_).toNat
    (late → exec (.waitPoll q.id p.index) s = .next (s.failPacket q.id p.index 3)) ∧
    (∀ v g, ¬ late → s.translate (s.queueCtx q) .load (p.dw 8) = (v, g) → (∀ h l b, g ≠ .found h l b) →
      exec (.waitPoll q.id p.index) s = .next (v.failPacket q.id p.index 4)) ∧
    (∀ v h l b, ¬ late → s.translate (s.queueCtx q) .load (p.dw 8) = (v, .found h l b) → v.poisoned h 8 = true →
      exec (.waitPoll q.id p.index) s = .next (v.failPacket q.id p.index 4)) ∧
    (∀ v h l b, ¬ late → s.translate (s.queueCtx q) .load (p.dw 8) = (v, .found h l b) → v.poisoned h 8 = false →
      exec (.waitPoll q.id p.index) s = .next (
        let x := v.peekNat h 8
        if (p.arg = 0 ∧ x = p.dw 16) ∨ (p.arg = 1 ∧ x ≠ p.dw 16) ∨ (p.arg = 2 ∧ p.dw 16 ≤ x) ∨ (3 ≤ p.arg ∧ x < p.dw 16)
        then v.packetDone q.id p.index else v)) ∧
    (p.dw 24 ≠ 0 → p.dw 24 * 100 ≤ (s.dev.time - p.at_).toNat →
      exec (.waitTimeout q.id p.index) s = .next (s.failPacket q.id p.index 3))) ∧
  (∀ (s : State) q p, s.pending q.id p.index 6 = some (q, p) →
    (∀ v, State.copyBytes (s.queueCtx q) (p.dw 24) (p.dw 8) (p.dw 16) s = (v, false) →
      exec (.dcopyPacketComplete q.id p.index) s = .next (v.failPacket q.id p.index 4)) ∧
    ∀ v, State.copyBytes (s.queueCtx q) (p.dw 24) (p.dw 8) (p.dw 16) s = (v, true) →
      (p.dw 32 = 0 → exec (.dcopyPacketComplete q.id p.index) s = .next (v.packetDone q.id p.index)) ∧
      (p.dw 32 ≠ 0 → ∀ w g, v.translate (s.queueCtx q) .store (p.dw 32) = (w, g) → match g with
        | .found h _ _ =>
          if w.poisoned h 8 = true then exec (.dcopyPacketComplete q.id p.index) s = .next (w.failPacket q.id p.index 4)
          else isHost h = false → w.memOk → ∃ y : State,
            exec (.dcopyPacketComplete q.id p.index) s = .next (y.packetDone q.id p.index) ∧
            y.rdNat h 8 = (w.rdNat h 8 + (2 ^ 64 - 1)) % 2 ^ 64 ∧
            ∀ a, a < h ∨ h + 8 ≤ a → Memory.get y.mem a = Memory.get w.mem a
        | _ => exec (.dcopyPacketComplete q.id p.index) s = .next (w.failPacket q.id p.index 4))) ∧
  ∀ (s v : State) x a b h l n, b ≠ [] → (a + b.length - 1) / 64 = a / 64 → s.translate x .store a = (v, .found h l n) →
    isHost h = false → s.writeVa x a b = (v.wr h b, .ok []))

/-- R47 to R49: the mailbox. A doorbell is held while the mailbox does not serve; above 24 it is only counted; a POSTED slot
becomes TAKEN, its command due, or refused at once: BADOP before DENIED before BADARG (the order: log 76); another slot stays. A
command that is due starts once those its block took before it have started, and until then its step changes nothing. A completion
writes STATUS, VALUE and DONE and counts in DONECNT.

R47, R66, R89, R219, R234, R354, R355, R383: the commands that end at once, each of them started. STUBRET ends forwarding;
PSTABLE names the table; PSREG registers a set with CUR, PINNED and GEN zero, or removes one; PRRING names an address space's
rings; ERRCNT and COMPAT return the counts and the key; ABORT ends the haul it names, the first of several (log 76), with
status 5; DESTROYQ destroys an idle queue, answers BUSY for another, NOTFOUND where the walk finds none or an entry that is
not present (log 76), and with FORCE lets it drain. That a haul that is ending counts as not there is log 45, that a second
registration is REFUSED log 51, and that a set without bytes is refused log 52: the model's readings.

R39, R309, R350, R352, R354, R355: the commands that save and move. SAVE and MIGOUT first ask every coach of their hauls
to save; once all rakes are saved, SAVE writes the haul's image and the haul ends with status 8, MIGOUT writes the VF's image
and the VF leaves, its accesses forwarded; an image that does not fit is NOSPACE, and so is, by the model's choice, one with frames that the leader's port does not reach
(log 79). A haul that has ended meanwhile is not delivered, and one with a saved rake or tile in error ends with HWERR (R381). A haul that another command is saving is
NOTFOUND to SAVE (log 76). MIGIN compares the key first, then gives the VF what the image holds, a poisoned granule of a frame as a poisoned one (R381; its layout is the model's
own: log 35). The order of an image's parts is the model's too (log 44). -/
def Obligations.CommandResults : Prop :=
  (
  (∀ b x (s : State), b < 32 → s.memOk →
    (s.mbReady = false → ∃ t : State, exec (.mailboxDoorbell b x) s = .next t ∧
      t = { s with dev := { s.dev with doorbells := s.dev.doorbells ++ [(b, x)] } }) ∧
    (s.mbReady = true → 24 < x.toNat → ∃ t : State, exec (.mailboxDoorbell b x) s = .next t ∧ t.commands = s.commands ∧
      t.rdNat (homeWin (0x1000 + 64 * b + 0x10)) 8 = (s.rdNat (homeWin (0x1000 + 64 * b + 0x10)) 8 + 1) % 2 ^ 64) ∧
    (s.mbReady = true → x.toNat ≤ 24 → let a := mbSlot b x.toNat
      (s.rdNat (a + 2) 1 ≠ 1 → exec (.mailboxDoorbell b x) s = .next s) ∧
      (s.rdNat (a + 2) 1 = 1 → ∃ (t : State) (c : Command), exec (.mailboxDoorbell b x) s = .next t ∧ t.rdNat (a + 2) 1 = 2 ∧
        (∀ y, y ≠ a + 2 → Memory.get t.mem y = Memory.get s.mem y) ∧ t.commands = s.commands ++ [c] ∧ c.block = b ∧
        c.slot = x.toNat ∧ c.op = s.rdNat a 2 ∧
        (∀ i, i < 5 → c.arg i = s.rdNat (a + 8 + 8 * i) 8) ∧
        (c.op = 0 ∨ 12 < c.op → c.result = some (2, 0)) ∧
        (4 ≤ c.op → c.op ≤ 6 → b ≠ 0 → c.result = some (4, 0)) ∧
        (0 < c.op → c.op ≤ 12 → ¬ (4 ≤ c.op ∧ c.op ≤ 6 ∧ b ≠ 0) →
          c.result = if argsOk c.op b c.args then none else some (3, 0))))) ∧
  (∀ b i op (s : State), let mine (c : Command) : Prop := c.block = b ∧ c.slot = i ∧ c.op = op ∧ c.result = none
    (s.leads = false ∨ (∀ c ∈ s.commands, ¬ mine c) ∨ (∃ l c r, s.commands = l ++ c :: r ∧ (∀ k ∈ l, ¬ mine k) ∧ mine c ∧
      ∃ k ∈ l, k.block = b ∧ k.started = false ∧ k.result = none) → s.command? b i op = none) ∧
    (∀ l c r, s.leads = true → s.commands = l ++ c :: r → (∀ k ∈ l, ¬ mine k) → mine c →
      (∀ k ∈ l, k.block = b → k.started = true ∨ k.result ≠ none) → s.command? b i op = some c) ∧
    (s.command? b i op = none →
      (op = 1 → exec (.destroyq b i) s = .next s) ∧ (op = 2 → exec (.abort b i) s = .next s) ∧
      (op = 3 → exec (.save b i) s = .next s) ∧ (op = 4 → exec (.migout b i) s = .next s) ∧
      (op = 5 → exec (.migin b i) s = .next s) ∧ (op = 6 → exec (.stubret b i) s = .next s) ∧
      (op = 7 → exec (.pgmig b i) s = .next s) ∧ (op = 8 → exec (.pstable b i) s = .next s) ∧
      (op = 9 → exec (.psreg b i) s = .next s) ∧ (op = 10 → exec (.prring b i) s = .next s) ∧
      (op = 11 → exec (.errcnt b i) s = .next s) ∧ (op = 12 → exec (.compat b i) s = .next s))) ∧
  ∀ (s : State) c st v, s.leads = true → s.memOk → c.result = some (st, v) →
    s.commands.find? (fun k => k.block == c.block && k.slot == c.slot && k.result.isSome) = some c →
    s.rdNat (mbBlock c.block + 8) 8 = 0 → let a := mbSlot c.block c.slot
    ∃ t : State, exec (.mailboxCompletion c.block c.slot) s = .next t ∧ t.commands = s.commands.erase c ∧
      t.rdNat (a + 4) 4 = st % 2 ^ 32 ∧ t.rdNat (a + 0x30) 8 = v.toNat ∧ t.rdNat (a + 2) 1 = 3 ∧
      t.rdNat (mbBlock c.block + 4) 4 = (s.rdNat (mbBlock c.block + 4) 4 + 1) % 2 ^ 32 ∧
      ∀ y, y ≠ a + 2 → (y < a + 4 ∨ a + 8 ≤ y) → (y < a + 0x30 ∨ a + 0x38 ≤ y) →
        (y < mbBlock c.block + 4 ∨ mbBlock c.block + 8 ≤ y) → Memory.get t.mem y = Memory.get s.mem y) ∧
  (
  ∀ b i (z : State) c op, z.command? b i op = some c → let s := z.startCommand c
    let done (u t : State) (st : Nat) (v : Dword) := EndsCommand u t b i st v
    let vf := s.vf c.vf
    (op = 6 → ∃ u t : State, exec (.stubret b i) z = .next t ∧ SetsVf s u c.vf { vf with forwarding := false, frameMap := [], stub := [] } ∧
      done u t 0 0) ∧
    (op = 8 → ∃ u t : State, exec (.pstable b i) z = .next t ∧ SetsVf s u c.vf { vf with pstable := (c.arg 0, c.arg 1) } ∧
      done u t 0 0) ∧
    (op = 9 → ∃ t : State, exec (.psreg b i) z = .next t ∧ let id := c.arg 0
      if vf.pstable.2 ≤ id then done s t 5 0
      else if c.arg 1 ≠ 1 then (s.pset? c.vf id = none → done s t 5 0) ∧ ((s.pset? c.vf id).isSome = true →
        ∃ u, SetsVf s u c.vf { vf with psets := vf.psets.filter fun p => p.id != id } ∧ done u t 0 0)
      else ((s.pset? c.vf id).isSome = true → done s t 11 0) ∧
        (s.pset? c.vf id = none → ∀ u h, s.gpaHome c.vf (vf.pstable.1 + 64 * id) true = (u, some h) → s.memOk →
          if psetBad (u.rd h 64) then done u t 11 0
          else ∃ p w, done w t 0 0 ∧ t.pset? c.vf id = some p ∧ p.entry = h ∧ p.cur = 0 ∧ p.pinned = 0 ∧ p.gen = 0 ∧
            p.base = u.rdNat h 8 ∧ p.length = u.rdNat (h + 8) 8 ∧ p.nslot = u.rdNat (h + 0x11) 1 ∧ p.refused.toNat = u.rdNat (h + 0x14) 4 ∧
            t.rdNat (h + 0x12) 2 = 0 ∧ t.rdNat (h + 0x18) 8 = 0 ∧
            ∀ x, x < h + 0x12 ∨ h + 0x20 ≤ x → Memory.get t.mem x = Memory.get u.mem x)) ∧
    (op = 10 → ∃ t : State, exec (.prring b i) z = .next t ∧ let asid := BitVec.ofNat 16 (c.arg 0)
      if vf.rings.any fun r => r.asid == asid then done s t 11 0
      else ∃ u, SetsVf s u c.vf { vf with rings := vf.rings ++ [{
          asid := asid, req := c.arg 1, comp := c.arg 2, logReq := c.arg 3 % 32, logComp := c.arg 3 / 256 % 32 }] } ∧
        done u t 0 0) ∧
    (op = 11 → ∃ t : State, exec (.errcnt b i) z = .next t ∧ let e := s.errorsOf (c.arg 0) (c.arg 1) (c.arg 2)
      if unitOk (c.arg 0) (c.arg 1) (c.arg 2) then done s t 0
        (BitVec.ofNat 64 (e.1 % 2 ^ 31 + (if e.2.2 then 2 ^ 31 else 0) + e.2.1 % 2 ^ 32 * 2 ^ 32))
      else done s t 5 0) ∧
    (op = 12 → ∃ t : State, exec (.compat b i) z = .next t ∧ done s t 0 s.key) ∧
    (op = 2 → ∃ t : State, exec (.abort b i) z = .next t ∧ (s.namedHaul c = none → done s t 5 0) ∧
      ∀ h, s.namedHaul c = some h → ∃ u, done u t 0 0 ∧ t.mem = s.mem ∧ (∃ k ∈ t.hauls, k.id = h.id ∧ k.ended = some (5, 0, 0)) ∧
        ∀ k ∈ t.allCoaches, k.ident.haul = h.id → k.issue.phase = .halted) ∧
    (op = 1 → ∃ t : State, exec (.destroyq b i) z = .next t ∧
      (∀ u, s.walkQueue c.vf (c.arg 0) (c.arg 1) = (u, .drop) → done u t 5 0) ∧
      (∀ u e, s.walkQueue c.vf (c.arg 0) (c.arg 1) = (u, .hold e) → done u t 5 0) ∧
      ∀ u a x q, s.walkQueue c.vf (c.arg 0) (c.arg 1) = (u, .found a x) → s.memOk →
        u.queues.find? (fun k => k.vf == c.vf && k.qcb == x) = some q → (b, i) ∉ q.force →
        (c.arg 2 = 0 → u.busyQueue q = true → done u t 1 0) ∧
        (c.arg 2 = 0 → u.busyQueue q = false → t.queues = u.queues.filter (fun k => k.id != q.id) ∧
          (t.rdNat x 1).testBit 0 = false ∧ (∀ y, y ≠ x → Memory.get t.mem y = Memory.get u.mem y) ∧
          ∀ k ∈ t.commands, k.block = b → k.slot = i → k.result ≠ none) ∧
        (c.arg 2 ≠ 0 → (∃ p ∈ q.packets, p.done = false) → (vf.deferred = []) → (∀ k ∈ u.queues, k.id = q.id → k = q) →
          t.queue? q.id = some { q with force := q.force ++ [(b, i)] } ∧ t.commands = s.commands ∧
          (u.qcb q 1 1 ≠ 3 → t.qcb q 1 1 = 2)))) ∧
  (
  ∀ b i (z : State) c op, z.command? b i op = some c → let s := z.startCommand c
    (op = 3 → (∀ h ∈ s.hauls, h.saving ≠ some (b, i)) →
      (s.namedHaul c = none → ∃ t : State, exec (.save b i) z = .next t ∧ EndsCommand s t b i 5 0) ∧
      (∀ h, s.namedHaul c = some h → h.saving.isSome = true → ∃ t : State, exec (.save b i) z = .next t ∧ EndsCommand s t b i 5 0) ∧
      ∀ h, s.namedHaul c = some h → h.saving = none → (∃ r ∈ s.rakes, r.haul = h.id) →
        ∃ t : State, exec (.save b i) z = .next t ∧ t.mem = s.mem ∧ t.commands = s.commands ∧
          (∀ k ∈ t.hauls, k.id = h.id → k.saving = some (b, i)) ∧
          ∀ r ∈ s.rakes, r.haul = h.id → ∀ k ∈ t.allCoaches, k.of r.haul r.rake = true → k.preempt.pending = true) ∧
    (op = 3 → ∀ h u p, s.hauls.find? (fun h => h.saving == some (b, i)) = some h →
      let k := s.writeSaved h
      (h.ended.isSome = true → exec (.save b i) z = .next s) ∧
      (h.ended = none → k.allSaved h = true → k.keptError h = true → ∃ t : State, exec (.save b i) z = .next t ∧
        ∃ g ∈ t.hauls, g.id = h.id ∧ g.ended = some (9, 8, 0)) ∧
      (h.ended = none → k.allSaved h = true → k.keptError h = false → k.savedImage h (c.arg 2) = (u, p) →
      ∃ t : State, exec (.save b i) z = .next t ∧
        (c.arg 3 < p.2 - c.arg 2 → ∃ w, EndsCommand w t b i 6 0 ∧ ∀ k ∈ t.hauls, k.id = h.id → k.saving = none) ∧
        (p.2 - c.arg 2 ≤ c.arg 3 → ∀ v, State.writePieces (k.haulCtx h) p.1 u = (v, true) →
          ∃ w, EndsCommand w t b i 0 (BitVec.ofNat 64 (p.2 - c.arg 2)) ∧ t.mem = v.mem ∧
            ∃ k ∈ t.hauls, k.id = h.id ∧ k.ended = some (8, 0, 0) ∧ k.saving = none))) ∧
    (op = 4 → (s.vf c.vf).blackout ≠ some (b, i) → s.mayDepart c.vf = true → (∃ h r, s.haul? h.id = some h ∧ h.vf = c.vf ∧
        h.retired = false ∧ h.ended = none ∧ r ∈ s.rakes ∧ r.haul = h.id) →
      ∃ t : State, exec (.migout b i) z = .next t ∧ t.mem = s.mem ∧ (t.vf c.vf).blackout = some (b, i) ∧ t.commands = s.commands ∧
        (∀ k ∈ t.hauls, k.vf = c.vf → k.retired = false → k.ended = none → k.saving = some (b, i)) ∧
        ∀ r ∈ s.rakes, s.rakeOf c.vf r = true → ∀ k ∈ t.allCoaches, k.of r.haul r.rake = true → k.preempt.pending = true) ∧
    (op = 4 → (s.vf c.vf).blackout = some (b, i) → let k := s.writeMine c.vf
      k.vfSaved c.vf = true → (∀ h ∈ k.hauls, h.vf = c.vf → h.retired = false → h.ended = none → k.keptError h = false) →
      let x := k.vfImage c.vf
      (k.hiddenFrames c.vf = [] → x.length ≤ c.arg 2 → ∀ u, State.writeGpa (spans (c.arg 1) x.length) x k = (u, true) →
        ∃ w t : State, exec (.migout b i) z = .next t ∧ EndsCommand w t b i 0 (BitVec.ofNat 64 x.length) ∧
          (∀ h ∈ t.hauls, h.vf ≠ c.vf) ∧ (∀ q ∈ t.queues, q.vf ≠ c.vf) ∧ (t.vf c.vf).forwarding = true ∧
          (t.vf c.vf).blackout = none ∧ (t.vf c.vf).psets = [] ∧ (t.vf c.vf).rings = []) ∧
      (k.hiddenFrames c.vf ≠ [] ∨ c.arg 2 < x.length → ∃ t : State, exec (.migout b i) z = .next t ∧ (t.vf c.vf).blackout = none ∧
        ∀ k ∈ t.commands, k.block = b → k.slot = i → k.result ≠ none)) ∧
    (op = 5 → ∀ u l, State.readGpas (spans (c.arg 1) (c.arg 2)) s = (u, some l) →
      ∃ t : State, exec (.migin b i) z = .next t ∧
        let key := getNat ((l.take 8).map (·.1))
        ((∃ p ∈ l.take 8, p.2 = true) ∨ key = none → EndsCommand u t b i 3 0) ∧
        ∀ k rest, (∀ p ∈ l.take 8, p.2 = false) → key = some (k, rest) → (k ≠ u.key.toNat → EndsCommand u t b i 7 0) ∧
          (k = u.key.toNat → match readVf (l.drop 8) with
            | none => EndsCommand u t b i 3 0
            | some (g, _) => if ∃ f ∈ g.frames, 26 < nth f.1 2 then EndsCommand u t b i 3 0
              else (∃ w, EndsCommand w t b i 0 0) ∧ (t.vf c.vf).launches = BitVec.ofNat 32 (nth g.nums 0) ∧
                (t.vf c.vf).pstable = (nth g.nums 1, nth g.nums 2) ∧ (t.vf c.vf).rings = (u.vf c.vf).rings ++ g.rings.map fun l =>
                  { asid := BitVec.ofNat 16 (nth l 0), req := nth l 1, comp := nth l 2, logReq := nth l 3, logComp := nth l 4 })) ∧
    (∀ l : List Byte, readVf (l.map fun x => (x, false)) = (getVf l).map fun r => (r.1, r.1.hauls.map fun _ => false)) ∧
    ∀ vf (u v : State) f h, u.gpaHome vf (nth f.1 0) true = (v, some h) → nth f.1 2 = 15 →
      ∀ g ∈ f.2.1, g < 32768 → h + g ∈ (State.frameIn vf u f).dev.poison)

/-- R61 to R65, R361, R363: the lease and the firmware. The CAS of a controller that has been superseded fails, and it stops;
the leader's renewal stamps TIME into an unchanged LEASE, and a LEASE of another epoch or holder ends its service, as does the
end of its controller: a packet read and not journalled is then as if never read. A follower with firmware takes a lease that
has lapsed for 3 ms with the next epoch and replays the journal of the epoch before (queues, commands and held completions are
what its entries have; log 69), or the first one 3 ms after its start (the load: log 23). A verified firmware ends the hauls
that ran, fails the TAKEN commands, and serves from die 0 or leaves the first lease to the followers (which is free: log 23);
one that is not verified runs nothing, and locked interfaces move to ERROR. What a new leader keeps and scans again is log 50,
and that an event which cannot happen changes nothing log 25: the model's readings. -/
def Obligations.LeaseSteps : Prop :=  (∀ (s t : State) rest, s.schedule = .stop :: rest → step s = .next t →
    t.dev.leader = none ∧ (∀ q ∈ t.queues, q.reading = none) ∧ t.mem = s.mem ∧ t.hauls = s.hauls) ∧
  (∀ (s : State) e, let l := ((s.replayable e).filter (·.2)).map (·.1)
    let t := s.replayJournal e
    let seen : Prop := ∀ q ∈ s.queues, s.qcbSeen q = true
    (∀ x ∈ s.replayable e, ∃ j ∈ s.dev.journal, j.epoch = e ∧ x.1 = j.item) ∧
    (∀ q ∈ t.queues, ∃ p ∈ s.queues, q.id = p.id ∧ q.reading = none ∧ match queueIn? l p.id with
      | some j => q.rdidx = j.rdidx ∧ q.packets = j.packets ∧ q.force = j.force ∧ q.stopped = j.stopped
      | none => (if s.qcbSeen p = true then seen → q.rdidx = s.qcb p 0x14 4 else q.rdidx = p.rdidx) ∧ q.packets = [] ∧ q.force = []) ∧
    (∀ c ∈ t.commands, ∃ p ∈ s.commands, ∃ j, commandIn? l p.block p.slot = some j ∧ c = { p with started := j.started }) ∧
    (∀ h, JItem.held h ∈ l → h ∈ t.dev.heldCompletions) ∧ (∀ h ∈ s.dev.heldCompletions, h ∈ t.dev.heldCompletions) ∧
    (seen → t.mem = s.mem) ∧ t.dev.leader = s.dev.leader) ∧
  ∀ s : State, s.memOk →
    let x := s.rdNat (homeWin 0) 8
    let now := s.dev.time.toNat % 2 ^ 38
    let calm := s.dev.heldCompletions = [] ∧ s.dev.journal = [] ∧ s.queues = [] ∧ s.dev.doorbells = [] ∧
      ∀ v, v < 32 → (s.vf v).en = false ∧ (s.vf v).blackout = none
    (∀ p rest, s.dev.superseded = p :: rest → ∃ t : State, exec .leaseRenew s = .next t ∧
      t = { s with dev := { s.dev with superseded := rest } }) ∧
    (s.dev.superseded = [] → s.dev.leader = none → exec .leaseRenew s = .next s) ∧
    (∀ e d, s.dev.superseded = [] → s.dev.leader = some (e, d) → ∃ t : State, exec .leaseRenew s = .next t ∧
      if x / 2 ^ 40 % 2 ^ 24 = e ∧ x / 2 ^ 38 % 4 = d then t.dev = { s.dev with poison := t.dev.poison } ∧
        t.rdNat (homeWin 0) 8 = e * 2 ^ 40 + d * 2 ^ 38 + now ∧
        ∀ y, y < homeWin 0 ∨ homeWin 8 ≤ y → Memory.get t.mem y = Memory.get s.mem y
      else t = { s with dev := { s.dev with leader := none }, queues := s.queues.map fun q => { q with reading := none } }) ∧
    (∀ d, d < 4 → let e := x / 2 ^ 40 % 2 ^ 24
      s.dev.fwLoaded = true → e ≠ 0 → x / 2 ^ 38 % 4 ≠ d → (∀ p ∈ s.dev.superseded, p.2 ≠ d) →
      300000 < (now + 2 ^ 38 - x % 2 ^ 38) % 2 ^ 38 →
      ∃ t : State, exec (.leaseTakeover d) s = .next t ∧ t.dev.leader = some ((e + 1) % 2 ^ 24, d) ∧
        t.dev.superseded = s.dev.superseded ++ s.dev.leader.toList ∧
        (calm → t.rdNat (homeWin 0) 8 = (e + 1) % 2 ^ 24 * 2 ^ 40 + d * 2 ^ 38 + now ∧ t.co = s.co)) ∧
    (∀ d, d < 4 → s.dev.fwLoaded = true → x = 0 → 300000 ≤ (s.dev.time - s.dev.fwStart).toNat →
      ∃ t : State, exec (.leaseFallback d) s = .next t ∧ t.dev.leader = some (1, d) ∧
        (calm → t.rdNat (homeWin 0) 8 = 2 ^ 40 + d * 2 ^ 38 + now ∧ t.rdNat mbHeader 4 = 1 ∧ t.co = s.co)) ∧
    (∀ n, ∃ t : State, exec (.firmwareLoad n true) s = .next t ∧ t.dev.fwLevel = n ∧ t.dev.fwLoaded = true ∧
      t.dev.fwStart = s.dev.time ∧ t.dev.superseded = [] ∧ (t.dev.leader = some (1, 0) ∨ t.dev.leader = none) ∧
      (∀ h ∈ t.hauls, h.retired = false → h.ended.isSome = true) ∧ t.migrations = [] ∧
      (t.dev.leader = none → t.queues = [] ∧ ∀ c ∈ t.commands, c.result = some (9, 0)) ∧
      (calm → t.rdNat (mbHeader + 4) 4 = n.toNat ∧
        if t.dev.leader = none then t.rdNat (homeWin 0) 8 = 0 ∧ t.rdNat mbHeader 4 = 2
        else t.rdNat (homeWin 0) 8 = 2 ^ 40 + now ∧ t.rdNat mbHeader 4 = 1)) ∧
    ∀ n, ∃ t : State, exec (.firmwareLoad n false) s = .next t ∧ t.dev.leader = none ∧ t.dev.fwLoaded = false ∧
      t.rdNat mbHeader 4 = 0 ∧ t.rdNat (homeWin 0) 8 = 0 ∧
      ∀ v, v < 32 → (s.vf v).lock = true → (t.vf v).error = true ∧
        ((∀ h ∈ s.hauls, h.vf = v → h.retired = true) → (t.vf v).lock = false)

end
end

