-- ==== Sys2Proof/Laws/Registers.lean ====
section
/-! SUPPORT. Reading after writing: vectors of fixed length, tables keyed by number, lane masks, and the registers of a
coach. -/

namespace Sys2Proof.Machine

/-! ### Vectors and tables -/

theorem vget_eq {α : Type} {n : Nat} [NeZero n] (v : Vector α n) (i : Nat) :
    vget v i = v[i % n]'(Nat.mod_lt _ (Nat.pos_of_neZero n)) := rfl

theorem vget_vset {α : Type} {n : Nat} [NeZero n] (v : Vector α n) (i j : Nat) (x : α) :
    vget (vset v i x) j = if j % n = i % n then x else vget v j := by
  simp only [vget_eq, vset, Vector.getElem_set, Fin.ofNat]
  by_cases h : i % n = j % n
  · simp [h]
  · simp [h, Ne.symm h]

theorem vget_ofFn {α : Type} {n : Nat} [NeZero n] (f : Fin n → α) (i : Nat) : vget (Vector.ofFn f) i = f (Fin.ofNat n i) := by
  simp [vget_eq, Fin.ofNat]

theorem vget_laneVec (f : Nat → Word) (l : Nat) (h : l < 32) : vget (laneVec f) l = f l := by
  simp [laneVec, vget_ofFn, Fin.ofNat, Nat.mod_eq_of_lt h]

theorem vget_laneMerge (m : LaneMask) (x y : LaneVec) (l : Nat) (h : l < 32) :
    vget (laneMerge m x y) l = if m.getLsbD l then vget x l else vget y l := by
  simp [laneMerge, vget_laneVec _ _ h]

theorem getLsbD_laneMask (f : Nat → Bool) (l : Nat) : (laneMask f).getLsbD l = (decide (l < 32) && f l) := by
  by_cases h : l < 32
  · simp [laneMask, h]
  · rw [BitVec.getLsbD_of_ge _ _ (by omega)]; simp [h]

theorem tget_tset {α : Type} (d x : α) (t : List (Nat × α)) (n k : Nat) :
    tget d (tset t n x) k = if k = n then x else tget d t k := by
  induction t with
  | nil => simp [tset, tget, eq_comm]
  | cons c t ih =>
    obtain ⟨j, y⟩ := c
    simp only [tset]
    by_cases h : k = n
    · subst h
      split
      · simp [tget]
      · rename_i hj
        split
        · simp [tget]
        · simp [tget, Ne.symm hj, ih]
    · split
      · rename_i hj
        subst hj
        simp [tget, Ne.symm h]
      · split
        · simp [tget, Ne.symm h]
        · simp only [tget, ih, h, if_false]

theorem mem_lanesOf (m : LaneMask) (l : Nat) : l ∈ lanesOf m ↔ m.getLsbD l = true := by
  simp only [lanesOf, List.mem_filter, List.mem_range]
  constructor
  · exact fun h => h.2
  · intro h; exact ⟨BitVec.lt_of_getLsbD h, h⟩

/-! ### Registers of a coach -/

theorem Coach.setPhys_reg (c : Coach) (p : Nat) (m : LaneMask) (x : LaneVec) (q l : Nat) (hl : l < 32) :
    vget (vget (c.setPhys p m x).regs.v q) l =
      if q % 256 = p % 256 ∧ m.getLsbD l = true then vget x l else vget (vget c.regs.v q) l := by
  simp only [Coach.setPhys, vget_vset]
  by_cases h : q % 256 = p % 256
  · have hq : vget c.regs.v p = vget c.regs.v q := by simp only [vget_eq, h]
    simp only [h, if_true, true_and, vget_laneMerge _ _ _ _ hl, hq]
  · simp [h]

theorem Coach.greg_setG (c : Coach) (d j : BitVec 6) (x : Dword) :
    (c.setG d x).greg j = if j = d ∧ d ≠ 0 then x else c.greg j := by
  unfold Coach.setG Coach.greg
  by_cases hd : d = 0
  · simp [hd]
  · by_cases hj : j = 0
    · subst hj; simp; exact fun h h' => absurd h.symm h'
    · simp only [hd, hj, if_false, vget_vset]
      have : j.toNat % 64 = d.toNat % 64 ↔ j = d := by
        rw [Nat.mod_eq_of_lt (by omega), Nat.mod_eq_of_lt (by omega)]; exact BitVec.toNat_inj
      simp only [this, ne_eq, hd, not_false_eq_true, and_true]

theorem Coach.kreg_setK (c : Coach) (d j : BitVec 5) (m x : LaneMask) :
    (c.setK d m x).kreg j = if j = d ∧ d ≠ 0 then (x &&& m) ||| (c.kreg d &&& ~~~m) else c.kreg j := by
  unfold Coach.setK Coach.kreg
  by_cases hd : d = 0
  · simp [hd]
  · by_cases hj : j = 0
    · subst hj; simp; exact fun h h' => absurd h.symm h'
    · simp only [hd, hj, if_false, vget_vset]
      have : j.toNat % 32 = d.toNat % 32 ↔ j = d := by
        rw [Nat.mod_eq_of_lt (by omega), Nat.mod_eq_of_lt (by omega)]; exact BitVec.toNat_inj
      simp only [this, ne_eq, hd, not_false_eq_true, and_true]

theorem Coach.gkreg_setGk (c : Coach) (d j : BitVec 4) (x : Bool) :
    (c.setGk d x).gkreg j = if j = d ∧ d ≠ 0 then x else c.gkreg j := by
  unfold Coach.setGk Coach.gkreg
  by_cases hd : d = 0
  · simp [hd]
  · have hb : ∀ k : BitVec 4, (1#16 <<< d.toNat).getLsbD k.toNat = decide (k = d) := by
      intro k
      have hk := k.isLt
      have hdl := d.isLt
      simp only [BitVec.getLsbD_shiftLeft, BitVec.getLsbD_one]
      by_cases h : k = d
      · subst h; simp; omega
      · have : k.toNat ≠ d.toNat := fun e => h (BitVec.toNat_inj.mp e)
        simp [h]; omega
    have h16 : ∀ k : BitVec 4, decide (k.toNat < 16) = true := fun k => decide_eq_true k.isLt
    simp only [hd, if_false, ne_eq, not_false_eq_true, and_true]
    by_cases hj : j = d
    · subst hj
      have h0 : (j == 0#4) = false := beq_eq_false_iff_ne.mpr hd
      cases x <;> simp [h0, hb]
    · cases x
      · have := h16 j
        simp_all
      · simp [hb, hj]

end Sys2Proof.Machine
end

