-- ==== Sys2Proof/Laws/State.lean ====
section
/-! SUPPORT. One lemma per field per update of the state and of a coach, so that no proof unfolds a record update. -/

namespace Sys2Proof.Machine

/-! ### modCo -/

@[simp] theorem State.modCo_co (s : State) (f : Coach → Coach) : (s.modCo f).co = f s.co := rfl
@[simp] theorem State.modCo_coaches (s : State) (f : Coach → Coach) : (s.modCo f).coaches = s.coaches := rfl
@[simp] theorem State.modCo_cores (s : State) (f : Coach → Coach) : (s.modCo f).cores = s.cores := rfl
@[simp] theorem State.modCo_quads (s : State) (f : Coach → Coach) : (s.modCo f).quads = s.quads := rfl
@[simp] theorem State.modCo_vfs (s : State) (f : Coach → Coach) : (s.modCo f).vfs = s.vfs := rfl
@[simp] theorem State.modCo_hauls (s : State) (f : Coach → Coach) : (s.modCo f).hauls = s.hauls := rfl
@[simp] theorem State.modCo_rakes (s : State) (f : Coach → Coach) : (s.modCo f).rakes = s.rakes := rfl
@[simp] theorem State.modCo_views (s : State) (f : Coach → Coach) : (s.modCo f).views = s.views := rfl
@[simp] theorem State.modCo_queues (s : State) (f : Coach → Coach) : (s.modCo f).queues = s.queues := rfl
@[simp] theorem State.modCo_commands (s : State) (f : Coach → Coach) : (s.modCo f).commands = s.commands := rfl
@[simp] theorem State.modCo_migrations (s : State) (f : Coach → Coach) : (s.modCo f).migrations = s.migrations := rfl
@[simp] theorem State.modCo_mem (s : State) (f : Coach → Coach) : (s.modCo f).mem = s.mem := rfl
@[simp] theorem State.modCo_corePts (s : State) (f : Coach → Coach) : (s.modCo f).corePts = s.corePts := rfl
@[simp] theorem State.modCo_hostCopies (s : State) (f : Coach → Coach) : (s.modCo f).hostCopies = s.hostCopies := rfl
@[simp] theorem State.modCo_tlb (s : State) (f : Coach → Coach) : (s.modCo f).tlb = s.tlb := rfl
@[simp] theorem State.modCo_dev (s : State) (f : Coach → Coach) : (s.modCo f).dev = s.dev := rfl
@[simp] theorem State.modCo_schedule (s : State) (f : Coach → Coach) : (s.modCo f).schedule = s.schedule := rfl
@[simp] theorem State.modCo_fresh (s : State) (f : Coach → Coach) : (s.modCo f).fresh = s.fresh := rfl
@[simp] theorem State.modCo_nextId (s : State) (f : Coach → Coach) : (s.modCo f).nextId = s.nextId := rfl

/-! ### modCore -/

@[simp] theorem State.modCore_co (s : State) (n : Nat) (f : Core → Core) : (s.modCore n f).co = s.co := rfl
@[simp] theorem State.modCore_coaches (s : State) (n : Nat) (f : Core → Core) : (s.modCore n f).coaches = s.coaches :=
  rfl
@[simp] theorem State.modCore_cores (s : State) (n : Nat) (f : Core → Core) : (s.modCore n f).cores = tset s.cores n (f (s.core n)) :=
  rfl
@[simp] theorem State.modCore_quads (s : State) (n : Nat) (f : Core → Core) : (s.modCore n f).quads = s.quads := rfl
@[simp] theorem State.modCore_vfs (s : State) (n : Nat) (f : Core → Core) : (s.modCore n f).vfs = s.vfs := rfl
@[simp] theorem State.modCore_hauls (s : State) (n : Nat) (f : Core → Core) : (s.modCore n f).hauls = s.hauls := rfl
@[simp] theorem State.modCore_rakes (s : State) (n : Nat) (f : Core → Core) : (s.modCore n f).rakes = s.rakes := rfl
@[simp] theorem State.modCore_views (s : State) (n : Nat) (f : Core → Core) : (s.modCore n f).views = s.views := rfl
@[simp] theorem State.modCore_queues (s : State) (n : Nat) (f : Core → Core) : (s.modCore n f).queues = s.queues := rfl
@[simp] theorem State.modCore_commands (s : State) (n : Nat) (f : Core → Core) : (s.modCore n f).commands = s.commands :=
  rfl
@[simp] theorem State.modCore_migrations (s : State) (n : Nat) (f : Core → Core) : (s.modCore n f).migrations = s.migrations :=
  rfl
@[simp] theorem State.modCore_mem (s : State) (n : Nat) (f : Core → Core) : (s.modCore n f).mem = s.mem := rfl
@[simp] theorem State.modCore_corePts (s : State) (n : Nat) (f : Core → Core) : (s.modCore n f).corePts = s.corePts :=
  rfl
@[simp] theorem State.modCore_hostCopies (s : State) (n : Nat) (f : Core → Core) : (s.modCore n f).hostCopies = s.hostCopies :=
  rfl
@[simp] theorem State.modCore_tlb (s : State) (n : Nat) (f : Core → Core) : (s.modCore n f).tlb = s.tlb := rfl
@[simp] theorem State.modCore_dev (s : State) (n : Nat) (f : Core → Core) : (s.modCore n f).dev = s.dev := rfl
@[simp] theorem State.modCore_schedule (s : State) (n : Nat) (f : Core → Core) : (s.modCore n f).schedule = s.schedule :=
  rfl
@[simp] theorem State.modCore_fresh (s : State) (n : Nat) (f : Core → Core) : (s.modCore n f).fresh = s.fresh := rfl
@[simp] theorem State.modCore_nextId (s : State) (n : Nat) (f : Core → Core) : (s.modCore n f).nextId = s.nextId := rfl

/-! ### modQuad -/

@[simp] theorem State.modQuad_co (s : State) (n : Nat) (f : Quad → Quad) : (s.modQuad n f).co = s.co := rfl
@[simp] theorem State.modQuad_coaches (s : State) (n : Nat) (f : Quad → Quad) : (s.modQuad n f).coaches = s.coaches :=
  rfl
@[simp] theorem State.modQuad_cores (s : State) (n : Nat) (f : Quad → Quad) : (s.modQuad n f).cores = s.cores := rfl
@[simp] theorem State.modQuad_quads (s : State) (n : Nat) (f : Quad → Quad) : (s.modQuad n f).quads = tset s.quads n (f (s.quad n)) :=
  rfl
@[simp] theorem State.modQuad_vfs (s : State) (n : Nat) (f : Quad → Quad) : (s.modQuad n f).vfs = s.vfs := rfl
@[simp] theorem State.modQuad_hauls (s : State) (n : Nat) (f : Quad → Quad) : (s.modQuad n f).hauls = s.hauls := rfl
@[simp] theorem State.modQuad_rakes (s : State) (n : Nat) (f : Quad → Quad) : (s.modQuad n f).rakes = s.rakes := rfl
@[simp] theorem State.modQuad_views (s : State) (n : Nat) (f : Quad → Quad) : (s.modQuad n f).views = s.views := rfl
@[simp] theorem State.modQuad_queues (s : State) (n : Nat) (f : Quad → Quad) : (s.modQuad n f).queues = s.queues := rfl
@[simp] theorem State.modQuad_commands (s : State) (n : Nat) (f : Quad → Quad) : (s.modQuad n f).commands = s.commands :=
  rfl
@[simp] theorem State.modQuad_migrations (s : State) (n : Nat) (f : Quad → Quad) : (s.modQuad n f).migrations = s.migrations :=
  rfl
@[simp] theorem State.modQuad_mem (s : State) (n : Nat) (f : Quad → Quad) : (s.modQuad n f).mem = s.mem := rfl
@[simp] theorem State.modQuad_corePts (s : State) (n : Nat) (f : Quad → Quad) : (s.modQuad n f).corePts = s.corePts :=
  rfl
@[simp] theorem State.modQuad_hostCopies (s : State) (n : Nat) (f : Quad → Quad) : (s.modQuad n f).hostCopies = s.hostCopies :=
  rfl
@[simp] theorem State.modQuad_tlb (s : State) (n : Nat) (f : Quad → Quad) : (s.modQuad n f).tlb = s.tlb := rfl
@[simp] theorem State.modQuad_dev (s : State) (n : Nat) (f : Quad → Quad) : (s.modQuad n f).dev = s.dev := rfl
@[simp] theorem State.modQuad_schedule (s : State) (n : Nat) (f : Quad → Quad) : (s.modQuad n f).schedule = s.schedule :=
  rfl
@[simp] theorem State.modQuad_fresh (s : State) (n : Nat) (f : Quad → Quad) : (s.modQuad n f).fresh = s.fresh := rfl
@[simp] theorem State.modQuad_nextId (s : State) (n : Nat) (f : Quad → Quad) : (s.modQuad n f).nextId = s.nextId := rfl

/-! ### modVf -/

@[simp] theorem State.modVf_co (s : State) (n : Nat) (f : Vf → Vf) : (s.modVf n f).co = s.co := rfl
@[simp] theorem State.modVf_coaches (s : State) (n : Nat) (f : Vf → Vf) : (s.modVf n f).coaches = s.coaches := rfl
@[simp] theorem State.modVf_cores (s : State) (n : Nat) (f : Vf → Vf) : (s.modVf n f).cores = s.cores := rfl
@[simp] theorem State.modVf_quads (s : State) (n : Nat) (f : Vf → Vf) : (s.modVf n f).quads = s.quads := rfl
@[simp] theorem State.modVf_vfs (s : State) (n : Nat) (f : Vf → Vf) : (s.modVf n f).vfs = tset s.vfs n (f (s.vf n)) :=
  rfl
@[simp] theorem State.modVf_hauls (s : State) (n : Nat) (f : Vf → Vf) : (s.modVf n f).hauls = s.hauls := rfl
@[simp] theorem State.modVf_rakes (s : State) (n : Nat) (f : Vf → Vf) : (s.modVf n f).rakes = s.rakes := rfl
@[simp] theorem State.modVf_views (s : State) (n : Nat) (f : Vf → Vf) : (s.modVf n f).views = s.views := rfl
@[simp] theorem State.modVf_queues (s : State) (n : Nat) (f : Vf → Vf) : (s.modVf n f).queues = s.queues := rfl
@[simp] theorem State.modVf_commands (s : State) (n : Nat) (f : Vf → Vf) : (s.modVf n f).commands = s.commands := rfl
@[simp] theorem State.modVf_migrations (s : State) (n : Nat) (f : Vf → Vf) : (s.modVf n f).migrations = s.migrations :=
  rfl
@[simp] theorem State.modVf_mem (s : State) (n : Nat) (f : Vf → Vf) : (s.modVf n f).mem = s.mem := rfl
@[simp] theorem State.modVf_corePts (s : State) (n : Nat) (f : Vf → Vf) : (s.modVf n f).corePts = s.corePts := rfl
@[simp] theorem State.modVf_hostCopies (s : State) (n : Nat) (f : Vf → Vf) : (s.modVf n f).hostCopies = s.hostCopies :=
  rfl
@[simp] theorem State.modVf_tlb (s : State) (n : Nat) (f : Vf → Vf) : (s.modVf n f).tlb = s.tlb := rfl
@[simp] theorem State.modVf_dev (s : State) (n : Nat) (f : Vf → Vf) : (s.modVf n f).dev = s.dev := rfl
@[simp] theorem State.modVf_schedule (s : State) (n : Nat) (f : Vf → Vf) : (s.modVf n f).schedule = s.schedule := rfl
@[simp] theorem State.modVf_fresh (s : State) (n : Nat) (f : Vf → Vf) : (s.modVf n f).fresh = s.fresh := rfl
@[simp] theorem State.modVf_nextId (s : State) (n : Nat) (f : Vf → Vf) : (s.modVf n f).nextId = s.nextId := rfl

/-! ### modHaul -/

@[simp] theorem State.modHaul_co (s : State) (n : Nat) (f : Haul → Haul) : (s.modHaul n f).co = s.co := rfl
@[simp] theorem State.modHaul_coaches (s : State) (n : Nat) (f : Haul → Haul) : (s.modHaul n f).coaches = s.coaches :=
  rfl
@[simp] theorem State.modHaul_cores (s : State) (n : Nat) (f : Haul → Haul) : (s.modHaul n f).cores = s.cores := rfl
@[simp] theorem State.modHaul_quads (s : State) (n : Nat) (f : Haul → Haul) : (s.modHaul n f).quads = s.quads := rfl
@[simp] theorem State.modHaul_vfs (s : State) (n : Nat) (f : Haul → Haul) : (s.modHaul n f).vfs = s.vfs := rfl
@[simp] theorem State.modHaul_hauls (s : State) (n : Nat) (f : Haul → Haul) : (s.modHaul n f).hauls = s.hauls.map fun h => if h.id = n then f h else h :=
  rfl
@[simp] theorem State.modHaul_rakes (s : State) (n : Nat) (f : Haul → Haul) : (s.modHaul n f).rakes = s.rakes := rfl
@[simp] theorem State.modHaul_views (s : State) (n : Nat) (f : Haul → Haul) : (s.modHaul n f).views = s.views := rfl
@[simp] theorem State.modHaul_queues (s : State) (n : Nat) (f : Haul → Haul) : (s.modHaul n f).queues = s.queues := rfl
@[simp] theorem State.modHaul_commands (s : State) (n : Nat) (f : Haul → Haul) : (s.modHaul n f).commands = s.commands :=
  rfl
@[simp] theorem State.modHaul_migrations (s : State) (n : Nat) (f : Haul → Haul) : (s.modHaul n f).migrations = s.migrations :=
  rfl
@[simp] theorem State.modHaul_mem (s : State) (n : Nat) (f : Haul → Haul) : (s.modHaul n f).mem = s.mem := rfl
@[simp] theorem State.modHaul_corePts (s : State) (n : Nat) (f : Haul → Haul) : (s.modHaul n f).corePts = s.corePts :=
  rfl
@[simp] theorem State.modHaul_hostCopies (s : State) (n : Nat) (f : Haul → Haul) : (s.modHaul n f).hostCopies = s.hostCopies :=
  rfl
@[simp] theorem State.modHaul_tlb (s : State) (n : Nat) (f : Haul → Haul) : (s.modHaul n f).tlb = s.tlb := rfl
@[simp] theorem State.modHaul_dev (s : State) (n : Nat) (f : Haul → Haul) : (s.modHaul n f).dev = s.dev := rfl
@[simp] theorem State.modHaul_schedule (s : State) (n : Nat) (f : Haul → Haul) : (s.modHaul n f).schedule = s.schedule :=
  rfl
@[simp] theorem State.modHaul_fresh (s : State) (n : Nat) (f : Haul → Haul) : (s.modHaul n f).fresh = s.fresh := rfl
@[simp] theorem State.modHaul_nextId (s : State) (n : Nat) (f : Haul → Haul) : (s.modHaul n f).nextId = s.nextId := rfl

/-! ### modView -/

@[simp] theorem State.modView_co (s : State) (n : Nat) (f : ViewReq → ViewReq) : (s.modView n f).co = s.co := rfl
@[simp] theorem State.modView_coaches (s : State) (n : Nat) (f : ViewReq → ViewReq) : (s.modView n f).coaches = s.coaches :=
  rfl
@[simp] theorem State.modView_cores (s : State) (n : Nat) (f : ViewReq → ViewReq) : (s.modView n f).cores = s.cores :=
  rfl
@[simp] theorem State.modView_quads (s : State) (n : Nat) (f : ViewReq → ViewReq) : (s.modView n f).quads = s.quads :=
  rfl
@[simp] theorem State.modView_vfs (s : State) (n : Nat) (f : ViewReq → ViewReq) : (s.modView n f).vfs = s.vfs := rfl
@[simp] theorem State.modView_hauls (s : State) (n : Nat) (f : ViewReq → ViewReq) : (s.modView n f).hauls = s.hauls :=
  rfl
@[simp] theorem State.modView_rakes (s : State) (n : Nat) (f : ViewReq → ViewReq) : (s.modView n f).rakes = s.rakes :=
  rfl
@[simp] theorem State.modView_views (s : State) (n : Nat) (f : ViewReq → ViewReq) : (s.modView n f).views = s.views.map fun v => if v.id = n then f v else v :=
  rfl
@[simp] theorem State.modView_queues (s : State) (n : Nat) (f : ViewReq → ViewReq) : (s.modView n f).queues = s.queues :=
  rfl
@[simp] theorem State.modView_commands (s : State) (n : Nat) (f : ViewReq → ViewReq) : (s.modView n f).commands = s.commands :=
  rfl
@[simp] theorem State.modView_migrations (s : State) (n : Nat) (f : ViewReq → ViewReq) : (s.modView n f).migrations = s.migrations :=
  rfl
@[simp] theorem State.modView_mem (s : State) (n : Nat) (f : ViewReq → ViewReq) : (s.modView n f).mem = s.mem := rfl
@[simp] theorem State.modView_corePts (s : State) (n : Nat) (f : ViewReq → ViewReq) : (s.modView n f).corePts = s.corePts :=
  rfl
@[simp] theorem State.modView_hostCopies (s : State) (n : Nat) (f : ViewReq → ViewReq) : (s.modView n f).hostCopies = s.hostCopies :=
  rfl
@[simp] theorem State.modView_tlb (s : State) (n : Nat) (f : ViewReq → ViewReq) : (s.modView n f).tlb = s.tlb := rfl
@[simp] theorem State.modView_dev (s : State) (n : Nat) (f : ViewReq → ViewReq) : (s.modView n f).dev = s.dev := rfl
@[simp] theorem State.modView_schedule (s : State) (n : Nat) (f : ViewReq → ViewReq) : (s.modView n f).schedule = s.schedule :=
  rfl
@[simp] theorem State.modView_fresh (s : State) (n : Nat) (f : ViewReq → ViewReq) : (s.modView n f).fresh = s.fresh :=
  rfl
@[simp] theorem State.modView_nextId (s : State) (n : Nat) (f : ViewReq → ViewReq) : (s.modView n f).nextId = s.nextId :=
  rfl

/-! ### modQueue -/

@[simp] theorem State.modQueue_co (s : State) (n : Nat) (f : Queue → Queue) : (s.modQueue n f).co = s.co := rfl
@[simp] theorem State.modQueue_coaches (s : State) (n : Nat) (f : Queue → Queue) : (s.modQueue n f).coaches = s.coaches :=
  rfl
@[simp] theorem State.modQueue_cores (s : State) (n : Nat) (f : Queue → Queue) : (s.modQueue n f).cores = s.cores := rfl
@[simp] theorem State.modQueue_quads (s : State) (n : Nat) (f : Queue → Queue) : (s.modQueue n f).quads = s.quads := rfl
@[simp] theorem State.modQueue_vfs (s : State) (n : Nat) (f : Queue → Queue) : (s.modQueue n f).vfs = s.vfs := rfl
@[simp] theorem State.modQueue_hauls (s : State) (n : Nat) (f : Queue → Queue) : (s.modQueue n f).hauls = s.hauls := rfl
@[simp] theorem State.modQueue_rakes (s : State) (n : Nat) (f : Queue → Queue) : (s.modQueue n f).rakes = s.rakes := rfl
@[simp] theorem State.modQueue_views (s : State) (n : Nat) (f : Queue → Queue) : (s.modQueue n f).views = s.views := rfl
@[simp] theorem State.modQueue_queues (s : State) (n : Nat) (f : Queue → Queue) : (s.modQueue n f).queues = s.queues.map fun q => if q.id = n then f q else q :=
  rfl
@[simp] theorem State.modQueue_commands (s : State) (n : Nat) (f : Queue → Queue) : (s.modQueue n f).commands = s.commands :=
  rfl
@[simp] theorem State.modQueue_migrations (s : State) (n : Nat) (f : Queue → Queue) : (s.modQueue n f).migrations = s.migrations :=
  rfl
@[simp] theorem State.modQueue_mem (s : State) (n : Nat) (f : Queue → Queue) : (s.modQueue n f).mem = s.mem := rfl
@[simp] theorem State.modQueue_corePts (s : State) (n : Nat) (f : Queue → Queue) : (s.modQueue n f).corePts = s.corePts :=
  rfl
@[simp] theorem State.modQueue_hostCopies (s : State) (n : Nat) (f : Queue → Queue) : (s.modQueue n f).hostCopies = s.hostCopies :=
  rfl
@[simp] theorem State.modQueue_tlb (s : State) (n : Nat) (f : Queue → Queue) : (s.modQueue n f).tlb = s.tlb := rfl
@[simp] theorem State.modQueue_dev (s : State) (n : Nat) (f : Queue → Queue) : (s.modQueue n f).dev = s.dev := rfl
@[simp] theorem State.modQueue_schedule (s : State) (n : Nat) (f : Queue → Queue) : (s.modQueue n f).schedule = s.schedule :=
  rfl
@[simp] theorem State.modQueue_fresh (s : State) (n : Nat) (f : Queue → Queue) : (s.modQueue n f).fresh = s.fresh := rfl
@[simp] theorem State.modQueue_nextId (s : State) (n : Nat) (f : Queue → Queue) : (s.modQueue n f).nextId = s.nextId :=
  rfl

/-! ### modDev -/

@[simp] theorem State.modDev_co (s : State) (f : Device → Device) : (s.modDev f).co = s.co := rfl
@[simp] theorem State.modDev_coaches (s : State) (f : Device → Device) : (s.modDev f).coaches = s.coaches := rfl
@[simp] theorem State.modDev_cores (s : State) (f : Device → Device) : (s.modDev f).cores = s.cores := rfl
@[simp] theorem State.modDev_quads (s : State) (f : Device → Device) : (s.modDev f).quads = s.quads := rfl
@[simp] theorem State.modDev_vfs (s : State) (f : Device → Device) : (s.modDev f).vfs = s.vfs := rfl
@[simp] theorem State.modDev_hauls (s : State) (f : Device → Device) : (s.modDev f).hauls = s.hauls := rfl
@[simp] theorem State.modDev_rakes (s : State) (f : Device → Device) : (s.modDev f).rakes = s.rakes := rfl
@[simp] theorem State.modDev_views (s : State) (f : Device → Device) : (s.modDev f).views = s.views := rfl
@[simp] theorem State.modDev_queues (s : State) (f : Device → Device) : (s.modDev f).queues = s.queues := rfl
@[simp] theorem State.modDev_commands (s : State) (f : Device → Device) : (s.modDev f).commands = s.commands := rfl
@[simp] theorem State.modDev_migrations (s : State) (f : Device → Device) : (s.modDev f).migrations = s.migrations :=
  rfl
@[simp] theorem State.modDev_mem (s : State) (f : Device → Device) : (s.modDev f).mem = s.mem := rfl
@[simp] theorem State.modDev_corePts (s : State) (f : Device → Device) : (s.modDev f).corePts = s.corePts := rfl
@[simp] theorem State.modDev_hostCopies (s : State) (f : Device → Device) : (s.modDev f).hostCopies = s.hostCopies :=
  rfl
@[simp] theorem State.modDev_tlb (s : State) (f : Device → Device) : (s.modDev f).tlb = s.tlb := rfl
@[simp] theorem State.modDev_dev (s : State) (f : Device → Device) : (s.modDev f).dev = f s.dev := rfl
@[simp] theorem State.modDev_schedule (s : State) (f : Device → Device) : (s.modDev f).schedule = s.schedule := rfl
@[simp] theorem State.modDev_fresh (s : State) (f : Device → Device) : (s.modDev f).fresh = s.fresh := rfl
@[simp] theorem State.modDev_nextId (s : State) (f : Device → Device) : (s.modDev f).nextId = s.nextId := rfl

/-! ### newId -/

@[simp] theorem State.newId_co (s : State) : (s.newId).co = s.co := rfl
@[simp] theorem State.newId_coaches (s : State) : (s.newId).coaches = s.coaches := rfl
@[simp] theorem State.newId_cores (s : State) : (s.newId).cores = s.cores := rfl
@[simp] theorem State.newId_quads (s : State) : (s.newId).quads = s.quads := rfl
@[simp] theorem State.newId_vfs (s : State) : (s.newId).vfs = s.vfs := rfl
@[simp] theorem State.newId_hauls (s : State) : (s.newId).hauls = s.hauls := rfl
@[simp] theorem State.newId_rakes (s : State) : (s.newId).rakes = s.rakes := rfl
@[simp] theorem State.newId_views (s : State) : (s.newId).views = s.views := rfl
@[simp] theorem State.newId_queues (s : State) : (s.newId).queues = s.queues := rfl
@[simp] theorem State.newId_commands (s : State) : (s.newId).commands = s.commands := rfl
@[simp] theorem State.newId_migrations (s : State) : (s.newId).migrations = s.migrations := rfl
@[simp] theorem State.newId_mem (s : State) : (s.newId).mem = s.mem := rfl
@[simp] theorem State.newId_corePts (s : State) : (s.newId).corePts = s.corePts := rfl
@[simp] theorem State.newId_hostCopies (s : State) : (s.newId).hostCopies = s.hostCopies := rfl
@[simp] theorem State.newId_tlb (s : State) : (s.newId).tlb = s.tlb := rfl
@[simp] theorem State.newId_dev (s : State) : (s.newId).dev = s.dev := rfl
@[simp] theorem State.newId_schedule (s : State) : (s.newId).schedule = s.schedule := rfl
@[simp] theorem State.newId_fresh (s : State) : (s.newId).fresh = s.fresh := rfl
@[simp] theorem State.newId_nextId (s : State) : (s.newId).nextId = s.nextId + 1 := rfl

/-! ### wr -/

@[simp] theorem State.wr_co (s : State) (a : Nat) (b : List Byte) : (s.wr a b).co = s.co := rfl
@[simp] theorem State.wr_coaches (s : State) (a : Nat) (b : List Byte) : (s.wr a b).coaches = s.coaches := rfl
@[simp] theorem State.wr_cores (s : State) (a : Nat) (b : List Byte) : (s.wr a b).cores = s.cores := rfl
@[simp] theorem State.wr_quads (s : State) (a : Nat) (b : List Byte) : (s.wr a b).quads = s.quads := rfl
@[simp] theorem State.wr_vfs (s : State) (a : Nat) (b : List Byte) : (s.wr a b).vfs = s.vfs := rfl
@[simp] theorem State.wr_hauls (s : State) (a : Nat) (b : List Byte) : (s.wr a b).hauls = s.hauls := rfl
@[simp] theorem State.wr_rakes (s : State) (a : Nat) (b : List Byte) : (s.wr a b).rakes = s.rakes := rfl
@[simp] theorem State.wr_views (s : State) (a : Nat) (b : List Byte) : (s.wr a b).views = s.views := rfl
@[simp] theorem State.wr_queues (s : State) (a : Nat) (b : List Byte) : (s.wr a b).queues = s.queues := rfl
@[simp] theorem State.wr_commands (s : State) (a : Nat) (b : List Byte) : (s.wr a b).commands = s.commands := rfl
@[simp] theorem State.wr_migrations (s : State) (a : Nat) (b : List Byte) : (s.wr a b).migrations = s.migrations.map fun m => m.mark a b.length :=
  rfl
@[simp] theorem State.wr_mem (s : State) (a : Nat) (b : List Byte) : (s.wr a b).mem = Memory.putAll s.mem a b := rfl
@[simp] theorem State.wr_corePts (s : State) (a : Nat) (b : List Byte) : (s.wr a b).corePts = s.corePts := rfl
@[simp] theorem State.wr_hostCopies (s : State) (a : Nat) (b : List Byte) : (s.wr a b).hostCopies = s.hostCopies := rfl
@[simp] theorem State.wr_tlb (s : State) (a : Nat) (b : List Byte) : (s.wr a b).tlb = s.tlb := rfl
@[simp] theorem State.wr_dev (s : State) (a : Nat) (b : List Byte) : (s.wr a b).dev = { s.dev with poison := s.dev.poison.filter fun g => !(a ≤ g && g + 4 ≤ a + b.length) } :=
  rfl
@[simp] theorem State.wr_schedule (s : State) (a : Nat) (b : List Byte) : (s.wr a b).schedule = s.schedule := rfl
@[simp] theorem State.wr_fresh (s : State) (a : Nat) (b : List Byte) : (s.wr a b).fresh = s.fresh := rfl
@[simp] theorem State.wr_nextId (s : State) (a : Nat) (b : List Byte) : (s.wr a b).nextId = s.nextId := rfl

/-! ### clear -/

@[simp] theorem State.clear_co (s : State) (a n : Nat) : (s.clear a n).co = s.co := rfl
@[simp] theorem State.clear_coaches (s : State) (a n : Nat) : (s.clear a n).coaches = s.coaches := rfl
@[simp] theorem State.clear_cores (s : State) (a n : Nat) : (s.clear a n).cores = s.cores := rfl
@[simp] theorem State.clear_quads (s : State) (a n : Nat) : (s.clear a n).quads = s.quads := rfl
@[simp] theorem State.clear_vfs (s : State) (a n : Nat) : (s.clear a n).vfs = s.vfs := rfl
@[simp] theorem State.clear_hauls (s : State) (a n : Nat) : (s.clear a n).hauls = s.hauls := rfl
@[simp] theorem State.clear_rakes (s : State) (a n : Nat) : (s.clear a n).rakes = s.rakes := rfl
@[simp] theorem State.clear_views (s : State) (a n : Nat) : (s.clear a n).views = s.views := rfl
@[simp] theorem State.clear_queues (s : State) (a n : Nat) : (s.clear a n).queues = s.queues := rfl
@[simp] theorem State.clear_commands (s : State) (a n : Nat) : (s.clear a n).commands = s.commands := rfl
@[simp] theorem State.clear_migrations (s : State) (a n : Nat) : (s.clear a n).migrations = s.migrations := rfl
@[simp] theorem State.clear_mem (s : State) (a n : Nat) : (s.clear a n).mem = Memory.clear s.mem a n := rfl
@[simp] theorem State.clear_corePts (s : State) (a n : Nat) : (s.clear a n).corePts = s.corePts := rfl
@[simp] theorem State.clear_hostCopies (s : State) (a n : Nat) : (s.clear a n).hostCopies = s.hostCopies := rfl
@[simp] theorem State.clear_tlb (s : State) (a n : Nat) : (s.clear a n).tlb = s.tlb := rfl
@[simp] theorem State.clear_dev (s : State) (a n : Nat) : (s.clear a n).dev = { s.dev with poison := s.dev.poison.filter fun g => !(a ≤ g && g + 4 ≤ a + n) } :=
  rfl
@[simp] theorem State.clear_schedule (s : State) (a n : Nat) : (s.clear a n).schedule = s.schedule := rfl
@[simp] theorem State.clear_fresh (s : State) (a n : Nat) : (s.clear a n).fresh = s.fresh := rfl
@[simp] theorem State.clear_nextId (s : State) (a n : Nat) : (s.clear a n).nextId = s.nextId := rfl

/-! ### trapAll -/

@[simp] theorem State.trapAll_co (s : State) (k : Cause) : (s.trapAll k).co = s.co.raiseMask s.co.masks.exm k := rfl
@[simp] theorem State.trapAll_coaches (s : State) (k : Cause) : (s.trapAll k).coaches = s.coaches := rfl
@[simp] theorem State.trapAll_cores (s : State) (k : Cause) : (s.trapAll k).cores = s.cores := rfl
@[simp] theorem State.trapAll_quads (s : State) (k : Cause) : (s.trapAll k).quads = s.quads := rfl
@[simp] theorem State.trapAll_vfs (s : State) (k : Cause) : (s.trapAll k).vfs = s.vfs := rfl
@[simp] theorem State.trapAll_hauls (s : State) (k : Cause) : (s.trapAll k).hauls = s.hauls := rfl
@[simp] theorem State.trapAll_rakes (s : State) (k : Cause) : (s.trapAll k).rakes = s.rakes := rfl
@[simp] theorem State.trapAll_views (s : State) (k : Cause) : (s.trapAll k).views = s.views := rfl
@[simp] theorem State.trapAll_queues (s : State) (k : Cause) : (s.trapAll k).queues = s.queues := rfl
@[simp] theorem State.trapAll_commands (s : State) (k : Cause) : (s.trapAll k).commands = s.commands := rfl
@[simp] theorem State.trapAll_migrations (s : State) (k : Cause) : (s.trapAll k).migrations = s.migrations := rfl
@[simp] theorem State.trapAll_mem (s : State) (k : Cause) : (s.trapAll k).mem = s.mem := rfl
@[simp] theorem State.trapAll_corePts (s : State) (k : Cause) : (s.trapAll k).corePts = s.corePts := rfl
@[simp] theorem State.trapAll_hostCopies (s : State) (k : Cause) : (s.trapAll k).hostCopies = s.hostCopies := rfl
@[simp] theorem State.trapAll_tlb (s : State) (k : Cause) : (s.trapAll k).tlb = s.tlb := rfl
@[simp] theorem State.trapAll_dev (s : State) (k : Cause) : (s.trapAll k).dev = s.dev := rfl
@[simp] theorem State.trapAll_schedule (s : State) (k : Cause) : (s.trapAll k).schedule = s.schedule := rfl
@[simp] theorem State.trapAll_fresh (s : State) (k : Cause) : (s.trapAll k).fresh = s.fresh := rfl
@[simp] theorem State.trapAll_nextId (s : State) (k : Cause) : (s.trapAll k).nextId = s.nextId := rfl

/-! ### trapPlane -/

@[simp] theorem State.trapPlane_co (s : State) (k : Cause) : (s.trapPlane k).co = s.co.raiseMask s.co.planeLanes k :=
  rfl
@[simp] theorem State.trapPlane_coaches (s : State) (k : Cause) : (s.trapPlane k).coaches = s.coaches := rfl
@[simp] theorem State.trapPlane_cores (s : State) (k : Cause) : (s.trapPlane k).cores = s.cores := rfl
@[simp] theorem State.trapPlane_quads (s : State) (k : Cause) : (s.trapPlane k).quads = s.quads := rfl
@[simp] theorem State.trapPlane_vfs (s : State) (k : Cause) : (s.trapPlane k).vfs = s.vfs := rfl
@[simp] theorem State.trapPlane_hauls (s : State) (k : Cause) : (s.trapPlane k).hauls = s.hauls := rfl
@[simp] theorem State.trapPlane_rakes (s : State) (k : Cause) : (s.trapPlane k).rakes = s.rakes := rfl
@[simp] theorem State.trapPlane_views (s : State) (k : Cause) : (s.trapPlane k).views = s.views := rfl
@[simp] theorem State.trapPlane_queues (s : State) (k : Cause) : (s.trapPlane k).queues = s.queues := rfl
@[simp] theorem State.trapPlane_commands (s : State) (k : Cause) : (s.trapPlane k).commands = s.commands := rfl
@[simp] theorem State.trapPlane_migrations (s : State) (k : Cause) : (s.trapPlane k).migrations = s.migrations := rfl
@[simp] theorem State.trapPlane_mem (s : State) (k : Cause) : (s.trapPlane k).mem = s.mem := rfl
@[simp] theorem State.trapPlane_corePts (s : State) (k : Cause) : (s.trapPlane k).corePts = s.corePts := rfl
@[simp] theorem State.trapPlane_hostCopies (s : State) (k : Cause) : (s.trapPlane k).hostCopies = s.hostCopies := rfl
@[simp] theorem State.trapPlane_tlb (s : State) (k : Cause) : (s.trapPlane k).tlb = s.tlb := rfl
@[simp] theorem State.trapPlane_dev (s : State) (k : Cause) : (s.trapPlane k).dev = s.dev := rfl
@[simp] theorem State.trapPlane_schedule (s : State) (k : Cause) : (s.trapPlane k).schedule = s.schedule := rfl
@[simp] theorem State.trapPlane_fresh (s : State) (k : Cause) : (s.trapPlane k).fresh = s.fresh := rfl
@[simp] theorem State.trapPlane_nextId (s : State) (k : Cause) : (s.trapPlane k).nextId = s.nextId := rfl

/-! ### trapOcc -/

@[simp] theorem State.trapOcc_co (s : State) (k : Cause) : (s.trapOcc k).co = s.co.raiseMask s.co.occLanes k := rfl
@[simp] theorem State.trapOcc_coaches (s : State) (k : Cause) : (s.trapOcc k).coaches = s.coaches := rfl
@[simp] theorem State.trapOcc_cores (s : State) (k : Cause) : (s.trapOcc k).cores = s.cores := rfl
@[simp] theorem State.trapOcc_quads (s : State) (k : Cause) : (s.trapOcc k).quads = s.quads := rfl
@[simp] theorem State.trapOcc_vfs (s : State) (k : Cause) : (s.trapOcc k).vfs = s.vfs := rfl
@[simp] theorem State.trapOcc_hauls (s : State) (k : Cause) : (s.trapOcc k).hauls = s.hauls := rfl
@[simp] theorem State.trapOcc_rakes (s : State) (k : Cause) : (s.trapOcc k).rakes = s.rakes := rfl
@[simp] theorem State.trapOcc_views (s : State) (k : Cause) : (s.trapOcc k).views = s.views := rfl
@[simp] theorem State.trapOcc_queues (s : State) (k : Cause) : (s.trapOcc k).queues = s.queues := rfl
@[simp] theorem State.trapOcc_commands (s : State) (k : Cause) : (s.trapOcc k).commands = s.commands := rfl
@[simp] theorem State.trapOcc_migrations (s : State) (k : Cause) : (s.trapOcc k).migrations = s.migrations := rfl
@[simp] theorem State.trapOcc_mem (s : State) (k : Cause) : (s.trapOcc k).mem = s.mem := rfl
@[simp] theorem State.trapOcc_corePts (s : State) (k : Cause) : (s.trapOcc k).corePts = s.corePts := rfl
@[simp] theorem State.trapOcc_hostCopies (s : State) (k : Cause) : (s.trapOcc k).hostCopies = s.hostCopies := rfl
@[simp] theorem State.trapOcc_tlb (s : State) (k : Cause) : (s.trapOcc k).tlb = s.tlb := rfl
@[simp] theorem State.trapOcc_dev (s : State) (k : Cause) : (s.trapOcc k).dev = s.dev := rfl
@[simp] theorem State.trapOcc_schedule (s : State) (k : Cause) : (s.trapOcc k).schedule = s.schedule := rfl
@[simp] theorem State.trapOcc_fresh (s : State) (k : Cause) : (s.trapOcc k).fresh = s.fresh := rfl
@[simp] theorem State.trapOcc_nextId (s : State) (k : Cause) : (s.trapOcc k).nextId = s.nextId := rfl

/-! ### trapLanes -/

@[simp] theorem State.trapLanes_co (s : State) (l : List (Nat × Cause)) : (s.trapLanes l).co = s.co.raise l := rfl
@[simp] theorem State.trapLanes_coaches (s : State) (l : List (Nat × Cause)) : (s.trapLanes l).coaches = s.coaches :=
  rfl
@[simp] theorem State.trapLanes_cores (s : State) (l : List (Nat × Cause)) : (s.trapLanes l).cores = s.cores := rfl
@[simp] theorem State.trapLanes_quads (s : State) (l : List (Nat × Cause)) : (s.trapLanes l).quads = s.quads := rfl
@[simp] theorem State.trapLanes_vfs (s : State) (l : List (Nat × Cause)) : (s.trapLanes l).vfs = s.vfs := rfl
@[simp] theorem State.trapLanes_hauls (s : State) (l : List (Nat × Cause)) : (s.trapLanes l).hauls = s.hauls := rfl
@[simp] theorem State.trapLanes_rakes (s : State) (l : List (Nat × Cause)) : (s.trapLanes l).rakes = s.rakes := rfl
@[simp] theorem State.trapLanes_views (s : State) (l : List (Nat × Cause)) : (s.trapLanes l).views = s.views := rfl
@[simp] theorem State.trapLanes_queues (s : State) (l : List (Nat × Cause)) : (s.trapLanes l).queues = s.queues := rfl
@[simp] theorem State.trapLanes_commands (s : State) (l : List (Nat × Cause)) : (s.trapLanes l).commands = s.commands :=
  rfl
@[simp] theorem State.trapLanes_migrations (s : State) (l : List (Nat × Cause)) : (s.trapLanes l).migrations = s.migrations :=
  rfl
@[simp] theorem State.trapLanes_mem (s : State) (l : List (Nat × Cause)) : (s.trapLanes l).mem = s.mem := rfl
@[simp] theorem State.trapLanes_corePts (s : State) (l : List (Nat × Cause)) : (s.trapLanes l).corePts = s.corePts :=
  rfl
@[simp] theorem State.trapLanes_hostCopies (s : State) (l : List (Nat × Cause)) : (s.trapLanes l).hostCopies = s.hostCopies :=
  rfl
@[simp] theorem State.trapLanes_tlb (s : State) (l : List (Nat × Cause)) : (s.trapLanes l).tlb = s.tlb := rfl
@[simp] theorem State.trapLanes_dev (s : State) (l : List (Nat × Cause)) : (s.trapLanes l).dev = s.dev := rfl
@[simp] theorem State.trapLanes_schedule (s : State) (l : List (Nat × Cause)) : (s.trapLanes l).schedule = s.schedule :=
  rfl
@[simp] theorem State.trapLanes_fresh (s : State) (l : List (Nat × Cause)) : (s.trapLanes l).fresh = s.fresh := rfl
@[simp] theorem State.trapLanes_nextId (s : State) (l : List (Nat × Cause)) : (s.trapLanes l).nextId = s.nextId := rfl

/-! ### setPhys -/

@[simp] theorem Coach.setPhys_ident (c : Coach) (p : Nat) (m : LaneMask) (x : LaneVec) : (c.setPhys p m x).ident = c.ident :=
  rfl
@[simp] theorem Coach.setPhys_regs (c : Coach) (p : Nat) (m : LaneMask) (x : LaneVec) : (c.setPhys p m x).regs = { c.regs with v := vset c.regs.v p (laneMerge m x (vget c.regs.v p)), bad := c.regs.bad.filter fun q => !(q.1 == p && m.getLsbD q.2) } :=
  rfl
@[simp] theorem Coach.setPhys_masks (c : Coach) (p : Nat) (m : LaneMask) (x : LaneVec) : (c.setPhys p m x).masks = c.masks :=
  rfl
@[simp] theorem Coach.setPhys_window (c : Coach) (p : Nat) (m : LaneMask) (x : LaneVec) : (c.setPhys p m x).window = c.window :=
  rfl
@[simp] theorem Coach.setPhys_segs (c : Coach) (p : Nat) (m : LaneMask) (x : LaneVec) : (c.setPhys p m x).segs = c.segs :=
  rfl
@[simp] theorem Coach.setPhys_special (c : Coach) (p : Nat) (m : LaneMask) (x : LaneVec) : (c.setPhys p m x).special = c.special :=
  rfl
@[simp] theorem Coach.setPhys_traps (c : Coach) (p : Nat) (m : LaneMask) (x : LaneVec) : (c.setPhys p m x).traps = c.traps :=
  rfl
@[simp] theorem Coach.setPhys_issue (c : Coach) (p : Nat) (m : LaneMask) (x : LaneVec) : (c.setPhys p m x).issue = c.issue :=
  rfl
@[simp] theorem Coach.setPhys_wbuf (c : Coach) (p : Nat) (m : LaneMask) (x : LaneVec) : (c.setPhys p m x).wbuf = c.wbuf :=
  rfl
@[simp] theorem Coach.setPhys_snap (c : Coach) (p : Nat) (m : LaneMask) (x : LaneVec) : (c.setPhys p m x).snap = c.snap :=
  rfl
@[simp] theorem Coach.setPhys_sets (c : Coach) (p : Nat) (m : LaneMask) (x : LaneVec) : (c.setPhys p m x).sets = c.sets :=
  rfl
@[simp] theorem Coach.setPhys_tickets (c : Coach) (p : Nat) (m : LaneMask) (x : LaneVec) : (c.setPhys p m x).tickets = c.tickets :=
  rfl
@[simp] theorem Coach.setPhys_tcount (c : Coach) (p : Nat) (m : LaneMask) (x : LaneVec) : (c.setPhys p m x).tcount = c.tcount :=
  rfl
@[simp] theorem Coach.setPhys_pendb (c : Coach) (p : Nat) (m : LaneMask) (x : LaneVec) : (c.setPhys p m x).pendb = c.pendb :=
  rfl
@[simp] theorem Coach.setPhys_pdone (c : Coach) (p : Nat) (m : LaneMask) (x : LaneVec) : (c.setPhys p m x).pdone = c.pdone :=
  rfl
@[simp] theorem Coach.setPhys_preempt (c : Coach) (p : Nat) (m : LaneMask) (x : LaneVec) : (c.setPhys p m x).preempt = c.preempt :=
  rfl

/-! ### setVec -/

@[simp] theorem Coach.setVec_ident (c : Coach) (i : Nat) (m : LaneMask) (x : LaneVec) : (c.setVec i m x).ident = c.ident :=
  rfl
@[simp] theorem Coach.setVec_regs (c : Coach) (i : Nat) (m : LaneMask) (x : LaneVec) : (c.setVec i m x).regs = { c.regs with v := vset c.regs.v (c.phys i) (laneMerge m x (vget c.regs.v (c.phys i))), bad := c.regs.bad.filter fun q => !(q.1 == c.phys i && m.getLsbD q.2) } :=
  rfl
@[simp] theorem Coach.setVec_masks (c : Coach) (i : Nat) (m : LaneMask) (x : LaneVec) : (c.setVec i m x).masks = c.masks :=
  rfl
@[simp] theorem Coach.setVec_window (c : Coach) (i : Nat) (m : LaneMask) (x : LaneVec) : (c.setVec i m x).window = c.window :=
  rfl
@[simp] theorem Coach.setVec_segs (c : Coach) (i : Nat) (m : LaneMask) (x : LaneVec) : (c.setVec i m x).segs = c.segs :=
  rfl
@[simp] theorem Coach.setVec_special (c : Coach) (i : Nat) (m : LaneMask) (x : LaneVec) : (c.setVec i m x).special = c.special :=
  rfl
@[simp] theorem Coach.setVec_traps (c : Coach) (i : Nat) (m : LaneMask) (x : LaneVec) : (c.setVec i m x).traps = c.traps :=
  rfl
@[simp] theorem Coach.setVec_issue (c : Coach) (i : Nat) (m : LaneMask) (x : LaneVec) : (c.setVec i m x).issue = c.issue :=
  rfl
@[simp] theorem Coach.setVec_wbuf (c : Coach) (i : Nat) (m : LaneMask) (x : LaneVec) : (c.setVec i m x).wbuf = c.wbuf :=
  rfl
@[simp] theorem Coach.setVec_snap (c : Coach) (i : Nat) (m : LaneMask) (x : LaneVec) : (c.setVec i m x).snap = c.snap :=
  rfl
@[simp] theorem Coach.setVec_sets (c : Coach) (i : Nat) (m : LaneMask) (x : LaneVec) : (c.setVec i m x).sets = c.sets :=
  rfl
@[simp] theorem Coach.setVec_tickets (c : Coach) (i : Nat) (m : LaneMask) (x : LaneVec) : (c.setVec i m x).tickets = c.tickets :=
  rfl
@[simp] theorem Coach.setVec_tcount (c : Coach) (i : Nat) (m : LaneMask) (x : LaneVec) : (c.setVec i m x).tcount = c.tcount :=
  rfl
@[simp] theorem Coach.setVec_pendb (c : Coach) (i : Nat) (m : LaneMask) (x : LaneVec) : (c.setVec i m x).pendb = c.pendb :=
  rfl
@[simp] theorem Coach.setVec_pdone (c : Coach) (i : Nat) (m : LaneMask) (x : LaneVec) : (c.setVec i m x).pdone = c.pdone :=
  rfl
@[simp] theorem Coach.setVec_preempt (c : Coach) (i : Nat) (m : LaneMask) (x : LaneVec) : (c.setVec i m x).preempt = c.preempt :=
  rfl

/-! ### setG -/

@[simp] theorem Coach.setG_ident (c : Coach) (d : BitVec 6) (x : Dword) : (c.setG d x).ident = c.ident := by
  unfold Coach.setG; split <;> rfl
@[simp] theorem Coach.setG_masks (c : Coach) (d : BitVec 6) (x : Dword) : (c.setG d x).masks = c.masks := by
  unfold Coach.setG; split <;> rfl
@[simp] theorem Coach.setG_window (c : Coach) (d : BitVec 6) (x : Dword) : (c.setG d x).window = c.window := by
  unfold Coach.setG; split <;> rfl
@[simp] theorem Coach.setG_segs (c : Coach) (d : BitVec 6) (x : Dword) : (c.setG d x).segs = c.segs := by
  unfold Coach.setG; split <;> rfl
@[simp] theorem Coach.setG_special (c : Coach) (d : BitVec 6) (x : Dword) : (c.setG d x).special = c.special := by
  unfold Coach.setG; split <;> rfl
@[simp] theorem Coach.setG_traps (c : Coach) (d : BitVec 6) (x : Dword) : (c.setG d x).traps = c.traps := by
  unfold Coach.setG; split <;> rfl
@[simp] theorem Coach.setG_issue (c : Coach) (d : BitVec 6) (x : Dword) : (c.setG d x).issue = c.issue := by
  unfold Coach.setG; split <;> rfl
@[simp] theorem Coach.setG_wbuf (c : Coach) (d : BitVec 6) (x : Dword) : (c.setG d x).wbuf = c.wbuf := by
  unfold Coach.setG; split <;> rfl
@[simp] theorem Coach.setG_snap (c : Coach) (d : BitVec 6) (x : Dword) : (c.setG d x).snap = c.snap := by
  unfold Coach.setG; split <;> rfl
@[simp] theorem Coach.setG_sets (c : Coach) (d : BitVec 6) (x : Dword) : (c.setG d x).sets = c.sets := by
  unfold Coach.setG; split <;> rfl
@[simp] theorem Coach.setG_tickets (c : Coach) (d : BitVec 6) (x : Dword) : (c.setG d x).tickets = c.tickets := by
  unfold Coach.setG; split <;> rfl
@[simp] theorem Coach.setG_tcount (c : Coach) (d : BitVec 6) (x : Dword) : (c.setG d x).tcount = c.tcount := by
  unfold Coach.setG; split <;> rfl
@[simp] theorem Coach.setG_pendb (c : Coach) (d : BitVec 6) (x : Dword) : (c.setG d x).pendb = c.pendb := by
  unfold Coach.setG; split <;> rfl
@[simp] theorem Coach.setG_pdone (c : Coach) (d : BitVec 6) (x : Dword) : (c.setG d x).pdone = c.pdone := by
  unfold Coach.setG; split <;> rfl
@[simp] theorem Coach.setG_preempt (c : Coach) (d : BitVec 6) (x : Dword) : (c.setG d x).preempt = c.preempt := by
  unfold Coach.setG; split <;> rfl

/-! ### setK -/

@[simp] theorem Coach.setK_ident (c : Coach) (d : BitVec 5) (m x : LaneMask) : (c.setK d m x).ident = c.ident := by
  unfold Coach.setK; split <;> rfl
@[simp] theorem Coach.setK_masks (c : Coach) (d : BitVec 5) (m x : LaneMask) : (c.setK d m x).masks = c.masks := by
  unfold Coach.setK; split <;> rfl
@[simp] theorem Coach.setK_window (c : Coach) (d : BitVec 5) (m x : LaneMask) : (c.setK d m x).window = c.window := by
  unfold Coach.setK; split <;> rfl
@[simp] theorem Coach.setK_segs (c : Coach) (d : BitVec 5) (m x : LaneMask) : (c.setK d m x).segs = c.segs := by
  unfold Coach.setK; split <;> rfl
@[simp] theorem Coach.setK_special (c : Coach) (d : BitVec 5) (m x : LaneMask) : (c.setK d m x).special = c.special := by
  unfold Coach.setK; split <;> rfl
@[simp] theorem Coach.setK_traps (c : Coach) (d : BitVec 5) (m x : LaneMask) : (c.setK d m x).traps = c.traps := by
  unfold Coach.setK; split <;> rfl
@[simp] theorem Coach.setK_issue (c : Coach) (d : BitVec 5) (m x : LaneMask) : (c.setK d m x).issue = c.issue := by
  unfold Coach.setK; split <;> rfl
@[simp] theorem Coach.setK_wbuf (c : Coach) (d : BitVec 5) (m x : LaneMask) : (c.setK d m x).wbuf = c.wbuf := by
  unfold Coach.setK; split <;> rfl
@[simp] theorem Coach.setK_snap (c : Coach) (d : BitVec 5) (m x : LaneMask) : (c.setK d m x).snap = c.snap := by
  unfold Coach.setK; split <;> rfl
@[simp] theorem Coach.setK_sets (c : Coach) (d : BitVec 5) (m x : LaneMask) : (c.setK d m x).sets = c.sets := by
  unfold Coach.setK; split <;> rfl
@[simp] theorem Coach.setK_tickets (c : Coach) (d : BitVec 5) (m x : LaneMask) : (c.setK d m x).tickets = c.tickets := by
  unfold Coach.setK; split <;> rfl
@[simp] theorem Coach.setK_tcount (c : Coach) (d : BitVec 5) (m x : LaneMask) : (c.setK d m x).tcount = c.tcount := by
  unfold Coach.setK; split <;> rfl
@[simp] theorem Coach.setK_pendb (c : Coach) (d : BitVec 5) (m x : LaneMask) : (c.setK d m x).pendb = c.pendb := by
  unfold Coach.setK; split <;> rfl
@[simp] theorem Coach.setK_pdone (c : Coach) (d : BitVec 5) (m x : LaneMask) : (c.setK d m x).pdone = c.pdone := by
  unfold Coach.setK; split <;> rfl
@[simp] theorem Coach.setK_preempt (c : Coach) (d : BitVec 5) (m x : LaneMask) : (c.setK d m x).preempt = c.preempt := by
  unfold Coach.setK; split <;> rfl

/-! ### setGk -/

@[simp] theorem Coach.setGk_ident (c : Coach) (d : BitVec 4) (x : Bool) : (c.setGk d x).ident = c.ident := by
  unfold Coach.setGk; split <;> rfl
@[simp] theorem Coach.setGk_masks (c : Coach) (d : BitVec 4) (x : Bool) : (c.setGk d x).masks = c.masks := by
  unfold Coach.setGk; split <;> rfl
@[simp] theorem Coach.setGk_window (c : Coach) (d : BitVec 4) (x : Bool) : (c.setGk d x).window = c.window := by
  unfold Coach.setGk; split <;> rfl
@[simp] theorem Coach.setGk_segs (c : Coach) (d : BitVec 4) (x : Bool) : (c.setGk d x).segs = c.segs := by
  unfold Coach.setGk; split <;> rfl
@[simp] theorem Coach.setGk_special (c : Coach) (d : BitVec 4) (x : Bool) : (c.setGk d x).special = c.special := by
  unfold Coach.setGk; split <;> rfl
@[simp] theorem Coach.setGk_traps (c : Coach) (d : BitVec 4) (x : Bool) : (c.setGk d x).traps = c.traps := by
  unfold Coach.setGk; split <;> rfl
@[simp] theorem Coach.setGk_issue (c : Coach) (d : BitVec 4) (x : Bool) : (c.setGk d x).issue = c.issue := by
  unfold Coach.setGk; split <;> rfl
@[simp] theorem Coach.setGk_wbuf (c : Coach) (d : BitVec 4) (x : Bool) : (c.setGk d x).wbuf = c.wbuf := by
  unfold Coach.setGk; split <;> rfl
@[simp] theorem Coach.setGk_snap (c : Coach) (d : BitVec 4) (x : Bool) : (c.setGk d x).snap = c.snap := by
  unfold Coach.setGk; split <;> rfl
@[simp] theorem Coach.setGk_sets (c : Coach) (d : BitVec 4) (x : Bool) : (c.setGk d x).sets = c.sets := by
  unfold Coach.setGk; split <;> rfl
@[simp] theorem Coach.setGk_tickets (c : Coach) (d : BitVec 4) (x : Bool) : (c.setGk d x).tickets = c.tickets := by
  unfold Coach.setGk; split <;> rfl
@[simp] theorem Coach.setGk_tcount (c : Coach) (d : BitVec 4) (x : Bool) : (c.setGk d x).tcount = c.tcount := by
  unfold Coach.setGk; split <;> rfl
@[simp] theorem Coach.setGk_pendb (c : Coach) (d : BitVec 4) (x : Bool) : (c.setGk d x).pendb = c.pendb := by
  unfold Coach.setGk; split <;> rfl
@[simp] theorem Coach.setGk_pdone (c : Coach) (d : BitVec 4) (x : Bool) : (c.setGk d x).pdone = c.pdone := by
  unfold Coach.setGk; split <;> rfl
@[simp] theorem Coach.setGk_preempt (c : Coach) (d : BitVec 4) (x : Bool) : (c.setGk d x).preempt = c.preempt := by
  unfold Coach.setGk; split <;> rfl

/-! ### defer -/

@[simp] theorem Coach.defer_ident (c : Coach) (d : Deferred) : (c.defer d).ident = c.ident := rfl
@[simp] theorem Coach.defer_regs (c : Coach) (d : Deferred) : (c.defer d).regs = c.regs := rfl
@[simp] theorem Coach.defer_masks (c : Coach) (d : Deferred) : (c.defer d).masks = c.masks := rfl
@[simp] theorem Coach.defer_window (c : Coach) (d : Deferred) : (c.defer d).window = c.window := rfl
@[simp] theorem Coach.defer_segs (c : Coach) (d : Deferred) : (c.defer d).segs = c.segs := rfl
@[simp] theorem Coach.defer_special (c : Coach) (d : Deferred) : (c.defer d).special = c.special := rfl
@[simp] theorem Coach.defer_traps (c : Coach) (d : Deferred) : (c.defer d).traps = c.traps := rfl
@[simp] theorem Coach.defer_issue (c : Coach) (d : Deferred) : (c.defer d).issue = { c.issue with deferred := c.issue.deferred ++ [d] } :=
  rfl
@[simp] theorem Coach.defer_wbuf (c : Coach) (d : Deferred) : (c.defer d).wbuf = c.wbuf := rfl
@[simp] theorem Coach.defer_snap (c : Coach) (d : Deferred) : (c.defer d).snap = c.snap := rfl
@[simp] theorem Coach.defer_sets (c : Coach) (d : Deferred) : (c.defer d).sets = c.sets := rfl
@[simp] theorem Coach.defer_tickets (c : Coach) (d : Deferred) : (c.defer d).tickets = c.tickets := rfl
@[simp] theorem Coach.defer_tcount (c : Coach) (d : Deferred) : (c.defer d).tcount = c.tcount := rfl
@[simp] theorem Coach.defer_pendb (c : Coach) (d : Deferred) : (c.defer d).pendb = c.pendb := rfl
@[simp] theorem Coach.defer_pdone (c : Coach) (d : Deferred) : (c.defer d).pdone = c.pdone := rfl
@[simp] theorem Coach.defer_preempt (c : Coach) (d : Deferred) : (c.defer d).preempt = c.preempt := rfl

/-! ### flag -/

@[simp] theorem Coach.flag_ident (c : Coach) (f : BitVec 5) : (c.flag f).ident = c.ident := rfl
@[simp] theorem Coach.flag_regs (c : Coach) (f : BitVec 5) : (c.flag f).regs = c.regs := rfl
@[simp] theorem Coach.flag_masks (c : Coach) (f : BitVec 5) : (c.flag f).masks = c.masks := rfl
@[simp] theorem Coach.flag_window (c : Coach) (f : BitVec 5) : (c.flag f).window = c.window := rfl
@[simp] theorem Coach.flag_segs (c : Coach) (f : BitVec 5) : (c.flag f).segs = c.segs := rfl
@[simp] theorem Coach.flag_special (c : Coach) (f : BitVec 5) : (c.flag f).special = { c.special with fflags := c.special.fflags ||| f } :=
  rfl
@[simp] theorem Coach.flag_traps (c : Coach) (f : BitVec 5) : (c.flag f).traps = c.traps := rfl
@[simp] theorem Coach.flag_issue (c : Coach) (f : BitVec 5) : (c.flag f).issue = c.issue := rfl
@[simp] theorem Coach.flag_wbuf (c : Coach) (f : BitVec 5) : (c.flag f).wbuf = c.wbuf := rfl
@[simp] theorem Coach.flag_snap (c : Coach) (f : BitVec 5) : (c.flag f).snap = c.snap := rfl
@[simp] theorem Coach.flag_sets (c : Coach) (f : BitVec 5) : (c.flag f).sets = c.sets := rfl
@[simp] theorem Coach.flag_tickets (c : Coach) (f : BitVec 5) : (c.flag f).tickets = c.tickets := rfl
@[simp] theorem Coach.flag_tcount (c : Coach) (f : BitVec 5) : (c.flag f).tcount = c.tcount := rfl
@[simp] theorem Coach.flag_pendb (c : Coach) (f : BitVec 5) : (c.flag f).pendb = c.pendb := rfl
@[simp] theorem Coach.flag_pdone (c : Coach) (f : BitVec 5) : (c.flag f).pdone = c.pdone := rfl
@[simp] theorem Coach.flag_preempt (c : Coach) (f : BitVec 5) : (c.flag f).preempt = c.preempt := rfl

/-! ### endRun -/

@[simp] theorem Coach.endRun_ident (c : Coach) (w : Wait) : (c.endRun w).ident = c.ident := rfl
@[simp] theorem Coach.endRun_regs (c : Coach) (w : Wait) : (c.endRun w).regs = c.regs := rfl
@[simp] theorem Coach.endRun_masks (c : Coach) (w : Wait) : (c.endRun w).masks = c.masks := rfl
@[simp] theorem Coach.endRun_window (c : Coach) (w : Wait) : (c.endRun w).window = c.window := rfl
@[simp] theorem Coach.endRun_segs (c : Coach) (w : Wait) : (c.endRun w).segs = c.segs := rfl
@[simp] theorem Coach.endRun_special (c : Coach) (w : Wait) : (c.endRun w).special = c.special := rfl
@[simp] theorem Coach.endRun_traps (c : Coach) (w : Wait) : (c.endRun w).traps = c.traps := rfl
@[simp] theorem Coach.endRun_issue (c : Coach) (w : Wait) : (c.endRun w).issue = { c.issue with ends := true, wait := w } :=
  rfl
@[simp] theorem Coach.endRun_wbuf (c : Coach) (w : Wait) : (c.endRun w).wbuf = c.wbuf := rfl
@[simp] theorem Coach.endRun_snap (c : Coach) (w : Wait) : (c.endRun w).snap = c.snap := rfl
@[simp] theorem Coach.endRun_sets (c : Coach) (w : Wait) : (c.endRun w).sets = c.sets := rfl
@[simp] theorem Coach.endRun_tickets (c : Coach) (w : Wait) : (c.endRun w).tickets = c.tickets := rfl
@[simp] theorem Coach.endRun_tcount (c : Coach) (w : Wait) : (c.endRun w).tcount = c.tcount := rfl
@[simp] theorem Coach.endRun_pendb (c : Coach) (w : Wait) : (c.endRun w).pendb = c.pendb := rfl
@[simp] theorem Coach.endRun_pdone (c : Coach) (w : Wait) : (c.endRun w).pdone = c.pdone := rfl
@[simp] theorem Coach.endRun_preempt (c : Coach) (w : Wait) : (c.endRun w).preempt = c.preempt := rfl

/-! ### jump -/

@[simp] theorem Coach.jump_ident (c : Coach) (t : Int) : (c.jump t).ident = c.ident := rfl
@[simp] theorem Coach.jump_regs (c : Coach) (t : Int) : (c.jump t).regs = c.regs := rfl
@[simp] theorem Coach.jump_masks (c : Coach) (t : Int) : (c.jump t).masks = c.masks := rfl
@[simp] theorem Coach.jump_window (c : Coach) (t : Int) : (c.jump t).window = c.window := rfl
@[simp] theorem Coach.jump_segs (c : Coach) (t : Int) : (c.jump t).segs = c.segs := rfl
@[simp] theorem Coach.jump_special (c : Coach) (t : Int) : (c.jump t).special = c.special := rfl
@[simp] theorem Coach.jump_traps (c : Coach) (t : Int) : (c.jump t).traps = c.traps := rfl
@[simp] theorem Coach.jump_issue (c : Coach) (t : Int) : (c.jump t).issue = { c.issue with next := t } := rfl
@[simp] theorem Coach.jump_wbuf (c : Coach) (t : Int) : (c.jump t).wbuf = c.wbuf := rfl
@[simp] theorem Coach.jump_snap (c : Coach) (t : Int) : (c.jump t).snap = c.snap := rfl
@[simp] theorem Coach.jump_sets (c : Coach) (t : Int) : (c.jump t).sets = c.sets := rfl
@[simp] theorem Coach.jump_tickets (c : Coach) (t : Int) : (c.jump t).tickets = c.tickets := rfl
@[simp] theorem Coach.jump_tcount (c : Coach) (t : Int) : (c.jump t).tcount = c.tcount := rfl
@[simp] theorem Coach.jump_pendb (c : Coach) (t : Int) : (c.jump t).pendb = c.pendb := rfl
@[simp] theorem Coach.jump_pdone (c : Coach) (t : Int) : (c.jump t).pdone = c.pdone := rfl
@[simp] theorem Coach.jump_preempt (c : Coach) (t : Int) : (c.jump t).preempt = c.preempt := rfl

/-! ### raise -/

@[simp] theorem Coach.raise_ident (c : Coach) (l : List (Nat × Cause)) : (c.raise l).ident = c.ident := rfl
@[simp] theorem Coach.raise_regs (c : Coach) (l : List (Nat × Cause)) : (c.raise l).regs = c.regs := rfl
@[simp] theorem Coach.raise_masks (c : Coach) (l : List (Nat × Cause)) : (c.raise l).masks = c.masks := rfl
@[simp] theorem Coach.raise_window (c : Coach) (l : List (Nat × Cause)) : (c.raise l).window = c.window := rfl
@[simp] theorem Coach.raise_segs (c : Coach) (l : List (Nat × Cause)) : (c.raise l).segs = c.segs := rfl
@[simp] theorem Coach.raise_special (c : Coach) (l : List (Nat × Cause)) : (c.raise l).special = c.special := rfl
@[simp] theorem Coach.raise_traps (c : Coach) (l : List (Nat × Cause)) : (c.raise l).traps = c.traps := rfl
@[simp] theorem Coach.raise_wbuf (c : Coach) (l : List (Nat × Cause)) : (c.raise l).wbuf = c.wbuf := rfl
@[simp] theorem Coach.raise_snap (c : Coach) (l : List (Nat × Cause)) : (c.raise l).snap = c.snap := rfl
@[simp] theorem Coach.raise_sets (c : Coach) (l : List (Nat × Cause)) : (c.raise l).sets = c.sets := rfl
@[simp] theorem Coach.raise_tickets (c : Coach) (l : List (Nat × Cause)) : (c.raise l).tickets = c.tickets := rfl
@[simp] theorem Coach.raise_tcount (c : Coach) (l : List (Nat × Cause)) : (c.raise l).tcount = c.tcount := rfl
@[simp] theorem Coach.raise_pendb (c : Coach) (l : List (Nat × Cause)) : (c.raise l).pendb = c.pendb := rfl
@[simp] theorem Coach.raise_pdone (c : Coach) (l : List (Nat × Cause)) : (c.raise l).pdone = c.pdone := rfl
@[simp] theorem Coach.raise_preempt (c : Coach) (l : List (Nat × Cause)) : (c.raise l).preempt = c.preempt := rfl

/-! ### raiseMask -/

@[simp] theorem Coach.raiseMask_ident (c : Coach) (m : LaneMask) (k : Cause) : (c.raiseMask m k).ident = c.ident := by
  unfold Coach.raiseMask; split <;> rfl
@[simp] theorem Coach.raiseMask_regs (c : Coach) (m : LaneMask) (k : Cause) : (c.raiseMask m k).regs = c.regs := by
  unfold Coach.raiseMask; split <;> rfl
@[simp] theorem Coach.raiseMask_masks (c : Coach) (m : LaneMask) (k : Cause) : (c.raiseMask m k).masks = c.masks := by
  unfold Coach.raiseMask; split <;> rfl
@[simp] theorem Coach.raiseMask_window (c : Coach) (m : LaneMask) (k : Cause) : (c.raiseMask m k).window = c.window := by
  unfold Coach.raiseMask; split <;> rfl
@[simp] theorem Coach.raiseMask_segs (c : Coach) (m : LaneMask) (k : Cause) : (c.raiseMask m k).segs = c.segs := by
  unfold Coach.raiseMask; split <;> rfl
@[simp] theorem Coach.raiseMask_special (c : Coach) (m : LaneMask) (k : Cause) : (c.raiseMask m k).special = c.special := by
  unfold Coach.raiseMask; split <;> rfl
@[simp] theorem Coach.raiseMask_traps (c : Coach) (m : LaneMask) (k : Cause) : (c.raiseMask m k).traps = c.traps := by
  unfold Coach.raiseMask; split <;> rfl
@[simp] theorem Coach.raiseMask_wbuf (c : Coach) (m : LaneMask) (k : Cause) : (c.raiseMask m k).wbuf = c.wbuf := by
  unfold Coach.raiseMask; split <;> rfl
@[simp] theorem Coach.raiseMask_snap (c : Coach) (m : LaneMask) (k : Cause) : (c.raiseMask m k).snap = c.snap := by
  unfold Coach.raiseMask; split <;> rfl
@[simp] theorem Coach.raiseMask_sets (c : Coach) (m : LaneMask) (k : Cause) : (c.raiseMask m k).sets = c.sets := by
  unfold Coach.raiseMask; split <;> rfl
@[simp] theorem Coach.raiseMask_tickets (c : Coach) (m : LaneMask) (k : Cause) : (c.raiseMask m k).tickets = c.tickets := by
  unfold Coach.raiseMask; split <;> rfl
@[simp] theorem Coach.raiseMask_tcount (c : Coach) (m : LaneMask) (k : Cause) : (c.raiseMask m k).tcount = c.tcount := by
  unfold Coach.raiseMask; split <;> rfl
@[simp] theorem Coach.raiseMask_pendb (c : Coach) (m : LaneMask) (k : Cause) : (c.raiseMask m k).pendb = c.pendb := by
  unfold Coach.raiseMask; split <;> rfl
@[simp] theorem Coach.raiseMask_pdone (c : Coach) (m : LaneMask) (k : Cause) : (c.raiseMask m k).pdone = c.pdone := by
  unfold Coach.raiseMask; split <;> rfl
@[simp] theorem Coach.raiseMask_preempt (c : Coach) (m : LaneMask) (k : Cause) : (c.raiseMask m k).preempt = c.preempt := by
  unfold Coach.raiseMask; split <;> rfl

/-! ### toSave -/

@[simp] theorem Coach.toSave_ident (c : Coach) : c.toSave.ident = c.ident := by unfold Coach.toSave; split <;> rfl
@[simp] theorem Coach.toSave_regs (c : Coach) : c.toSave.regs = c.regs := by unfold Coach.toSave; split <;> rfl
@[simp] theorem Coach.toSave_masks (c : Coach) : c.toSave.masks = c.masks := by unfold Coach.toSave; split <;> rfl
@[simp] theorem Coach.toSave_window (c : Coach) : c.toSave.window = c.window := by unfold Coach.toSave; split <;> rfl
@[simp] theorem Coach.toSave_segs (c : Coach) : c.toSave.segs = c.segs := by unfold Coach.toSave; split <;> rfl
@[simp] theorem Coach.toSave_special (c : Coach) : c.toSave.special = c.special := by unfold Coach.toSave; split <;> rfl
@[simp] theorem Coach.toSave_traps (c : Coach) : c.toSave.traps = c.traps := by unfold Coach.toSave; split <;> rfl
@[simp] theorem Coach.toSave_issue (c : Coach) : c.toSave.issue = c.issue := by unfold Coach.toSave; split <;> rfl
@[simp] theorem Coach.toSave_wbuf (c : Coach) : c.toSave.wbuf = c.wbuf := by unfold Coach.toSave; split <;> rfl
@[simp] theorem Coach.toSave_snap (c : Coach) : c.toSave.snap = c.snap := by unfold Coach.toSave; split <;> rfl
@[simp] theorem Coach.toSave_sets (c : Coach) : c.toSave.sets = c.sets := by unfold Coach.toSave; split <;> rfl
@[simp] theorem Coach.toSave_tickets (c : Coach) : c.toSave.tickets = c.tickets := by unfold Coach.toSave; split <;> rfl
@[simp] theorem Coach.toSave_tcount (c : Coach) : c.toSave.tcount = c.tcount := by unfold Coach.toSave; split <;> rfl
@[simp] theorem Coach.toSave_pendb (c : Coach) : c.toSave.pendb = c.pendb := by unfold Coach.toSave; split <;> rfl
@[simp] theorem Coach.toSave_pdone (c : Coach) : c.toSave.pdone = c.pdone := by unfold Coach.toSave; split <;> rfl
@[simp] theorem Coach.toSave_pending (c : Coach) : c.toSave.preempt.pending = c.preempt.pending := by
  unfold Coach.toSave; split <;> rfl

/-- A coach that no request pends on is as it was. -/
theorem Coach.toSave_of_not_pending (c : Coach) (h : c.preempt.pending = false) : c.toSave = c := by
  unfold Coach.toSave; simp [h]

/-! ### takeCode -/

@[simp] theorem Core.takeCode_warm (k : Core) (l : List (Nat × Nat × Word × Nat)) : (k.takeCode l).warm = true := rfl
@[simp] theorem Core.takeCode_icache (k : Core) (l : List (Nat × Nat × Word × Nat)) :
    (k.takeCode l).icache = (l ++ k.icache).take icacheWords := rfl

/-- A core that is not warm fetches nothing ahead. -/
theorem State.prefetched_of_cold (s : State) (n : Nat) (k : Core) (h : k.warm = false) : s.prefetched n k = k := by
  simp [State.prefetched, h]

/-! ### dropQueues, keepArea, poisonAll -/

@[simp] theorem State.dropQueues_co (s : State) (f : Queue → Bool) : (s.dropQueues f).co = s.co := rfl
@[simp] theorem State.dropQueues_coaches (s : State) (f : Queue → Bool) : (s.dropQueues f).coaches = s.coaches := rfl
@[simp] theorem State.dropQueues_cores (s : State) (f : Queue → Bool) : (s.dropQueues f).cores = s.cores := rfl
@[simp] theorem State.dropQueues_quads (s : State) (f : Queue → Bool) : (s.dropQueues f).quads = s.quads := rfl
@[simp] theorem State.dropQueues_vfs (s : State) (f : Queue → Bool) : (s.dropQueues f).vfs = s.vfs := rfl
@[simp] theorem State.dropQueues_rakes (s : State) (f : Queue → Bool) : (s.dropQueues f).rakes = s.rakes := rfl
@[simp] theorem State.dropQueues_views (s : State) (f : Queue → Bool) : (s.dropQueues f).views = s.views := rfl
@[simp] theorem State.dropQueues_commands (s : State) (f : Queue → Bool) : (s.dropQueues f).commands = s.commands := rfl
@[simp] theorem State.dropQueues_migrations (s : State) (f : Queue → Bool) : (s.dropQueues f).migrations = s.migrations := rfl
@[simp] theorem State.dropQueues_mem (s : State) (f : Queue → Bool) : (s.dropQueues f).mem = s.mem := rfl
@[simp] theorem State.dropQueues_corePts (s : State) (f : Queue → Bool) : (s.dropQueues f).corePts = s.corePts := rfl
@[simp] theorem State.dropQueues_hostCopies (s : State) (f : Queue → Bool) : (s.dropQueues f).hostCopies = s.hostCopies := rfl
@[simp] theorem State.dropQueues_tlb (s : State) (f : Queue → Bool) : (s.dropQueues f).tlb = s.tlb := rfl
@[simp] theorem State.dropQueues_dev (s : State) (f : Queue → Bool) : (s.dropQueues f).dev = s.dev := rfl
@[simp] theorem State.dropQueues_schedule (s : State) (f : Queue → Bool) : (s.dropQueues f).schedule = s.schedule := rfl
@[simp] theorem State.dropQueues_fresh (s : State) (f : Queue → Bool) : (s.dropQueues f).fresh = s.fresh := rfl
@[simp] theorem State.dropQueues_nextId (s : State) (f : Queue → Bool) : (s.dropQueues f).nextId = s.nextId := rfl
@[simp] theorem State.dropQueues_queues (s : State) (f : Queue → Bool) : (s.dropQueues f).queues = s.queues.filter fun q => !f q := rfl
@[simp] theorem State.keepArea_co (s : State) (haul rake : Nat) : (s.keepArea haul rake).co = s.co := rfl
@[simp] theorem State.keepArea_coaches (s : State) (haul rake : Nat) : (s.keepArea haul rake).coaches = s.coaches := rfl
@[simp] theorem State.keepArea_cores (s : State) (haul rake : Nat) : (s.keepArea haul rake).cores = s.cores := rfl
@[simp] theorem State.keepArea_quads (s : State) (haul rake : Nat) : (s.keepArea haul rake).quads = s.quads := rfl
@[simp] theorem State.keepArea_vfs (s : State) (haul rake : Nat) : (s.keepArea haul rake).vfs = s.vfs := rfl
@[simp] theorem State.keepArea_hauls (s : State) (haul rake : Nat) : (s.keepArea haul rake).hauls = s.hauls := rfl
@[simp] theorem State.keepArea_rakes (s : State) (haul rake : Nat) : (s.keepArea haul rake).rakes = s.rakes := rfl
@[simp] theorem State.keepArea_views (s : State) (haul rake : Nat) : (s.keepArea haul rake).views = s.views := rfl
@[simp] theorem State.keepArea_queues (s : State) (haul rake : Nat) : (s.keepArea haul rake).queues = s.queues := rfl
@[simp] theorem State.keepArea_commands (s : State) (haul rake : Nat) : (s.keepArea haul rake).commands = s.commands := rfl
@[simp] theorem State.keepArea_migrations (s : State) (haul rake : Nat) : (s.keepArea haul rake).migrations = s.migrations := rfl
@[simp] theorem State.keepArea_mem (s : State) (haul rake : Nat) : (s.keepArea haul rake).mem = s.mem := rfl
@[simp] theorem State.keepArea_corePts (s : State) (haul rake : Nat) : (s.keepArea haul rake).corePts = s.corePts := rfl
@[simp] theorem State.keepArea_hostCopies (s : State) (haul rake : Nat) : (s.keepArea haul rake).hostCopies = s.hostCopies := rfl
@[simp] theorem State.keepArea_tlb (s : State) (haul rake : Nat) : (s.keepArea haul rake).tlb = s.tlb := rfl
@[simp] theorem State.keepArea_schedule (s : State) (haul rake : Nat) : (s.keepArea haul rake).schedule = s.schedule := rfl
@[simp] theorem State.keepArea_fresh (s : State) (haul rake : Nat) : (s.keepArea haul rake).fresh = s.fresh := rfl
@[simp] theorem State.keepArea_nextId (s : State) (haul rake : Nat) : (s.keepArea haul rake).nextId = s.nextId := rfl
@[simp] theorem State.poisonAll_co (s : State) (gs : List Nat) : (s.poisonAll gs).co = s.co := rfl
@[simp] theorem State.poisonAll_coaches (s : State) (gs : List Nat) : (s.poisonAll gs).coaches = s.coaches := rfl
@[simp] theorem State.poisonAll_cores (s : State) (gs : List Nat) : (s.poisonAll gs).cores = s.cores := rfl
@[simp] theorem State.poisonAll_quads (s : State) (gs : List Nat) : (s.poisonAll gs).quads = s.quads := rfl
@[simp] theorem State.poisonAll_vfs (s : State) (gs : List Nat) : (s.poisonAll gs).vfs = s.vfs := rfl
@[simp] theorem State.poisonAll_hauls (s : State) (gs : List Nat) : (s.poisonAll gs).hauls = s.hauls := rfl
@[simp] theorem State.poisonAll_rakes (s : State) (gs : List Nat) : (s.poisonAll gs).rakes = s.rakes := rfl
@[simp] theorem State.poisonAll_views (s : State) (gs : List Nat) : (s.poisonAll gs).views = s.views := rfl
@[simp] theorem State.poisonAll_queues (s : State) (gs : List Nat) : (s.poisonAll gs).queues = s.queues := rfl
@[simp] theorem State.poisonAll_commands (s : State) (gs : List Nat) : (s.poisonAll gs).commands = s.commands := rfl
@[simp] theorem State.poisonAll_migrations (s : State) (gs : List Nat) : (s.poisonAll gs).migrations = s.migrations := rfl
@[simp] theorem State.poisonAll_mem (s : State) (gs : List Nat) : (s.poisonAll gs).mem = s.mem := rfl
@[simp] theorem State.poisonAll_corePts (s : State) (gs : List Nat) : (s.poisonAll gs).corePts = s.corePts := rfl
@[simp] theorem State.poisonAll_hostCopies (s : State) (gs : List Nat) : (s.poisonAll gs).hostCopies = s.hostCopies := rfl
@[simp] theorem State.poisonAll_tlb (s : State) (gs : List Nat) : (s.poisonAll gs).tlb = s.tlb := rfl
@[simp] theorem State.poisonAll_schedule (s : State) (gs : List Nat) : (s.poisonAll gs).schedule = s.schedule := rfl
@[simp] theorem State.poisonAll_fresh (s : State) (gs : List Nat) : (s.poisonAll gs).fresh = s.fresh := rfl
@[simp] theorem State.poisonAll_nextId (s : State) (gs : List Nat) : (s.poisonAll gs).nextId = s.nextId := rfl

/-- The granules poisoned before and those added are poisoned, and no other. -/
theorem State.mem_poisonAll (s : State) (gs : List Nat) (g : Nat) :
    g ∈ (s.poisonAll gs).dev.poison ↔ g ∈ s.dev.poison ∨ g ∈ gs := by
  by_cases h : g ∈ s.dev.poison <;> simp [State.poisonAll, h]

/-! ### readsAhead -/

/-- Reading ahead adds to what a request has read of its scene, and changes nothing else of it. -/
theorem State.readsAhead_spec (s : State) (v : ViewReq) : ∃ l, s.readsAhead v = { v with seen := v.seen ++ l } := by
  unfold State.readsAhead
  split
  · exact ⟨[], by simp⟩
  · exact ⟨_, rfl⟩
@[simp] theorem State.readsAhead_id (s : State) (v : ViewReq) : (s.readsAhead v).id = v.id := by
  unfold State.readsAhead; split <;> rfl

end Sys2Proof.Machine
end

