-- ==== Sys2Proof/Laws/Effects.lean ====
section
/-! SUPPORT. What each shared operation on registers, results and causes does, in the relations of Safety.lean. -/

namespace Sys2Proof.Machine

/-! ### Flags gathered over lanes -/

theorem getLsbD_foldl_or (l : List Nat) (f : Nat → BitVec 5) (x : BitVec 5) (b : Nat) :
    (l.foldl (fun a i => a ||| f i) x).getLsbD b = (x.getLsbD b || l.any fun i => (f i).getLsbD b) := by
  induction l generalizing x with
  | nil => simp
  | cons i t ih => simp [ih, Bool.or_assoc]

/-! ### Lane results -/

theorem WritesVec.congr {s r : State} {d : BitVec 6} {f g : Nat → Word} (h : WritesVec s r d f)
    (e : ∀ l, l < 32 → f l = g l) : WritesVec s r d g :=
  ⟨h.1, fun q l hq hl => by rw [h.2 q l hq hl, e l hl]⟩

theorem WritesVecF.congr {s r : State} {d : BitVec 6} {f g : Nat → Word × BitVec 5} (h : WritesVecF s r d f)
    (e : ∀ l, l < 32 → f l = g l) : WritesVecF s r d g := by
  refine ⟨h.1, fun q l hq hl => by rw [h.2.1 q l hq hl, e l hl], fun b => ?_⟩
  rw [h.2.2 b]
  have hl : ∀ l ∈ lanesOf s.co.active, f l = g l := fun l hl => e l (BitVec.lt_of_getLsbD ((mem_lanesOf _ _).mp hl))
  rw [Bool.eq_iff_iff]
  simp only [Bool.or_eq_true, List.any_eq_true]
  constructor
  · rintro (h | ⟨l, hm, h⟩)
    exacts [.inl h, .inr ⟨l, hm, hl l hm ▸ h⟩]
  · rintro (h | ⟨l, hm, h⟩)
    exacts [.inl h, .inr ⟨l, hm, (hl l hm).symm ▸ h⟩]

theorem Coach.phys_mod (c : Coach) (i p q : Nat) (hq : q < 256) (hp : p = c.phys i) :
    q % 256 = p % 256 ↔ q = c.phys i % 256 := by rw [Nat.mod_eq_of_lt hq, hp]

theorem State.lane_spec (s : State) (d : BitVec 6) (f : Coach → Nat → Word) : WritesVec s (s.lane d f) d (f s.co) := by
  refine ⟨rfl, fun q l hq hl => ?_⟩
  simp only [State.lane, State.modCo_co, Coach.setVec, Coach.setPhys_reg _ _ _ _ _ _ hl, Nat.mod_eq_of_lt hq,
    vget_laneVec _ _ hl]

theorem State.laneF_spec (s : State) (d : BitVec 6) (f : Coach → Nat → Word × BitVec 5) :
    WritesVecF s (s.laneF d f) d (f s.co) := by
  refine ⟨rfl, fun q l hq hl => ?_, fun b => ?_⟩
  · simp only [State.laneF, State.modCo_co, Coach.flag_regs, Coach.setVec, Coach.setPhys_reg _ _ _ _ _ _ hl,
      Nat.mod_eq_of_lt hq, vget_laneVec _ _ hl]
  · simp only [State.laneF, State.modCo_co, Coach.flag_special, Coach.setVec_special, BitVec.getLsbD_or, getLsbD_foldl_or]
    simp

theorem State.laneD_spec (s : State) (d : BitVec 6) (f : Coach → Nat → Word × BitVec 5) :
    Defers s (s.laneD d f) [.vreg (s.co.phys d.toNat) s.co.active (laneVec fun l => (f s.co l).1)
      ((lanesOf s.co.active).foldl (fun a l => a ||| (f s.co l).2) 0)] := rfl

theorem WritesK.of_setK (s : State) (d : BitVec 5) (x : LaneMask) :
    WritesK s { s with co := s.co.setK d s.co.active x } d x := by
  refine ⟨?_, fun j l => ?_⟩
  · simp only [Coach.setK]; split <;> rfl
  · simp only [Coach.kreg_setK]
    by_cases h : j = d ∧ d ≠ 0
    · obtain ⟨rfl, h0⟩ := h
      simp only [h0, ne_eq, not_false_eq_true, and_self, if_true, BitVec.getLsbD_or, BitVec.getLsbD_and, true_and]
      by_cases hl : l < 32
      · simp only [BitVec.getLsbD_not, hl, decide_true, Bool.true_and]
        cases s.co.active.getLsbD l <;> cases x.getLsbD l <;> cases (s.co.kreg j).getLsbD l <;> rfl
      · simp [BitVec.getLsbD_of_ge _ _ (Nat.le_of_not_lt hl)]
    · have h' : ¬ (j = d ∧ d ≠ 0 ∧ s.co.active.getLsbD l = true) := fun e => h ⟨e.1, e.2.1⟩
      simp only [h, if_false, h']

theorem State.lanePred_spec (s : State) (d : BitVec 5) (f : Coach → Nat → Bool) :
    WritesK s (s.lanePred d f) d (laneMask (f s.co)) := by
  unfold State.lanePred State.modCo
  exact WritesK.of_setK s d _

theorem State.lanePredF_spec (s : State) (d : BitVec 5) (f : Coach → Nat → Bool × BitVec 5) :
    WritesKF s (s.lanePredF d f) d (laneMask fun l => (f s.co l).1) fun l => (f s.co l).2 := by
  obtain ⟨h1, h2⟩ := WritesK.of_setK s d (laneMask fun l => (f s.co l).1)
  refine ⟨?_, ?_, fun b => ?_⟩
  · simp only [State.lanePredF, State.modCo, Coach.flag, Coach.setK]; split <;> rfl
  · intro j l; exact h2 j l
  · simp only [State.lanePredF, State.modCo_co, Coach.flag_special, Coach.setK_special, BitVec.getLsbD_or, getLsbD_foldl_or]
    simp

/-! ### Group results -/

theorem State.group_spec (s : State) (d : BitVec 6) (f : Coach → Dword) : WritesG s (s.group d f) d (f s.co) := by
  refine ⟨?_, fun j => ?_⟩
  · simp only [State.group, State.modCo, Coach.setG]; split <;> rfl
  · simp only [State.group, State.modCo_co, Coach.greg_setG]

theorem State.groupD_spec (s : State) (d : BitVec 6) (f : Coach → Dword) :
    Defers s (s.groupD d f) [.greg d (f s.co)] := rfl

theorem State.groupPred_spec (s : State) (d : BitVec 4) (f : Coach → Bool) :
    WritesGk s (s.groupPred d f) d (f s.co) := by
  refine ⟨?_, fun j => ?_⟩
  · simp only [State.groupPred, State.modCo, Coach.setGk]; split <;> rfl
  · simp only [State.groupPred, State.modCo_co, Coach.gkreg_setGk]

/-! ### Causes -/

theorem causeOf_foldl (l : List (Nat × Cause)) (ts : List (Nat × Cause)) (n : Nat) :
    ((l.foldl (fun ts p => if ts.any (fun q => q.1 == p.1) then ts else ts ++ [p]) ts).find? fun p => p.1 == n).map (·.2) =
      ((ts.find? fun p => p.1 == n).map (·.2)).or ((l.find? fun p => p.1 == n).map (·.2)) := by
  induction l generalizing ts with
  | nil => simp
  | cons p t ih =>
    simp only [List.foldl_cons, ih, List.find?_cons]
    by_cases hn : p.1 = n
    · simp only [hn, beq_self_eq_true, Option.map_some]
      by_cases ha : (ts.any fun q => q.1 == n) = true
      · simp only [ha, if_true]
        obtain ⟨q, hq, he⟩ := List.any_eq_true.mp ha
        have : (ts.find? fun p => p.1 == n).isSome = true := List.find?_isSome.mpr ⟨q, hq, he⟩
        obtain ⟨v, hv⟩ := Option.isSome_iff_exists.mp this
        simp [hv]
      · have hnone : (ts.find? fun p => p.1 == n) = none := by
          rw [List.find?_eq_none]; intro q hq he
          exact ha (List.any_eq_true.mpr ⟨q, hq, he⟩)
        simp [ha, hnone, List.find?_append, hn]
    · have hb : (p.1 == n) = false := beq_eq_false_iff_ne.mpr hn
      simp only [hb]
      split
      · rfl
      · simp [List.find?_append, hb]

theorem Coach.causeOf_raise (c : Coach) (l : List (Nat × Cause)) (n : Nat) :
    (c.raise l).causeOf n = (c.causeOf n).or ((l.find? fun p => p.1 == n).map (·.2)) :=
  causeOf_foldl l c.issue.traps n

theorem find_lanes (m : LaneMask) (k : Cause) (n : Nat) :
    (((lanesOf m).map fun l => (l, k)).find? fun p => p.1 == n).map (·.2) = if m.getLsbD n then some k else none := by
  rw [List.find?_map]
  by_cases h : m.getLsbD n = true
  · have : ((lanesOf m).find? ((fun p => p.1 == n) ∘ fun l => (l, k))) = some n := by
      have hs : ((lanesOf m).find? ((fun p : Nat × Cause => p.1 == n) ∘ fun l => (l, k))).isSome = true :=
        List.find?_isSome.mpr ⟨n, (mem_lanesOf m n).mpr h, by simp⟩
      obtain ⟨v, hv⟩ := Option.isSome_iff_exists.mp hs
      have := List.find?_some hv
      simp at this
      rw [hv, this]
    simp only [Function.comp_def] at this
    simp only [Function.comp_def, this, h, Option.map_some, if_true]
  · have : ((lanesOf m).find? ((fun p : Nat × Cause => p.1 == n) ∘ fun l => (l, k))) = none := by
      rw [List.find?_eq_none]; intro q hq he
      simp at he; subst he; exact h ((mem_lanesOf m q).mp hq)
    simp only [Function.comp_def] at this
    simp only [Function.comp_def, this, h, Option.map_none]
    simp

theorem Records.of_raiseMask (s : State) (m : LaneMask) (k : Cause) :
    Records s { s with co := s.co.raiseMask m k } m k := by
  by_cases hm : m = 0
  · subst hm
    refine ⟨rfl, fun l => ?_, by simp [Coach.raiseMask]⟩
    simp [Coach.raiseMask, Coach.causeOf]
  · have e : s.co.raiseMask m k = s.co.raise ((lanesOf m).map fun l => (l, k)) := if_neg hm
    rw [e]
    refine ⟨rfl, fun l => ?_, ?_⟩
    · simp only [Coach.causeOf_raise, find_lanes]
    · rw [if_neg hm]; rfl

theorem State.trapAll_spec (s : State) (k : Cause) : Records s (s.trapAll k) s.co.masks.exm k := Records.of_raiseMask s _ k

theorem State.trapPlane_spec (s : State) (k : Cause) : Records s (s.trapPlane k) s.co.planeLanes k :=
  Records.of_raiseMask s _ k

theorem State.trapOcc_spec (s : State) (k : Cause) : Records s (s.trapOcc k) s.co.occLanes k := Records.of_raiseMask s _ k

/-! ### Chains of lane steps -/

theorem Chain.of_foldl (f : State → Nat → State) (P : State → Nat → State → Prop) (h : ∀ s l, P s l (f s l))
    (l : List Nat) (s : State) : Chain P l s (l.foldl f s) := by
  induction l generalizing s with
  | nil => rfl
  | cons i t ih => exact ⟨f s i, h s i, ih _⟩

end Sys2Proof.Machine
end

