-- ==== Sys2Proof/Laws/Memory.lean ====
section
/-! SUPPORT. Memory: reading after writing, and every memory operation keeps the canonical form. -/

namespace Sys2Proof.Machine

/-- Whether every entry of a list lies above an address. -/
def Memory.above (a : Nat) (m : List Host.Cell) : Prop := ∀ c ∈ m, a < c.1

theorem Memory.wf_cons (k : Nat) (b : Byte) (t : List Host.Cell) :
    Memory.wf ((k, b) :: t) = true ↔ b ≠ 0 ∧ Memory.above k t ∧ Memory.wf t = true := by
  induction t generalizing k b with
  | nil => simp [Memory.wf, Memory.above]
  | cons c t ih =>
    obtain ⟨k', b'⟩ := c
    rw [Memory.wf, Bool.and_eq_true, Bool.and_eq_true, decide_eq_true_iff, decide_eq_true_iff]
    constructor
    · rintro ⟨⟨hb, hk⟩, hw⟩
      refine ⟨hb, ?_, hw⟩
      intro c hc
      rcases List.mem_cons.mp hc with rfl | hc
      · exact hk
      · exact lt_trans hk (((ih k' b').mp hw).2.1 c hc)
    · rintro ⟨hb, ha, hw⟩
      exact ⟨⟨hb, ha _ List.mem_cons_self⟩, hw⟩

theorem Memory.above_put {a k : Nat} {x : Byte} {m : List Host.Cell} (h : Memory.above a m) (hk : a < k) :
    Memory.above a (Memory.put m k x) := by
  induction m with
  | nil => simp only [Memory.put]; split <;> simp_all [Memory.above]
  | cons c t ih =>
    obtain ⟨j, b⟩ := c
    have ht : Memory.above a t := fun c hc => h c (List.mem_cons_of_mem _ hc)
    have hj : a < j := h (j, b) List.mem_cons_self
    simp only [Memory.put]
    split
    · split
      · exact ht
      · intro c hc; rcases List.mem_cons.mp hc with rfl | hc; exacts [hk, ht c hc]
    · split
      · split
        · exact h
        · intro c hc; rcases List.mem_cons.mp hc with rfl | hc; exacts [hk, h c hc]
      · intro c hc; rcases List.mem_cons.mp hc with rfl | hc; exacts [hj, ih ht c hc]

theorem Memory.put_wf {m : List Host.Cell} (a : Nat) (x : Byte) (h : Memory.wf m = true) :
    Memory.wf (Memory.put m a x) = true := by
  induction m with
  | nil => simp only [Memory.put]; split <;> simp_all [Memory.wf]
  | cons c t ih =>
    obtain ⟨k, b⟩ := c
    obtain ⟨hb, ha, ht⟩ := (Memory.wf_cons k b t).mp h
    simp only [Memory.put]
    split
    · subst_vars
      split
      · exact ht
      · exact (Memory.wf_cons _ _ _).mpr ⟨‹_›, ha, ht⟩
    · split
      · split
        · exact h
        · refine (Memory.wf_cons _ _ _).mpr ⟨‹_›, ?_, h⟩
          intro c hc
          rcases List.mem_cons.mp hc with rfl | hc
          · assumption
          · exact lt_trans ‹a < k› (ha c hc)
      · exact (Memory.wf_cons _ _ _).mpr ⟨hb, Memory.above_put ha (by omega), ih ht⟩

theorem Memory.putAll_wf {m : List Host.Cell} (a : Nat) (l : List Byte) (h : Memory.wf m = true) :
    Memory.wf (Memory.putAll m a l) = true := by
  induction l generalizing m a with
  | nil => exact h
  | cons b t ih => exact ih _ (Memory.put_wf a b h)

theorem Memory.filter_wf {m : List Host.Cell} (p : Host.Cell → Bool) (h : Memory.wf m = true) :
    Memory.wf (m.filter p) = true := by
  induction m with
  | nil => rfl
  | cons c t ih =>
    obtain ⟨k, b⟩ := c
    obtain ⟨hb, ha, ht⟩ := (Memory.wf_cons k b t).mp h
    simp only [List.filter_cons]
    split
    · exact (Memory.wf_cons _ _ _).mpr ⟨hb, fun c hc => ha c (List.mem_of_mem_filter hc), ih ht⟩
    · exact ih ht

theorem Memory.clear_wf {m : List Host.Cell} (a n : Nat) (h : Memory.wf m = true) : Memory.wf (Memory.clear m a n) = true :=
  Memory.filter_wf _ h

theorem Memory.foldl_put_wf {α : Type} {m : List Host.Cell} (f : α → Nat × Byte) (l : List α) (h : Memory.wf m = true) :
    Memory.wf (l.foldl (fun m p => Memory.put m (f p).1 (f p).2) m) = true := by
  induction l generalizing m with
  | nil => exact h
  | cons p t ih => exact ih (Memory.put_wf _ _ h)

/-! ### Reading after writing -/

theorem Memory.get_of_above {a b : Nat} {m : List Host.Cell} (h : Memory.above a m) (hb : b ≤ a) : Memory.get m b = 0 := by
  cases m with
  | nil => rfl
  | cons c t =>
    obtain ⟨k, x⟩ := c
    have hk : a < k := h (k, x) List.mem_cons_self
    rw [Memory.get, if_neg (by omega), if_pos (by omega)]

theorem Memory.get_put {m : List Host.Cell} (a : Nat) (x : Byte) (b : Nat) (h : Memory.wf m = true) :
    Memory.get (Memory.put m a x) b = if b = a then x else Memory.get m b := by
  induction m with
  | nil =>
    simp only [Memory.put]
    split
    · subst_vars; split <;> rfl
    · by_cases hb : b = a
      · subst hb; simp [Memory.get]
      · simp [Memory.get, hb, Ne.symm hb]
  | cons c t ih =>
    obtain ⟨k, y⟩ := c
    obtain ⟨-, ha, ht⟩ := (Memory.wf_cons k y t).mp h
    simp only [Memory.put]
    split
    · subst_vars
      split
      · subst_vars
        rcases Nat.lt_trichotomy b k with hb | rfl | hb
        · rw [Memory.get_of_above ha (by omega), if_neg (by omega), Memory.get, if_neg (by omega), if_pos hb]
        · rw [Memory.get_of_above ha (Nat.le_refl _), if_pos rfl]
        · rw [if_neg (by omega), Memory.get, if_neg (by omega), if_neg (by omega)]
      · by_cases hb : b = k
        · subst hb; simp [Memory.get]
        · simp [Memory.get, hb, Ne.symm hb]
    · split
      · split
        · subst_vars
          split
          · subst_vars; rw [Memory.get, if_neg (by omega), if_pos (by omega)]
          · rfl
        · rw [Memory.get]
          split
          · subst_vars; rw [if_pos rfl]
          · rw [if_neg (by omega : ¬ b = a)]
            split
            · rw [Memory.get, if_neg (by omega), if_pos (by omega)]
            · rfl
      · rw [Memory.get, ih ht, Memory.get]
        split
        · subst_vars; rw [if_neg (by omega)]
        · split
          · rw [if_neg (by omega)]
          · rfl

theorem Memory.get_putAll {m : List Host.Cell} (a : Nat) (l : List Byte) (b : Nat) (h : Memory.wf m = true) :
    Memory.get (Memory.putAll m a l) b = if a ≤ b ∧ b < a + l.length then (l[b - a]?).getD 0 else Memory.get m b := by
  induction l generalizing m a with
  | nil => simp [Memory.putAll]
  | cons x t ih =>
    rw [Memory.putAll, ih _ (Memory.put_wf a x h), Memory.get_put a x b h]
    by_cases hb : b = a
    · subst hb; simp
    · by_cases h2 : a + 1 ≤ b ∧ b < a + 1 + t.length
      · rw [if_pos h2, if_pos (by simp only [List.length_cons]; omega)]
        have : b - a = (b - (a + 1)) + 1 := by omega
        rw [this, List.getElem?_cons_succ]
      · rw [if_neg h2, if_neg hb, if_neg (by simp only [List.length_cons]; omega)]

theorem Memory.get_clear {m : List Host.Cell} (a n b : Nat) (h : Memory.wf m = true) :
    Memory.get (Memory.clear m a n) b = if a ≤ b ∧ b < a + n then 0 else Memory.get m b := by
  induction m with
  | nil => simp [Memory.clear, Memory.get]
  | cons c t ih =>
    obtain ⟨k, x⟩ := c
    obtain ⟨-, ha, ht⟩ := (Memory.wf_cons k x t).mp h
    have ih := ih ht
    unfold Memory.clear at *
    simp only [List.filter_cons]
    by_cases hk : a ≤ k ∧ k < a + n
    · rw [if_neg (by simp [hk.1, hk.2]), ih]
      rcases Nat.lt_trichotomy b k with hb | rfl | hb
      · rw [Memory.get_of_above ha (by omega), Memory.get, if_neg (by omega : ¬ k = b), if_pos hb]
      · rw [if_pos hk, if_pos hk]
      · rw [Memory.get, if_neg (by omega : ¬ k = b), if_neg (by omega : ¬ b < k)]
    · have hk' : (!(decide (a ≤ k) && decide (k < a + n))) = true := by
        simp only [Bool.not_eq_true', Bool.and_eq_false_iff, decide_eq_false_iff_not]; omega
      rw [if_pos hk', Memory.get, ih, Memory.get]
      split
      · subst_vars; rw [if_neg hk]
      · split
        · split <;> rfl
        · rfl

theorem Memory.getAll_length (m : List Host.Cell) (a n : Nat) : (Memory.getAll m a n).length = n := by
  induction n generalizing a with
  | zero => rfl
  | succ n ih => simp [Memory.getAll, ih]

theorem Memory.getAll_getElem? (m : List Host.Cell) (a n i : Nat) (h : i < n) :
    (Memory.getAll m a n)[i]? = some (Memory.get m (a + i)) := by
  induction n generalizing a i with
  | zero => omega
  | succ n ih =>
    cases i with
    | zero => rfl
    | succ i =>
      rw [Memory.getAll, List.getElem?_cons_succ, ih _ _ (by omega)]
      congr 2; omega

/-! ### The canonical form as an order -/

theorem Memory.wf_iff (m : List Host.Cell) :
    Memory.wf m = true ↔ (∀ c ∈ m, c.2 ≠ 0) ∧ m.Pairwise fun c d => c.1 < d.1 := by
  induction m with
  | nil => simp [Memory.wf]
  | cons c t ih =>
    obtain ⟨k, b⟩ := c
    rw [Memory.wf_cons, ih, List.pairwise_cons, List.forall_mem_cons]
    exact ⟨fun ⟨a, b, c, d⟩ => ⟨⟨a, c⟩, b, d⟩, fun ⟨⟨a, c⟩, b, d⟩ => ⟨a, b, c, d⟩⟩

theorem Memory.exchange_wf {m : List Host.Cell} (a n : Nat) (h : Memory.wf m = true) :
    Memory.wf (Memory.exchange m a n) = true := by
  obtain ⟨hz, ho⟩ := (Memory.wf_iff m).mp h
  refine (Memory.wf_iff _).mpr ⟨?_, ?_⟩
  · intro c hc
    simp only [Memory.exchange, List.mem_append, List.mem_map, List.mem_filter] at hc
    rcases hc with ((⟨hc, -⟩ | ⟨d, ⟨hd, -⟩, rfl⟩) | ⟨d, ⟨hd, -⟩, rfl⟩) | ⟨hc, -⟩
    · exact hz c hc
    · exact hz d hd
    · exact hz d hd
    · exact hz c hc
  · simp only [Memory.exchange, List.pairwise_append, List.pairwise_map, List.mem_append, List.mem_map, List.mem_filter,
      Bool.and_eq_true, decide_eq_true_iff]
    refine ⟨⟨⟨ho.filter _, ?_, ?_⟩, ?_, ?_⟩, ho.filter _, ?_⟩
    · exact ((ho.filter _).imp_of_mem fun hc hd hlt => by
        simp only [List.mem_filter, Bool.and_eq_true, decide_eq_true_iff] at hc hd; omega)
    · rintro c ⟨-, hc⟩ d ⟨e, ⟨-, he⟩, rfl⟩; omega
    · exact (ho.filter _).imp fun hlt => by omega
    · rintro c (⟨-, hc⟩ | ⟨e, ⟨-, he⟩, rfl⟩) d ⟨f, ⟨-, hf⟩, rfl⟩ <;> omega
    · rintro c ((⟨-, hc⟩ | ⟨e, ⟨-, he⟩, rfl⟩) | ⟨e, ⟨-, he⟩, rfl⟩) d ⟨-, hd⟩ <;> omega

/-! ### The state's memory operations keep the form -/

theorem State.swapPlanes_wf {s : State} (core : Nat) (h : Memory.wf s.mem = true) :
    Memory.wf (s.swapPlanes core).mem = true := Memory.exchange_wf _ _ h

theorem State.wr_wf {s : State} (a : Nat) (b : List Byte) (h : Memory.wf s.mem = true) : Memory.wf (s.wr a b).mem = true :=
  Memory.putAll_wf a b h

theorem State.wrNat_wf {s : State} (a n x : Nat) (h : Memory.wf s.mem = true) : Memory.wf (s.wrNat a n x).mem = true :=
  Memory.putAll_wf a _ h

theorem State.clear_wf {s : State} (a n : Nat) (h : Memory.wf s.mem = true) : Memory.wf (s.clear a n).mem = true :=
  Memory.clear_wf a n h

theorem State.putAt_wf {s : State} (home : Nat) (l : List (Nat × Byte)) (h : Memory.wf s.mem = true) :
    Memory.wf (s.putAt home l).mem = true := Memory.foldl_put_wf (fun p : Nat × Byte => (home + p.1, p.2)) l h

theorem State.reset_mem_wf : Memory.wf State.reset.mem = true := rfl

end Sys2Proof.Machine
end

