-- ==== Sys2Proof/Laws/Ray.lean ====
section
/-! SUPPORT. What a view's numbers stand for: each operation of Ray.lean on them is the operation of the reals (R401). -/

namespace Sys2Proof.Machine

theorem Surd.val_ofRat (w : Nat → ℝ) : ∀ n (x : Rat), Surd.val w n (Surd.ofRat n x) = (x : ℝ)
  | 0, _ => rfl
  | n + 1, x => by simp [Surd.val, Surd.ofRat, Surd.val_ofRat w n]

theorem Surd.val_add (w : Nat → ℝ) : ∀ n x y, Surd.val w n (Surd.add n x y) = Surd.val w n x + Surd.val w n y
  | 0, x, y => by simp only [Surd.val, Surd.add]; push_cast; rfl
  | n + 1, x, y => by simp only [Surd.val, Surd.add, Surd.val_add w n]; ring

theorem Surd.val_scale (w : Nat → ℝ) : ∀ n (c : Rat) x, Surd.val w n (Surd.scale c n x) = (c : ℝ) * Surd.val w n x
  | 0, c, x => by simp only [Surd.val, Surd.scale]; push_cast; rfl
  | n + 1, c, x => by simp only [Surd.val, Surd.scale, Surd.val_scale w n]; ring

theorem Surd.val_mul {w : Nat → ℝ} {r : Nat → Rat} (h : ∀ n, w n * w n = (r n : ℝ)) :
    ∀ n x y, Surd.val w n (Surd.mul r n x y) = Surd.val w n x * Surd.val w n y
  | 0, x, y => by simp only [Surd.val, Surd.mul]; push_cast; rfl
  | n + 1, x, y => by
    simp only [Surd.val, Surd.mul, Surd.val_add, Surd.val_scale, Surd.val_mul h n, ← h n]; ring

/-- The sign of a number is that of the real it stands for. -/
theorem Surd.sign_val {w : Nat → ℝ} {r : Nat → Rat} (h0 : ∀ n, 0 ≤ w n) (h : ∀ n, w n * w n = (r n : ℝ)) : ∀ n x,
    (0 < Surd.val w n x ∧ Surd.sign r n x = 1) ∨ (Surd.val w n x < 0 ∧ Surd.sign r n x = -1) ∨
      (Surd.val w n x = 0 ∧ Surd.sign r n x = 0)
  | 0, x => by
    simp only [Surd.sign, Surd.val, signRat, Rat.cast_pos, Rat.cast_lt_zero, Rat.cast_eq_zero]
    rcases lt_trichotomy (show Rat from x) 0 with c | c | c
    · exact .inr (.inl ⟨c, by rw [if_neg (not_lt.2 c.le), if_pos c]⟩)
    · exact .inr (.inr ⟨c, by rw [if_neg (by rw [c]; exact lt_irrefl 0), if_neg (by rw [c]; exact lt_irrefl 0)]⟩)
    · exact .inl ⟨c, if_pos c⟩
  | n + 1, x => by
    have e := h n
    simp only [Surd.sign, Surd.val]
    have ha := Surd.sign_val h0 h n x.1
    have hb := Surd.sign_val h0 h n x.2
    have hc := Surd.sign_val h0 h n (Surd.add n (Surd.mul r n x.1 x.1) (Surd.scale (-r n) n (Surd.mul r n x.2 x.2)))
    rw [Surd.val_add, Surd.val_scale, Surd.val_mul h, Surd.val_mul h, Rat.cast_neg, ← e] at hc
    generalize Surd.val w n x.1 = a at *
    generalize Surd.val w n x.2 = b at *
    by_cases hr : w n = 0
    · have : r n = 0 := by rw [hr] at e; exact_mod_cast (by simpa using e.symm : (r n : ℝ) = 0)
      simpa [this, hr] using ha
    have hw : 0 < w n := lt_of_le_of_ne (h0 n) (Ne.symm hr)
    have hr' : r n ≠ 0 := fun z => hr (by rw [z] at e; simpa using e)
    simp only [hr', if_false]
    rcases ha with ⟨ha, sa⟩ | ⟨ha, sa⟩ | ⟨ha, sa⟩ <;> rcases hb with ⟨hb, sb⟩ | ⟨hb, sb⟩ | ⟨hb, sb⟩ <;>
      simp only [sa, sb]
    · left; exact ⟨by positivity, by simp⟩
    · rcases hc with ⟨hc, sc⟩ | ⟨hc, sc⟩ | ⟨hc, sc⟩ <;> simp [sc] <;> nlinarith [mul_neg_of_neg_of_pos hb hw]
    · left; simp [hb, ha]
    · rcases hc with ⟨hc, sc⟩ | ⟨hc, sc⟩ | ⟨hc, sc⟩ <;> simp [sc] <;> nlinarith [mul_pos hb hw]
    · right; left; exact ⟨by nlinarith [mul_neg_of_neg_of_pos hb hw], by simp⟩
    · right; left; simp [hb, ha]
    · left; simpa [ha] using mul_pos hb hw
    · right; left; simpa [ha] using mul_neg_of_neg_of_pos hb hw
    · right; right; simp [ha, hb]

section

variable {r : Roots} {w : Nat → ℝ}

@[simp] theorem val_rl (x : Rat) : Surd.val w 3 (rl x) = (x : ℝ) := Surd.val_ofRat w 3 x
@[simp] theorem val_radd (x y : Real3) : Surd.val w 3 (radd x y) = Surd.val w 3 x + Surd.val w 3 y := Surd.val_add w 3 x y
@[simp] theorem val_rscale (c : Rat) (x : Real3) : Surd.val w 3 (rscale c x) = c * Surd.val w 3 x := Surd.val_scale w 3 c x
@[simp] theorem val_rsub (x y : Real3) : Surd.val w 3 (rsub x y) = Surd.val w 3 x - Surd.val w 3 y := by
  simp [rsub, sub_eq_add_neg]
@[simp] theorem val_rootA (x : Rat) : Surd.val w 3 (rootA x) = x * w 0 := by simp [Surd.val, rootA]
@[simp] theorem val_rootB (x : Rat) : Surd.val w 3 (rootB x) = x * w 1 := by simp [Surd.val, rootB]
@[simp] theorem val_rootC (x : Rat) : Surd.val w 3 (rootC x) = x * w 2 := by simp [Surd.val, rootC]
theorem Roots.val_mul (h : r.RootsAre w) (x y : Real3) :
    Surd.val w 3 (r.mul x y) = Surd.val w 3 x * Surd.val w 3 y := Surd.val_mul (fun n => (h n).2) 3 x y
theorem Roots.sign_val (h : r.RootsAre w) (x : Real3) :
    (0 < Surd.val w 3 x ∧ r.sign x = 1) ∨ (Surd.val w 3 x < 0 ∧ r.sign x = -1) ∨ (Surd.val w 3 x = 0 ∧ r.sign x = 0) :=
  Surd.sign_val (fun n => (h n).1) (fun n => (h n).2) 3 x
theorem Roots.val_dot (h : r.RootsAre w) (x y : XVec) : Surd.val w 3 (r.dot x y) = (x.real w).dot (y.real w) := by
  simp only [Roots.dot, val_radd, Roots.val_mul h, Vec3.dot, XVec.real, Vec3.map]; ring
theorem val_rdot (x : RVec) (y : XVec) : Surd.val w 3 (rdot x y) = x.real.dot (y.real w) := by
  simp only [rdot, val_radd, val_rscale, Vec3.dot, XVec.real, RVec.real, Vec3.map]; ring
theorem real_rcross (x : XVec) (y : RVec) : (rcross x y).real w = (x.real w).cross y.real := by
  simp only [rcross, val_rsub, val_rscale, Vec3.cross, XVec.real, RVec.real, Vec3.map, Vec3.mk.injEq]
  refine ⟨?_, ?_, ?_⟩ <;> ring
theorem real_add (x y : XVec) : (XVec.add x y).real w = (x.real w).plus (y.real w) := by
  simp [XVec.add, XVec.real, Vec3.plus, Vec3.zip, Vec3.map]
theorem real_lift (x : RVec) : (RVec.lift x).real w = x.real := by simp [RVec.lift, XVec.real, RVec.real, Vec3.map]

end

end Sys2Proof.Machine
end

