-- ==== Sys2Proof/Tests/Slice0.lean ====
section
/-! SUPPORT. Tests: words of the spec's examples, what the well-formedness refuses, value tables of the spec, and for each
statement with hypotheses a witness that meets them. -/

namespace Sys2Proof.Tests

open Sys2Proof Sys2Proof.Machine

/-! ### Decoding: the words of the spec's examples, family by family -/

/-- R122, R131, R125: control. -/
theorem test_decode_control :
    decode 0x0001_0007#32 = .ok (.exms false 8) ∧ decode 0x0040_0008#32 = .ok (.exmg false 8) ∧
    decode 0x8000_0002#32 = .ok (.exit true) ∧ decode 0x0000_0001#32 = .ok (.nop false) ∧
    decode 0x0000_A005#32 = .ok (.modeg false 5) ∧ decode 0x0028_0006#32 = .ok (.moder false 5) ∧
    decode 0x0001_2009#32 = .ok (.exma false 9) ∧ decode 0x0001_400A#32 = .ok (.psw false 10) ∧
    decode 0x0007_E10A#32 = .ok (.pswi false 2) ∧ decode 0x0030_008B#32 = .ok (.plq false 6 1) ∧
    decode 0x0001_800C#32 = .ok (.ji false 12) ∧ decode 0x0019_800D#32 = .ok (.calli false 3 12) ∧
    decode 0x0018_000E#32 = .ok (.laneid false 3) ∧ decode 0x0038_800F#32 = .ok (.ids false 7 4) ∧
    decode 0x0220_0003#32 = .ok (.br false 1 3) ∧ decode 0x0E00_0FC0#32 = .ok (.mode false 0 0 0 0 0 31 1) := by decide

/-- R146 to R153: lane arithmetic. -/
theorem test_decode_lanes :
    decode 0x1018_4080#32 = .ok (.add false 3 2 1) ∧ decode 0x1008_4183#32 = .ok (.mulh false 1 2 3) ∧
    decode 0x1028_2108#32 = .ok (.div false 5 1 2) ∧ decode 0x1030_A01A#32 = .ok (.popc false 6 5) ∧
    decode 0x1038_211C#32 = .ok (.bfx false 7 1 2) ∧ decode 0x1280_0007#32 = .ok (.addi false 16 0 7) ∧
    decode 0x14C0_0003#32 = .ok (.andi false 24 0 3) ∧ decode 0x9628_B678#32 = .ok (.ori true 5 5 0x1678) ∧
    decode 0x1A20_0802#32 = .ok (.shi false 4 0 1 2) ∧ decode 0x1C17_FFFF#32 = .ok (.movi false 2 0x7FFFF) ∧
    decode 0x1E41_FC00#32 = .ok (.movhi false 8 0x1FC00) ∧ decode 0x2028_2106#32 = .ok (.mad false 5 1 2 3) := by decide

/-- R175, R178: the float words. -/
theorem test_decode_float :
    decode 0x2230_8006#32 = .ok (.fcost false 6 4) ∧ decode 0x2210_2000#32 = .ok (.frcp false 2 1) ∧
    decode 0x2228_8005#32 = .ok (.fsint false 5 4) ∧ decode 0x2218_2109#32 = .ok (.fldexp false 3 1 2) ∧
    decode 0x2239_000A#32 = .ok (.packe false 7 8) ∧ decode 0x2240_E00B#32 = .ok (.unpke false 8 7) ∧
    decode 0x2248_000C#32 = .ok (.fflgr false 9) ∧ decode 0x2200_0F8D#32 = .ok (.fflgc false 0x1F) ∧
    decode 0x2410_2007#32 = .ok (.cvt false 2 1 0 0 7) := by decide

/-- R156 to R165: exchange, predicates and group words. -/
theorem test_decode_groups :
    decode 0x2618_4280#32 = .ok (.shfli false 3 2 5) ∧ decode 0x26BA_C081#32 = .ok (.shflu false 23 22 1) ∧
    decode 0x2618_4803#32 = .ok (.shflx false 3 2 16) ∧ decode 0x2620_E004#32 = .ok (.bcast false 4 7) ∧
    decode 0x2640_6285#32 = .ok (.rdln false 8 3 5) ∧ decode 0x2640_6006#32 = .ok (.first false 8 3) ∧
    decode 0x2810_6200#32 = .ok (.pand false 2 3 4) ∧ decode 0x2848_8008#32 = .ok (.ballot false 9 4) ∧
    decode 0x2808_800A#32 = .ok (.vany false 1 4) ∧ decode 0x2810_218E#32 = .ok (.gkor false 2 1 3) ∧
    decode 0x2A10_2102#32 = .ok (.cmp false 2 1 2 2) ∧ decode 0x2C23_0000#32 = .ok (.cmpi false 4 24 0 0) ∧
    decode 0x2E51_660A#32 = .ok (.sel false 10 11 12 5) ∧ decode 0x3038_E400#32 = .ok (.gadd false 7 7 8) ∧
    decode 0x3051_200F#32 = .ok (.gpopc false 10 9) ∧ decode 0x3048_8292#32 = .ok (.gdivu false 9 4 5) ∧
    decode 0x3238_FFFF#32 = .ok (.gaddi false 7 7 0x1FFF) ∧ decode 0x3438_000C#32 = .ok (.gmovi false 7 12) ∧
    decode 0x3659_A2B3#32 = .ok (.gmovhi false 11 0x1A2B3) ∧ decode 0x3858_00AB#32 = .ok (.gori false 11 0 0xAB) ∧
    decode 0x3A38_E028#32 = .ok (.gshi false 7 7 0 40) ∧ decode 0x3C08_4206#32 = .ok (.gcmp false 1 2 4 6) ∧
    decode 0x3E3F_FFFF#32 = .ok (.dbnz false 7 0x7FFFF) := by decide

/-- R204 to R216: memory words. -/
theorem test_decode_memory :
    decode 0x4010_2204#32 = .ok (.ld false 2 1 4 0 0 0 2 0) ∧ decode 0x4430_2000#32 = .ok (.gld false 6 1 0) ∧
    decode 0x4638_C002#32 = .ok (.gst false 7 6 2) ∧ decode 0x4828_8008#32 = .ok (.sld false 5 4 0 2 0) ∧
    decode 0x4810_2286#32 = .ok (.sld false 2 1 5 1 1) ∧ decode 0x4828_8038#32 = .ok (.qst false 5 4 0 2) ∧
    decode 0x4A29_8321#32 = .ok (.atom false 5 12 6 1 0) ∧ decode 0x4C4A_8180#32 = .ok (.afadd false 9 20 3) ∧
    decode 0x4C52_8181#32 = .ok (.afxrd false 10 20 3) ∧ decode 0x4C5A_8182#32 = .ok (.afxclr false 11 20 3) ∧
    decode 0x4C62_8183#32 = .ok (.afxflg false 12 20 3) ∧ decode 0x4EB2_8200#32 = .ok (.pgreq false 22 20 4) ∧
    decode 0x4E4A_8201#32 = .ok (.resq false 9 20 4) ∧ decode 0x4E02_8202#32 = .ok (.pfetch false 20 4) := by decide

/-- R224, R236, R241: Dray, publish sets and the array. -/
theorem test_decode_units :
    decode 0x5002_0000#32 = .ok (.dcopy false 16) ∧ decode 0x5002_0001#32 = .ok (.dcopyt false 16) ∧
    decode 0x5002_0002#32 = .ok (.dcvt false 16) ∧ decode 0x5002_0003#32 = .ok (.dgath false 16) ∧
    decode 0x5002_0004#32 = .ok (.dscat false 16) ∧ decode 0x5002_0005#32 = .ok (.dfill false 16) ∧
    decode 0x5002_8A86#32 = .ok (.dwait false 20 21) ∧ decode 0x504A_8007#32 = .ok (.dpoll false 9 20) ∧
    decode 0x5003_0008#32 = .ok (.publish false 24) ∧ decode 0x5003_0C89#32 = .ok (.ppin false 24 25) ∧
    decode 0x5003_0C8A#32 = .ok (.punpin false 24 25) ∧ decode 0x5801_4000#32 = .ok (.mcfg false 10) ∧
    decode 0x5859_8001#32 = .ok (.malloc false 11 12) ∧ decode 0x5801_6602#32 = .ok (.mfree false 11 12) ∧
    decode 0x5801_A003#32 = .ok (.mldw false 13) ∧ decode 0x5801_A004#32 = .ok (.mldwt false 13) ∧
    decode 0x5801_C786#32 = .ok (.mstream false 14 15) ∧ decode 0x5801_C787#32 = .ok (.mstra false 14 15) ∧
    decode 0x5881_C888#32 = .ok (.mgather false 16 14 17) ∧ decode 0xD853_4009#32 = .ok (.mrda true 10 26) ∧
    decode 0x58A1_E00A#32 = .ok (.mwra false 20 15) ∧ decode 0x5801_E60B#32 = .ok (.mzero false 15 12) ∧
    decode 0x5802_400C#32 = .ok (.gang false 18) ∧ decode 0x5802_600D#32 = .ok (.mtok false 19) := by decide

/-- R276, R299, R314, R319, R331, R347: views, ordering, tasks and the system words. -/
theorem test_decode_system :
    decode 0x6141_4000#32 = .ok (.view false 40 10) ∧ decode 0x6101_4801#32 = .ok (.viewl false 32 10 16) ∧
    decode 0x6061_6002#32 = .ok (.vwait false 12 11) ∧ decode 0x6061_6003#32 = .ok (.vpoll false 12 11) ∧
    decode 0x6000_A004#32 = .ok (.vout false 5 0) ∧ decode 0x6038_0005#32 = .ok (.vhit false 7 0) ∧
    decode 0x6048_0086#32 = .ok (.vlvl false 9 1) ∧ decode 0x6800_0004#32 = .ok (.phase false 4) ∧
    decode 0x6800_0009#32 = .ok (.publ false 1) ∧ decode 0x6800_0014#32 = .ok (.refr false 4) ∧
    decode 0x6800_0018#32 = .ok (.ifence false) ∧ decode 0x6802_C01B#32 = .ok (.evwait false 22) ∧
    decode 0x6A00_0002#32 = .ok (.bar false 2) ∧ decode 0x6A00_000C#32 = .ok (.bara false 4) ∧
    decode 0x6A00_0014#32 = .ok (.barw false 4) ∧ decode 0x6C03_0000#32 = .ok (.tspawn false 24) ∧
    decode 0x6C00_0001#32 = .ok (.tdone false) ∧ decode 0x6C03_0002#32 = .ok (.tspec false 24) ∧
    decode 0x6C03_0003#32 = .ok (.tcommit false 24) ∧ decode 0x6C03_0004#32 = .ok (.tdiscard false 24) ∧
    decode 0x7801_2000#32 = .ok (.sysc false 9) ∧ decode 0x7801_2001#32 = .ok (.hvc false 9) ∧
    decode 0x7800_0283#32 = .ok (.bkpt false 5) ∧ decode 0x7801_4584#32 = .ok (.phint false 10 11) ∧
    decode 0x7800_A005#32 = .ok (.sleep false 5) ∧ decode 0x7800_8286#32 = .ok (.tlbi false 4 5) ∧
    decode 0x7A28_0000#32 = .ok (.srr false 5 0) ∧ decode 0x7A01_2C01#32 = .ok (.srw false 9 24) ∧
    decode 0x7BF0_2002#32 = .ok (.srrl false 62 1) ∧ decode 0x7A00_0183#32 = .ok (.srwl false 0 3) := by decide

/-- R105 and its page's examples: words refused, by the check that refuses each. -/
theorem test_decode_refused :
    decode 0x1000_000A#32 = .error .minor ∧ decode 0x5200_0000#32 = .error .major ∧ decode 0x0000_0081#32 = .error .field ∧
    decode 0x2D18_0810#32 = .error .field ∧ decode 0x6800_0006#32 = .error .minor ∧ decode 0x6A00_0000#32 = .error .minor := by
  decide

/-! ### Well-formedness: an ill-formed term for each check -/

theorem test_wf_refuses :
    (Instr.psw false 63).wf = false ∧ (Instr.ids false 1 8).wf = false ∧ (Instr.cvt false 1 2 0 0 9).wf = false ∧
    (Instr.gcmp false 1 2 3 10).wf = false ∧ (Instr.dbnz false 0 1).wf = false ∧ (Instr.ld false 1 2 3 3 0 0 2 0).wf = false ∧
    (Instr.ld false 1 2 3 0 0 1 2 0).wf = false ∧ (Instr.st false 1 2 3 3 0 2 0).wf = false ∧
    (Instr.sld false 1 2 3 2 1).wf = false ∧ (Instr.qld false 1 2 3 3 1).wf = false ∧
    (Instr.atom false 1 2 3 3 0).wf = false ∧ (Instr.atom false 1 2 3 0 11).wf = false ∧
    (Instr.atomn false 1 2 3 3 0).wf = false ∧ (Instr.atomn false 1 2 3 0 11).wf = false ∧
    (Instr.dcopy false 0).wf = false ∧ (Instr.dcopyt false 59).wf = false ∧ (Instr.dcvt false 0).wf = false ∧
    (Instr.dgath false 63).wf = false ∧ (Instr.dscat false 0).wf = false ∧ (Instr.dfill false 59).wf = false ∧
    (Instr.view false 1 0).wf = false ∧ (Instr.viewl false 1 63 2).wf = false ∧ (Instr.vlvl false 1 5).wf = false ∧
    (Instr.phase false 6).wf = false ∧ (Instr.publ false 6).wf = false ∧ (Instr.refr false 7).wf = false ∧
    (Instr.bar false 0).wf = false ∧ (Instr.bara false 6).wf = false ∧ (Instr.barw false 0).wf = false := by decide

/-! ### Small states -/

/-- The next state of an outcome, s where it is none. -/
def nextOr (s : State) (o : Host.Outcome State Fault Refusal) : State :=
  match o with
  | .next t => t
  | _ => s
/-- A coach about to issue a NOP: its 32 lanes live in one plane of the placed code. -/
def base : State := State.reset.withFetchWord 32 1
/-- The same with every plane's mode: TYPE, RM, SAT. -/
def typed (t : BitVec 4) (rm : BitVec 2) (sat : BitVec 1) : State :=
  base.modCo fun c => { c with masks := { c.masks with
    modes := Vector.replicate 4 (0#7 ++ 0#5 ++ 0#1 ++ t ++ rm ++ sat ++ 31#5 ++ 1#1 ++ 0#6) } }
/-- The state with G[i]. -/
def withG (s : State) (i : Nat) (x : Dword) : State := s.modCo fun c => { c with regs := { c.regs with g := vset c.regs.g i x } }
/-- The state with V[i] in every lane. -/
def withV (s : State) (i : Nat) (x : Word) : State :=
  s.modCo fun c => { c with regs := { c.regs with v := vset c.regs.v i (laneVec fun _ => x) } }
/-- One step on a word placed for it, the registers v1 and v2 given. -/
def run (s : State) (w : Nat) (x y : Word) : State :=
  let s := withV (withV s 1 x) 2 y
  nextOr s (step (s.withFetchWord 32 w))
/-- A run of a word and what it deferred, landed. -/
def landed (s : State) (w : Nat) (x y : Word) : State := (run s w x y).landAll

/-! ### Value tables of the spec, each word fetched and run by one step -/

/-- The table of R145: ADD v3, v1, v2 and the others, without and with SAT. -/
theorem test_add_table :
    (run (typed 4 0 0) 0x1018_2100 0x64 0x64).co.vreg 3 7 = 0xFFFF_FFC8 ∧
    (run (typed 4 0 1) 0x1018_2100 0x64 0x64).co.vreg 3 7 = 0x7F ∧
    (run (typed 5 0 0) 0x1018_2100 0x1234_00FF 1).co.vreg 3 7 = 0 ∧
    (run (typed 5 0 1) 0x1018_2100 0xC8 0x64).co.vreg 3 7 = 0xFF := by decide +kernel
theorem test_mul_table :
    (run (typed 2 0 0) 0x1018_2102 0x100 0x100).co.vreg 3 31 = 0 ∧
    (run (typed 2 0 1) 0x1018_2102 0x100 0x100).co.vreg 3 31 = 0x7FFF ∧
    (run (typed 2 0 1) 0x1018_2103 0x100 0x100).co.vreg 3 31 = 1 := by decide +kernel
theorem test_sub_abs_table :
    (run (typed 1 0 0) 0x1018_2101 3 5).co.vreg 3 0 = 0xFFFF_FFFE ∧
    (run (typed 1 0 1) 0x1018_2101 3 5).co.vreg 3 0 = 0 ∧
    (run (typed 0 0 0) 0x1018_2006 0x8000_0000 0).co.vreg 3 0 = 0x8000_0000 ∧
    (run (typed 0 0 1) 0x1018_2006 0x8000_0000 0).co.vreg 3 0 = 0x7FFF_FFFF := by decide +kernel
/-- The table of R174: value and flags (NV, DZ, OF, UF, NX from bit 0). -/
theorem test_float_add_table :
    (run (typed 6 0 0) 0x1018_2100 0x7F7F_FFFF 0x7F7F_FFFF).co.vreg 3 0 = 0x7F80_0000 ∧
    (run (typed 6 1 0) 0x1018_2100 0x7F7F_FFFF 0x7F7F_FFFF).co.vreg 3 0 = 0x7F7F_FFFF ∧
    (run (typed 6 0 0) 0x1018_2100 0x7F7F_FFFF 0x7F7F_FFFF).co.special.fflags = 0x14 ∧
    (run (typed 6 2 0) 0x1018_2101 0x3F80_0000 0x3F80_0000).co.vreg 3 0 = 0x8000_0000 := by decide +kernel
theorem test_bf16_table :
    (run (typed 7 0 0) 0x1018_2100 0x1234_3F80 0x3B80).co.vreg 3 0 = 0x3F80 ∧
    (run (typed 7 3 0) 0x1018_2100 0x1234_3F80 0x3B80).co.vreg 3 0 = 0x3F81 ∧
    (run (typed 8 0 0) 0x1018_2102 0x4000_3F80 0x7F80_0000).co.vreg 3 0 = 0x7F80_0000 ∧
    (run (typed 6 0 0) 0x1018_2102 0x0080_0000 0x3F00_0000).co.vreg 3 0 = 0x0040_0000 := by decide +kernel
theorem test_div_minmax_table :
    (landed (typed 6 0 0) 0x1018_2108 0x3F80_0000 0).co.vreg 3 0 = 0x7F80_0000 ∧
    (landed (typed 6 0 0) 0x1018_2108 0x3F80_0000 0).co.special.fflags = 2 ∧
    (landed (typed 6 0 0) 0x1018_2108 0 0x8000_0000).co.vreg 3 0 = 0x7FC0_0000 ∧
    (landed (typed 6 0 0) 0x1018_2108 0 0x8000_0000).co.special.fflags = 1 ∧
    (run (typed 6 0 0) 0x1018_2104 0x7FC0_0000 0x4000_0000).co.vreg 3 0 = 0x4000_0000 ∧
    (run (typed 6 0 0) 0x1018_2105 0x8000_0000 0).co.vreg 3 0 = 0 := by decide +kernel

/-- Closes a group of tests: with a type declared here, Lean finishes checking the group before it goes on, so that few
checks run at once and the file compiles in little memory. -/
inductive Group1 | done

/-- The state after one instruction with v1 given. -/
def does (i : Instr) (s : State) (x : Word) : State := nextOr s (exec i (withV s 1 x))

/-- The table of R177. -/
theorem test_cvt_table :
    (does (.cvt false 3 1 0 0 0) (typed 6 0 0) 0x4066_6666).co.vreg 3 0 = 4 ∧
    (does (.cvt false 3 1 0 0 0) (typed 6 1 0) 0x4066_6666).co.vreg 3 0 = 3 ∧
    (does (.cvt false 3 1 0 0 0) (typed 6 0 0) 0x4F32_D05E).co.vreg 3 0 = 0x7FFF_FFFF ∧
    (does (.cvt false 3 1 0 0 0) (typed 6 0 0) 0x4F32_D05E).co.special.fflags = 1 ∧
    (does (.cvt false 3 1 0 0 5) (typed 6 0 0) 0xBF80_0000).co.vreg 3 0 = 0 := by decide +kernel
theorem test_cvt_bf16_table :
    (does (.cvt false 3 1 0 0 7) (typed 6 0 0) 0x3F80_8000).co.vreg 3 0 = 0x3F80 ∧
    (does (.cvt false 3 1 0 0 7) (typed 6 3 0) 0x3F80_8000).co.vreg 3 0 = 0x3F81 ∧
    (does (.cvt false 3 1 0 0 4) (typed 0 0 0) 300).co.vreg 3 0 = 0x2C ∧
    (does (.cvt false 3 1 0 1 4) (typed 0 0 0) 300).co.vreg 3 0 = 0x7F ∧
    (does (.cvt false 3 1 0 0 6) (typed 7 0 0) 0xFFFF_C0A0).co.vreg 3 0 = 0xC0A0_0000 := by decide +kernel
/-- R163's and R131's examples: GMOVHI after GORI of g0, PLQ of one plane, and g0 as a destination. -/
theorem test_group_examples :
    (nextOr base (step ((withG base 11 0xAB).withFetchWord 32 0x3659_A2B3))).co.greg 11 = 0x3456_60AB ∧
    (nextOr base (step (base.withFetchWord 32 0x0030_000B))).co.greg 6 = 0x0000_0001_FFFF_FFFF ∧
    (nextOr base (step (base.withFetchWord 32 0x3400_000C))).co.greg 0 = 0 := by decide +kernel
/-- R107, R45: a store to the host window is buffered, and a load of the coach finds it. -/
theorem test_store_load :
    let s := withG (withG base 6 (BitVec.ofNat 64 (winBase + 0x20000))) 7 0x1122334455667788
    let t := nextOr s (step (s.withFetchWord 32 0x4638_C002))
    t.co.knownByte (homeWin 0x20010) = some 0x88 ∧ Memory.get t.mem (homeWin 0x20010) = 0 := by decide +kernel
/-- R28, R100: a word that does not decode traps the coach with ILL, subcode MINOR; with no vector valid it halts its haul
(R334). -/
theorem test_illegal_word :
    let t := nextOr base (step (base.withFetchWord 32 0x1000_000A))
    t.co.issue.phase = .halted ∧ (t.hauls.map fun h => h.ended.map (·.1)) = [some 6] := by decide +kernel

/-! ### Witnesses: states and operands that meet the hypotheses of the statements -/

/-- Whether an outcome is a next state. -/
def isNext (o : Host.Outcome State Fault Refusal) : Bool :=
  match o with
  | .next _ => true
  | _ => false
theorem next_of_isNext {o : Host.Outcome State Fault Refusal} (h : isNext o = true) : ∃ t, o = .next t := by
  cases o <;> simp_all [isNext]
theorem pair_of_snd {α β : Type} {x : α × β} {b : β} (h : x.2 = b) : x = (x.1, b) := Prod.ext rfl h

/-- A coach about to issue the last offset of its run. -/
def late : State := base.modCo fun c => { c with issue := { c.issue with count := 23 } }
/-- The same with an open offset whose word due is a NOP. -/
def opened : State := base.modCo fun c => { c with issue := { c.issue with
  open_ := true, words := Vector.replicate 4 0x0000_0001 } }

theorem witness_StepRunsDecoded :
    (∃ u l, late.schedule = [] ∧ late.co.issue.phase = .issuing ∧ late.co.issue.open_ = false ∧ late.co.issue.count < 24 ∧
      (late.quad (late.co.ident.core / 4)).changing = false ∧ late.tick.fetchOffset = (u, .ok l) ∧ l.head? = some (0, 1) ∧
      misaligned l = false ∧ decode 1 = .ok (.nop false)) ∧
    (opened.schedule = [] ∧ opened.co.issue.phase = .issuing ∧ opened.co.issue.open_ = true ∧
      (opened.quad (opened.co.ident.core / 4)).changing = false ∧
      decode (vget opened.co.issue.words opened.co.issue.plane.toNat) = .ok (.nop false)) ∧
    (∃ t, base.translate base.ctx .fetch
        (base.co.segs.seg.base.toNat + 3 * base.co.segs.seg.stride + 4 * base.co.issue.off.toNat) =
          (t, .found (homeWin 0x10300) 0x3F#64 23) ∧
      (t.core t.co.ident.core).icache = [] ∧ t.poisoned (homeWin 0x10300) 4 = false ∧ t.hostCopy? (homeWin 0x10300) = none) ∧
    Instr.isWord .runLimit = false ∧ decode 0x1000_000A = .error .minor ∧ (late.tick.fetchOffset.1).co.regs.bad = [] ∧
    ({ base with schedule := [.event .runLimit] } : State).schedule = .event .runLimit :: [] ∧
    ({ base with schedule := [.coach 4] } : State).schedule = .coach 4 :: [] ∧ base.dev.leader = none := by
  refine ⟨⟨_, [(0, 1)], ?_, ?_, ?_, ?_, ?_, pair_of_snd ?_, ?_, ?_, ?_⟩, ?_, ⟨_, pair_of_snd ?_, ?_, ?_, ?_⟩, ?_⟩
  all_goals decide +kernel

/-- Closes a group of tests, as Group1 does. -/
inductive Group2 | done

theorem witness_RoundTrip :
    (Instr.atom true 63 63 63 2 10).wf = true ∧ encode (.atom true 63 63 63 2 10) = some 0xCBFF_FFD5 ∧
    decode 0xCBFF_FFD5 = .ok (.atom true 63 63 63 2 10) := by decide

theorem witness_MemOkKept : Memory.wf base.mem = true ∧ ∃ t, step base = .next t :=
  ⟨by decide +kernel, next_of_isNext (by decide +kernel)⟩

theorem witness_PrivilegeHolds :
    Instr.isWord (.srw false 0x34 15) = true ∧ base.co.traps.mode = .u ∧ base.co.issue.newS2 = [] ∧
    (∃ t, exec (.srw false 0x34 15) base = .next t) ∧ base.co.issue.newAsid = none ∧ base.co.issue.newRoot = none ∧
    base.co.present = true ∧ ((base.co :: base.coaches).map fun c => c.ident.id).Nodup := by
  refine ⟨?_, ?_, ?_, next_of_isNext ?_, ?_, ?_, ?_, ?_⟩
  all_goals decide +kernel

theorem witness_types :
    (typed 0 0 0).co.type.toNat < 6 ∧ (typed 5 0 1).co.type.toNat < 6 ∧ (typed 6 0 0).co.type = 6 ∧ (typed 7 0 0).co.type = 7 ∧
    6 ≤ (typed 8 0 0).co.type.toNat ∧ (typed 8 0 0).co.type.toNat ≤ 8 ∧ 9 ≤ (typed 9 0 0).co.type.toNat := by decide +kernel

/-- The types at both ends. -/
theorem witness_IntegerInOut : (0#4).toNat < 6 ∧ (5#4).toNat < 6 := by decide
theorem witness_IntegerResults : (typed 0 0 0).co.type.toNat < 6 ∧ (typed 5 0 1).co.type.toNat < 6 ∧
    intIn 5 ((withV (typed 5 0 1) 2 0x100).co.vreg 2 0) = 0 := by decide +kernel
/-- A divisor that is 0 and one that is not. -/
theorem witness_IntegerDivision : (typed 5 0 1).co.type.toNat < 6 ∧ intIn 5 (base.co.vreg 1 31) = 0 ∧
    intIn 5 ((withV base 1 0xFF).co.vreg 1 31) ≠ 0 := by decide +kernel

/-- The last condition and the last types; k0 under an integer type with an order that is one, and under a float type. -/
theorem witness_CompareResults : (5#3).toNat < 6 ∧ (typed 5 0 0).co.type.toNat < 6 ∧ (typed 6 0 0).co.type = 6 ∧
    (typed 7 0 0).co.type = 7 ∧ (typed 7 0 0).co.type.toNat < 8 ∧ 6 ≤ (typed 7 0 0).co.type.toNat ∧ (1#5 : BitVec 5) ≠ 0 := by decide +kernel

/-- Closes a group of tests, as Group1 does. -/
inductive Group3 | done

theorem witness_TypeTraps : 9 ≤ (typed 9 0 0).co.type.toNat ∧ 6 ≤ (typed 6 0 0).co.type.toNat ∧ 7 ≤ (typed 7 0 0).co.type.toNat ∧
    (typed 5 0 0).co.type.toNat < 6 ∧ 6 ≤ (6#3).toNat ∧ 8 ≤ (typed 8 0 0).co.type.toNat ∧ 9 ≤ (typed 15 0 0).co.type.toNat := by
  decide +kernel

theorem witness_FroundNeighbour :
    ((fround 23 0 false 1 3).2.getLsbD 2 = false ∧ 0 < 1 ∧ 0 < 3) ∧ (fround 7 3 true 1 3).2.getLsbD 2 = false ∧
    (fround 7 1 false (2 ^ 200) 1).2.getLsbD 2 = true ∧ unpack 23 (2 ^ 32 - 2 ^ 23 - 1) = .fin true (2 ^ 24 - 1) 104 := by decide +kernel

/-- NaNs, infinities and zeros; then finite operands whose sum, product and quotient are fractions, and a zero sum; NaNs on
either side, and the largest encoding of each format. -/
theorem witness_FloatSpecials :
    ((unpack 23 0x7FC0_0000).isNan = true ∧ unpack 23 0x7F80_0000 = .inf false ∧ unpack 23 0xFF80_0000 = .inf true ∧
      unpack 7 0x8000 = .fin true 0 (-133) ∧ unpack 7 1 = .fin false 1 (-133) ∧ unpack 7 0x7F80 = .inf false ∧
      unpack 23 1 = .fin false 1 (-149) ∧ unpack 23 0x8000_0000 = .fin true 0 (-149) ∧ sigFlag (unpack 23 0x7F80_0001) = flagNV) ∧
    (unpack 7 0x3F80 = .fin false 128 (-7) ∧ unpack 7 0xBF80 = .fin true 128 (-7) ∧
      ((128 : Rat) * 2 ^ (-7 : Int) + 128 * 2 ^ (-7 : Int) = 1 * ((2 : Nat) * 2 ^ (0 : Int)) / (1 : Nat)) ∧
      ((128 : Rat) * 2 ^ (-7 : Int) + (-1) * (128 * 2 ^ (-7 : Int)) = 0)) ∧
    (FVal.inf true).isNan = false ∧ FVal.inf true ≠ .inf false ∧ (unpack 7 0xFFFF).isNan = true ∧ 0xFFFF < 2 ^ (7 + 9) ∧
    fcmpVal (unpack 7 1) (unpack 7 0x7F80) = .lt ∧ fcmpVal (unpack 7 1) (unpack 7 0x8000) = .gt ∧
    fcmpVal (unpack 7 0) (unpack 7 0x8000) = .eq := by
  refine ⟨by decide, ⟨by decide, by decide, by norm_num, by norm_num⟩, by decide⟩

theorem witness_FloatResults : 6 ≤ (typed 6 0 0).co.type.toNat ∧ (typed 6 0 0).co.type = 6 ∧ (typed 8 0 0).co.type.toNat ≤ 8 := by
  decide +kernel

/-- Operands of the special functions: NaNs of both kinds, infinities, zeros, a negative number, a power of two that is a whole
number of turns, one beyond FEX2's range, one an odd number of quarters; two numbers a whole number of turns apart; and the
largest encoding a channel of UNPKE has. -/
theorem witness_FloatFunctions :
    (unpack 23 0x7F80_0001 = .nan true ∧ unpack 7 0x7FC0 = .nan false ∧ unpack 23 0xFF80_0000 = .inf true ∧
      unpack 23 0x8000_0000 = .fin true 0 (-149) ∧ unpack 23 0xC080_0000 = .fin true 0x80_0000 (-21) ∧
      unpack 23 0x4080_0000 = .fin false 0x80_0000 (-21) ∧ unpack 23 0x4300_0000 = .fin false 0x80_0000 (-16) ∧
      unpack 23 0x3FC0_0000 = .fin false 0xC0_0000 (-23) ∧ unpack 23 0x4020_0000 = .fin false 0xA0_0000 (-22)) ∧
    ((1 : Rat) / 4 * ((0x80_0000 : Nat) * 2 ^ (-21 : Int)) = 1) ∧ (((0x80_0000 : Nat) : Rat) * 2 ^ (-21 : Int) = 2 ^ (2 : Int)) ∧
    ((4 : Rat) / 1 = (0x80_0000 : Nat) * 2 ^ ((-22 : Int) + 1)) ∧ ((128 : Rat) ≤ (0x80_0000 : Nat) * 2 ^ (-16 : Int)) ∧
    (2 * (((0xC0_0000 : Nat) : Rat) * 2 ^ (-23 : Int)) = (3 : Int)) ∧
    (((0xA0_0000 : Nat) : Rat) * 2 ^ (-22 : Int) - (0xC0_0000 : Nat) * 2 ^ (-23 : Int) = (1 : Int)) ∧ 2 < 3 := by
  refine ⟨by decide, ?_⟩
  norm_num

/-- Each row of ConvertResults: DT 9, b with nothing to pack, ST 9, both 8, packing, unpacking, one element. -/
theorem witness_ConvertResults :
    9 ≤ (9#4).toNat ∧ ((1#6 : BitVec 6) ≠ 0 ∧ ¬ ((7#4 : BitVec 4) = 8 ∧ (typed 6 0 0).co.type ≠ 8)) ∧
    9 ≤ (typed 9 0 0).co.type.toNat ∧ (typed 8 0 0).co.type = 8 ∧ (typed 6 0 0).co.type ≠ 8 := by decide +kernel
/-- Types on both sides of a conversion, and its source: a NaN, an infinity, a zero and a fraction in each direction. -/
theorem witness_ConvertMeaning : (5#4).toNat < 6 ∧ 6 ≤ (6#4).toNat ∧ (7#4).toNat < 8 ∧ unpack 23 0x7FC0_0000 = .nan false ∧
    unpack 23 0xFF80_0000 = .inf true ∧ unpack 7 0x8000 = .fin true 0 (-133) ∧ unpack 7 0xBF80 = .fin true 128 (-7) ∧
    ((1 : Rat) / 1 = (128 : Nat) * 2 ^ (-7 : Int)) := by
  refine ⟨by decide, by decide, by decide, by decide, by decide, by decide, by decide, by norm_num⟩

theorem witness_ReductionResults : (9#4).toNat < 10 ∧ base.co.active.getLsbD 31 = true ∧
    (base.modCo fun c => { c with masks := { c.masks with exm := 0 } }).co.active = 0 := by decide +kernel

theorem witness_BranchResults : (1#6 : BitVec 6) ≠ 0 ∧ (withG base 1 1).co.greg 1 = 1 ∧ base.co.gkreg 0 = true ∧
    base.co.gkreg 15 = false ∧ base.co.masks.exm &&& base.co.kreg 0 ≠ 0 ∧ base.co.masks.exm &&& base.co.kreg 31 = 0 ∧
    (0x3E00_0005 : Word).extractLsb' 25 6 = 0x1F ∧ (0x3E00_0005 : Word).extractLsb' 19 6 = 0 ∧ decode 0x3E00_0005 = .error .field := by
  decide +kernel

/-- Closes a group of tests, as Group1 does. -/
inductive Group4 | done

/-- The state with its stacks' window changed. -/
def winS (f : Window → Window) : State := base.modCo fun c => { c with window := f c.window }
/-- A callee's frame: two entries on the return stack, the last with F = 7 and one group held. -/
def inCall : State :=
  (winS fun w => { w with rsp := 0x410, sps := 0x480 + 6 * 1024, hr := 1, spsEnd := 0x480 + 6 * 1024 }).wr
    (homeScr 0 0x408) (leBytes 8 (5 + 7 * 2 ^ 32))

/-- CALL: the return stack full, the spill stack short by a group, a call that spills, one that does not; RET: empty, its entry
in error and not, groups missing, a refill of six. -/
theorem witness_CallAndReturn :
    Memory.wf base.mem = true ∧ (winS fun w => { w with rsp := 0x480 }).co.window.rspEnd < (winS fun w => { w with rsp := 0x480 }).co.window.rsp + 8 ∧
    (let w := (winS fun w => { w with hr := 1 }).co.window
     ¬ w.rspEnd < w.rsp + 8 ∧ 8 + w.hr + (1#3).toNat - 64 / 8 = 2 ∧ w.spsEnd < w.sps + 1024 * 2) ∧
    (let w := (winS fun w => { w with spsEnd := 0x880 }).co.window
     ¬ w.rspEnd < w.rsp + 8 ∧ 8 + w.hr + (1#3).toNat - base.co.regs.preg / 8 = 1 ∧ ¬ w.spsEnd < w.sps + 1024 * 1) ∧
    base.co.window.rsp ≤ base.co.window.rspBase ∧
    (let w := inCall.co.window
     ¬ w.rsp ≤ w.rspBase ∧ inCall.rdNat (homeScr 0 (0 + (w.rsp - 8))) 8 / 2 ^ 32 % 8 - w.hr = 6 ∧
       inCall.poisoned (homeScr 0 (0 + (w.rsp - 8))) 8 = false ∧
       ({ inCall with dev := { inCall.dev with poison := [homeScr 0 0x40C] } } : State).poisoned (homeScr 0 (0 + (w.rsp - 8))) 8 = true ∧
       ¬ w.sps < w.spsBase + 1024 * 6 ∧ w.sps < w.spsBase + 1024 * 7) := by decide +kernel

theorem witness_ModeAndMaskResults :
    9 ≤ (9#4).toNat ∧ (2 ^ 25 / 2 ^ 25 : Nat) ≠ 0 ∧ (8#4).toNat < 9 ∧ 8 ≤ (8#6).toNat ∧ (7#6).toNat < 8 ∧
    (let s := base.modCo fun c => { c with issue := { c.issue with bad := [(31, causeWord cEcc 0x7C)] } }
     s.co.masks.exm.getLsbD 30 = true ∧ (∀ q ∈ s.co.issue.bad, q.1 ≠ 30) ∧ ∃ q ∈ s.co.issue.bad, q.1 = 31) ∧
    (∃ h, base.haul? base.co.ident.haul = some h) := by
  refine ⟨by decide, by decide, by decide, by decide, by decide, by decide +kernel, Option.isSome_iff_exists.mp ?_⟩
  decide +kernel

/-- A device with one 64 MiB page of device memory mapped onto itself at both stages: the second-stage tables at 0x100000
and 0x110000, the first-stage tables at 0x200000 and 0x210000, the page resident, writable, executable, open to U mode. -/
def mapped (leaf : Nat) : State :=
  let s := (base.wrNat 0x10_0000 8 0x11_0001).wrNat 0x11_0000 8 0x3F
  let s := (s.wrNat 0x20_0000 8 0x21_0001).wrNat 0x21_0000 8 leaf
  { s with
    vfs := tset s.vfs 0 { s.vf 0 with s2base := 0x10_0000 }
    co := { s.co with special := { s.co.special with ptbase := 0x20_0000 } } }

/-- The access's alignment and range; a load that finds a home in device memory and one in the host window; a store below the
window's 64 KiB; a page of S mode; a page that is not resident. -/
theorem witness_AccessAndTranslation :
    Memory.wf (mapped 0x3F).mem = true ∧ (4 : Int) % (8 : Nat) ≠ 0 ∧ ((-8 : Int) % (8 : Nat) = 0 ∧ (-8 : Int) < 0) ∧ (2 ^ 52 : Int) % (8 : Nat) = 0 ∧
    ((mapped 0x3F).translate (mapped 0x3F).ctx .store 0x40_0008).2 = .found 0x40_0008 0x3F#64 26 ∧
    (base.translate base.ctx .store (winBase + 65536)).2 = .found (homeWin 65536) 0x3F#64 23 ∧
    (base.access .store (winBase + 65528) 8).2 = .error (causeAddr cProt (winBase + 65528)) ∧
    ((mapped 0x2F).access .load 0x40_0000 8).2 = .error (causeAddr cProt 0x40_0000) ∧
    ((mapped 0x1F).access .load 0x40_0000 8).2 = .ok none := by decide +kernel

/-- A publish set of three slots. -/
def pset (pinned : BitVec 3) : Machine.PSet :=
  { id := 5, entry := 0x40_0100, base := 0x100_0000, length := 32768, nslot := 3, cur := 0, pinned := pinned, refused := 0, gen := 0
    slots := [0, 0x8000, 0x1_0000] }
/-- A page that names that set, its leaf of KIND 3. -/
def setMapped : State := (mapped 0x563F).modVf 0 fun v => { v with psets := [pset 0] }

/-- A speculative task stores within its set and beside its sets; a load names the set, and one names none. -/
theorem witness_AccessOfSets :
    (setMapped.translate { setMapped.ctx with spec := some [5] } .store 0x100_0008).2 = .found 0x8008 0x563F#64 26 ∧
    leafKind 0x563F = 3 ∧ ((0x563F : Dword).extractLsb' 12 16).toNat ∈ [5] ∧
    (setMapped.translate { setMapped.ctx with spec := some [] } .store 0x100_0008).2 = .specw ∧
    (setMapped.accessNamed .load 0x100_0008 8).2 = .ok (some (8, some (5 * 2 ^ 52 + 8))) ∧
    ((mapped 0x3F).accessNamed .load 0x40_0000 8).2 = .ok (some (0x40_0000, none)) := by decide +kernel

/-- The lanes' accesses at the edges: the last bytes of the scratchpad, and beyond. -/
theorem witness_LoadAndStoreResults :
    base.co.active ≠ 0 ∧ base.co.window.scrSize = 0x880 ∧ ¬ base.co.window.scrSize < (0x87C : Int) + (2 ^ 2 : Nat) ∧
    base.co.window.scrSize < (0x880 : Int) + (2 ^ 2 : Nat) ∧
    (let s := withG base 1 (BitVec.ofNat 64 (winBase + 0x20000))
     (s.access .load (s.co.laneAddr 1 0 true 0) 8).2 = .ok (some (homeWin 0x20000)) ∧
       (s.storeAccess (s.co.laneAddr 1 0 true 0) 8).2 = .ok (homeWin 0x20000)) ∧
    (0x882 : Int) % (2 ^ 2 : Nat) ≠ 0 ∧ modeRese base.co.mode = true ∧
    modeRese (base.modCo fun c => { c with masks := { c.masks with modes := Vector.replicate 4 0xF80 } }).co.mode = false ∧
    (let s : State := { base with dev := { base.dev with poison := [homeWin 0x20004] } }
     bufByte s.co.wbuf (homeWin 0x20004) = none ∧ s.poisoned (homeWin 0x20004) 1 = true ∧ s.poisoned (homeWin 0x20003) 1 = false) := by
  decide +kernel

theorem witness_StoresGoWhere : Memory.wf base.mem = true ∧ isHost (homeWin 0x20000) = false ∧ isHost (128 * homeSpan - 1) = false := by
  decide +kernel

/-- Closes a group of tests, as Group1 does. -/
inductive Group5 | done

theorem witness_AtomicResults : (10#4).toNat < 11 ∧ Memory.wf base.mem = true ∧
    ({ base with dev := { base.dev with poison := [homeWin 0x20000] } } : State).poisoned (homeWin 0x20000) 4 = true ∧
    base.poisoned (homeWin 0x20000) 4 = false ∧ (base.co.space true 0x87C 4).isOk = true ∧
    (let s := withG base 1 (BitVec.ofNat 64 (winBase + 0x20000))
     (s.atomHome 0 10 (s.co.laneAddr 1 0 false 0)).2 = .ok (homeWin 0x20000)) := by decide +kernel

/-! ### Witnesses: pages, the Dray engine, waits -/

/-- A device in which a controller leads, VF 0 maps 64 MiB of device memory onto itself, and the address space of the placed
coach maps the 32 KiB page at 0x8000 onto 0x40_0000: four levels of tables from 0x20_0000 on. -/
def paged (leaf : Nat) : State :=
  let s := (base.wrNat 0x10_0000 8 0x11_0001).wrNat 0x11_0000 8 0x3F
  let s := ((s.wrNat 0x20_0000 8 0x21_0001).wrNat 0x21_0000 8 0x22_0001).wrNat 0x22_0000 8 0x23_0001
  let s := s.wrNat 0x23_0008 8 leaf
  { s with
    vfs := tset s.vfs 0 { s.vf 0 with s2base := 0x10_0000 }
    hauls := s.hauls.map fun h => { h with ptroot := 0x20_0000 }
    co := { s.co with special := { s.co.special with ptbase := 0x20_0000 } }
    dev := { s.dev with leader := some (1, 0) } }

/-- A mailbox command taken. -/
def command (op : Nat) (args : List Dword) : Command :=
  { block := 0, slot := 0, op := op, args := args, vf := 0, started := false, result := none }
/-- PGMIG of the page to 0x60_0000. -/
def moves : State := { paged 0x40_003F with commands := [command 7 [0, 0x8000, 0x60_0000]] }
/-- A migration of that page. -/
def migration (dirty : List Nat) (rounds : Nat) (frozen : Bool) : Migration :=
  { id := 9, vf := 0, asid := 0, va := 0x8000, bits := 15, pieces := [(0x40_0000, 0x60_0000)], leaves := [(0x23_0008, 0x60_0000)]
    whole := false, dirty := dirty, rounds := rounds, frozen := frozen, block := 0, slot := 0 }
/-- The device with one migration. -/
def moving (m : Migration) : State := { moves with migrations := [m] }
/-- A page request held for the rings at 0x50_0000 and 0x51_0000. -/
def pageReq : PageReq := { asid := 0, va := 0x8000, tag := 0, size := 0 }
def ringed : State :=
  let s := ((paged 0x40_001F).wrNat 0x50_0000 4 3).wrNat 0x51_0000 4 1
  s.modVf 0 fun v => { v with
    requests := [pageReq], rings := [{ asid := 0, req := 0x50_0000, comp := 0x51_0000, logReq := 2, logComp := 2 }] }

/-- The device with the row of a port in the channel matrix empty. -/
def shut (p : Nat) (s : State) : State := { s with dev := { s.dev with cmxrow := vset s.dev.cmxrow p 0 } }
/-- The device with a granule in error. -/
def poisonAt (x : Nat) (s : State) : State := { s with dev := { s.dev with poison := [x] } }

theorem witness_PagesMove_rings :
    (ringed.vf 0).requests.find? (fun r => r.asid.toNat == 0) = some pageReq ∧ (ringed.rings? 0 (BitVec.ofNat 16 0)).isSome = true ∧
    (ringed.ringIndices 0 0x50_0000).2 = some (0x50_0000, 3, 0) ∧ (3 + 2 ^ 32 - 0) % 2 ^ 32 < 2 ^ 2 ∧
    ((ringed.ringIndices 0 0x50_0000).1.gpaHome 0 (0x50_0040 + 32 * (3 % 2 ^ 2)) true).2 = some 0x50_00A0 ∧
    (0x50_00A0 + 32 ≤ 0x50_0000 ∨ 0x50_0000 + 4 ≤ 0x50_00A0) ∧
    (ringed.ringIndices 0 0x51_0000).2 = some (0x51_0000, 1, 0) ∧ 1 ≠ 0 ∧
    ((ringed.ringIndices 0 0x51_0000).1.readGpa 0 0x51_0040 8).2 = some (List.replicate 8 0) ∧ Memory.wf ringed.mem = true := by
  decide +kernel

/-- PGMIG with its command, root, walk, frame, and both homes; the walk's result is that of walk1. -/
theorem witness_PagesMove_start :
    moves.command? 0 0 7 = some (command 7 [0, 0x8000, 0x60_0000]) ∧
    (let s := moves.startCommand (command 7 [0, 0x8000, 0x60_0000])
     s.migrations = [] ∧ s.rootOf 0 0 = some 0x20_0000 ∧ 0x8000 < winBase ∧ 0x60_0000 % 2 ^ 15 = 0 ∧ 0x40_0000 + 32768 ≤ 0x60_0000 ∧
     (walk1 (ctrlPort s.leaderDie) 0 0x8000 levels (0x20_0000 % 2 ^ 52 / 4096 * 4096) s).2 = .ok (0x40_003F, 15, 0x23_0008, 0x11_0000) ∧
     s.pageFrame (s.ctrlCtx 0 0 0 0x20_0000) 0x8000 0x23_0008 0x60_0000 0x40_003F = some (0x40_0000, some (0x23_0008, 0x60_0000)) ∧
     (State.pieceHomes 0 0x40_0000 1 s).2 = some [(0x40_0000, 0x11_0000, 26)] ∧
     (State.pieceHomes 0 0x60_0000 1 s).2 = some [(0x60_0000, 0x11_0000, 26)] ∧ s.moving [0x40_0000] = false ∧
     (∀ l ∈ List.range 256, s.lineSeen [(0x40_0000, 0x60_0000)] l = true) ∧
     Memory.wf s.mem = true) := by decide +kernel

/-- A round that freezes at 1,024 dirty lines, one that gives up, one that goes on; and the freeze, the coach with nothing
buffered. -/
theorem witness_PagesMove_rounds :
    (migration (List.replicate 1024 5) 0 false).dirty.length ≤ 1024 ∧ 1024 < (migration (List.replicate 1025 5) 15 false).dirty.length ∧
    16 ≤ (migration (List.replicate 1025 5) 15 false).rounds + 1 ∧ (migration (List.replicate 1025 5) 14 false).rounds + 1 < 16 ∧
    (moving (migration [0, 255] 3 true)).co.present = true ∧ Memory.wf (moving (migration [0, 255] 3 true)).mem = true ∧
    (((moving (migration [0, 255] 3 true)).co :: (moving (migration [0, 255] 3 true)).coaches).map fun c => c.ident.id).Nodup ∧
    (∀ c ∈ (moving (migration [0, 255] 3 true)).allCoaches, c.wbuf = [] ∧ c.issue.deferred = []) ∧
    (let m := migration [0, 255] 3 true
     (moving m).moveSeen m = true ∧ (shut 65 (moving m)).moveSeen m = false ∧ (∀ d ∈ m.dirty, (moving m).lineSeen m.pieces d = true) ∧
       (shut 65 (moving m)).lineSeen m.pieces 255 = false) := by
  refine ⟨?_, ?_, ?_, ?_, ?_, ?_, ?_, ?_, ?_⟩
  all_goals decide +kernel

/-- A page that is not resident, one that is, one whose table entry is in error, an address that is not mapped. -/
theorem witness_PagesMove_lanes :
    ((paged 0x40_001F).translate (paged 0x40_001F).ctx .load 0x8000).2 = .absent 0x40_001F#64 15 ∧
    ((paged 0x40_003F).translate (paged 0x40_003F).ctx .load 0x8000).2 = .found 0x40_0000 0x40_003F#64 15 ∧
    ((poisonAt 0x23_000C (paged 0x40_003F)).translate (paged 0x40_003F).ctx .load 0x8000).2 = .ecc ∧
    ((paged 0x40_003F).translate (paged 0x40_003F).ctx .load 0x1_0000).2 = .prot := by decide +kernel

/-- A sum cell that stays in range, from a value whose product is no integer. -/
theorem witness_SumCells : unpack 23 0x3F00_0000 = .fin false 0x80_0000 (-24) ∧ Memory.wf base.mem = true ∧
    (cellAdd (cellAdd 0 0x3F80_0000) 0x3F80_0000).getLsbD 126 = false := by decide +kernel

/-- Closes a group of tests, as Group1 does. -/
inductive Group6 | done

/-- The device with the set, its number in g1, a pin operand in g2. -/
def sets (pinned : BitVec 3) (y : Dword) : State :=
  withG (withG (base.modVf 0 fun v => { v with psets := [pset pinned] }) 1 5) 2 y

/-- PUBLISH with a free slot and with none, a set not registered; PPIN of the current slot, of slot 2, of none. -/
theorem witness_DrayAndPublishWords :
    Memory.wf (sets 0 3).mem = true ∧ ((sets 0 3).pset? 0 5) = some (pset 0) ∧ (sets 0 3).pset? 0 6 = none ∧
    [(0 + 1) % 3, (0 + 2) % 3].find? (fun n => n != 0 && !(pset 0).pinned.getLsbD n) = some 1 ∧
    [(0 + 1) % 3, (0 + 2) % 3].find? (fun n => n != 0 && !(pset 6).pinned.getLsbD n) = none ∧
    (sets 0 3).portSees (sets 0 3).ctx.port (pset 0).entry = true ∧
    (shut 0 (sets 0 3)).portSees (sets 0 3).ctx.port (pset 0).entry = false := by decide +kernel

/-- A copy of one row of 64 bytes from the scratchpad to quad memory, counting at a home of the host window. -/
def dray : DrayCmd :=
  { coach := base.co.ident.id, haul := base.co.ident.haul, core := 0, slot := 0, op := 0, src := 0x400, dst := 0, dims := 0x0000_0001_0000_0040
    strides := 0, counter := BitVec.ofNat 64 (winBase + 0x20000), flags := 0x2_0012, vf := 0, asid := 0, ptbase := 0, mode := .u
    spec := false, scr := [(0, 0, 0x880), (1, 0, 0), (2, 0, 0), (3, 0, 0)], qm := (0, 0x1000), shadow := none, pos := 63, index := 0
    status := 0 }
/-- A device with a channel as given. -/
def channel (ch : Channel) : State := base.modChan 0 1 fun _ => ch

/-- An element within both spaces; a quad whose clock changes; an entry free for a held command; a channel that starts; a
finished command with room for its record, its counter found, in error, and none. -/
theorem witness_DraySteps :
    dray.op = 0 ∧ dray.check = none ∧ 0 < dray.rows ∧ 63 < dray.cols ∧ dray.ssp ≠ 0 ∧ dray.dsp ≠ 0 ∧
    dray.home dray.ssp dray.score (dray.src.toNat + 0 * dray.sstr + 63 * dray.selem) dray.selem = some (homeScr 0 0x43F) ∧
    dray.home dray.dsp dray.dcore (dray.dst.toNat + 0 * dray.dstr + 63 * dray.delem) dray.selem = some (homeQm 0 63) ∧
    base.poisoned (homeScr 0 0x43F) dray.selem = false ∧
    ((base.modQuad 0 fun q => { q with changing := true }).quad 0).changing = true ∧ (base.quad 0).changing = false ∧
    ((channel { queue := List.replicate 15 dray, running := none, held := [dray] }).chan 0 1).queue.length < 16 ∧
    ((channel { queue := List.replicate 15 dray, running := none, held := [dray] }).chan 0 1).held = dray :: [] ∧
    ((channel { queue := [dray], running := none, held := [] }).chan 0 1).running = none ∧ dray.isShadow = false ∧
    (let s := channel { queue := [], running := some { dray with pos := 64 }, held := [] }
     (s.chan 0 1).running = some { dray with pos := 64 } ∧ { dray with pos := 64 }.finished = true ∧ (s.quad 0).eventRoom = true ∧
       Memory.wf s.mem = true ∧ (s.quad 0).changing = false) ∧
    (base.drayCounter dray).2 = .found (homeWin 0x20000) 0x3F#64 23 ∧ isHost (homeWin 0x20000) = false ∧
    base.poisoned (homeWin 0x20000) 8 = false ∧ (base.drayCounter { dray with counter := 0x8_0000 }).2 = .prot ∧
    ((poisonAt 0x23_0008 (paged 0x40_003F)).drayCounter { dray with counter := 0x8000, ptbase := 0x20_0000 }).2 = .ecc ∧
    ({ base with dev := { base.dev with poison := [homeWin 0x20004] } } : State).poisoned (homeWin 0x20000) 8 = true := by decide +kernel

/-- The placed coach, waiting. -/
def waits (w : Wait) : State := base.modCo fun c => { c with issue := { c.issue with phase := .waiting, wait := w } }
def event : EventRec := { kind := 1, status := 0, src := 0, chan := 0, count := 0, addr := 0 }

/-- A counter that may not be read, one in error, one that may be polled with no lane in EXM; a held record with a place; a
record to read; a counter, a PGC and a TIME reached. -/
theorem witness_WaitSteps :
    (base.residentAccess .load 0x884 8).2 = .error (causeAddr cMisal 0x884) ∧
    (let a : Int := ((winBase + 0x20000 : Nat) : Int)
     (base.residentAccess .load a 8).2 = .ok (homeWin 0x20000) ∧ base.poisoned (homeWin 0x20000) 8 = false ∧
       ({ base with dev := { base.dev with poison := [homeWin 0x20004] } } : State).poisoned (homeWin 0x20000) 8 = true) ∧
    (let q := (base.modQuad 0 fun q => { q with events := List.replicate 255 event, held := [event] }).quad 0
     q.held = event :: [] ∧ q.events.length < 256 ∧ q.events = event :: List.replicate 254 event) ∧
    (let s := waits (.dwait (winBase + 0x20000) (homeWin 0x20000) 0)
     s.co.issue.phase = .waiting ∧ s.co.traps.ecc = [] ∧ s.co.traps.eccBare = none ∧
       s.co.issue.wait = .dwait (winBase + 0x20000) (homeWin 0x20000) 0 ∧ s.poisoned (homeWin 0x20000) 8 = false ∧
       (s.quad (s.co.ident.core / 4)).changing = false ∧
       (0 : Dword).toNat % 2 ^ 63 ≤ s.peekNat (homeWin 0x20000) 8 % 2 ^ 63) ∧
    (0 : Dword).toNat ≤ (waits (.evwait 0)).co.special.pgc.toNat ∧ (0 : Dword).toNat ≤ (waits (.sleep 0)).dev.time.toNat := by
  decide +kernel

/-! ### Witnesses: the matrix array -/

/-- The coach is whole, in terms that can be decided. -/
theorem whole_of {c : Coach} (h : decide (c.masks.exm = c.masks.live ∧
    ∀ l ∈ lanesOf (c.masks.exm &&& c.limit), ∀ k ∈ lanesOf (c.masks.exm &&& c.limit), c.planeOf l = c.planeOf k) = true) : c.whole := by
  simpa [Coach.whole] using h

/-- The placed coach without its lane 31. -/
def maskedOff : State := base.modCo fun c => { c with masks := { c.masks with exm := 0x7FFF_FFFF } }
/-- The placed coach with its core changed. -/
def coreS (f : Core → Core) : State := base.modCore 0 f
/-- The placed coach with two banks of its own. -/
def banked : State := coreS fun k => { k with banks := [(0, base.co.ident.id), (1, base.co.ident.id)], part := 0x400 }

theorem witness_MatrixPartialTraps : ¬ maskedOff.co.whole := by
  intro h
  exact absurd h.1 (by decide +kernel)

/-- MCFG's reserved bit 45, MALLOC of all the banks and of one more, MFREE of the coach's two banks and of a third, a GANG
value refused, one taken; MWAIT with and without an operation of the coach. -/
theorem witness_MatrixSetupResults :
    base.co.whole ∧ [14, 15, 17, 19, 20, 21, 22, 23, 24, 25, 44, 45].any (fun i => (0x2000_0000_0000 : Dword).getLsbD i) = true ∧
    (16 * (banked.core 0).part.toNat / 1024 % 32 = 16 ∧ ¬ 16 * ((banked.core 0).part.toNat / 1024 % 32) < 16 ∧
      16 * ((banked.core 0).part.toNat / 1024 % 32) < 17) ∧
    (∀ i, i < 2 → (0 + i, banked.co.ident.id) ∈ (banked.core 0).banks) ∧ (2, banked.co.ident.id) ∉ (banked.core 0).banks ∧
    base.gangOk 7 = false ∧ base.gangOk 0 = true ∧ base.ownsToken = false ∧ (base.core 0).latch = [] ∧
    (coreS fun k => { k with token := laneBit base.co.ident.slot }).ownsToken = true ∧
    ((base.core 0).queue.all fun op => !op.isQueue || !op.owners.contains base.co.ident.id) = true ∧
    (∃ op ∈ ([.swap [base.co.ident.id]] : List ArrayOp), op.isQueue = true ∧ base.co.ident.id ∈ op.owners) := by
  refine ⟨whole_of ?_, ?_, ?_, ?_, ?_, ?_, ?_, ?_, ?_, ?_, ?_, ⟨_, List.mem_singleton_self _, rfl, ?_⟩⟩
  all_goals decide +kernel

/-- The last row of the coach's banks, the first beyond them, the types MRDA takes and one it does not, a register in error and
none. -/
theorem witness_MatrixRowResults :
    banked.co.whole ∧ Memory.wf banked.mem = true ∧ (banked.core 0).queue = [] ∧
    ((banked.core 0).banks.any fun p => p.1 == 127 / 64 && p.2 == banked.co.ident.id) = true ∧
    ((banked.core 0).banks.any fun p => p.1 == 128 / 64 && p.2 == banked.co.ident.id) = false ∧
    (typed 6 0 0).co.type = 6 ∧ (typed 8 0 0).co.type = 8 ∧ banked.poisoned (accRow 0 127) 256 = false ∧ (typed 0 0 0).co.type = 0 ∧
    banked.co.issue.bad = [] ∧
    (banked.modCo fun c => { c with issue := { c.issue with bad := [(0, causeWord cEcc 4)] } }).co.issue.bad ≠ [] := by
  refine ⟨whole_of ?_, ?_⟩
  all_goals decide +kernel

/-- Closes a group of tests, as Group1 does. -/
inductive Group7 | done

/-- A stream of one row of 32 F32 activations at 0x800: the last row that fits. -/
def streams : State :=
  withG (withG (banked.modCo fun c => { c with special := { c.special with mcfgr := 0x1_0000, asr := 1 } }) 1 0x800) 2 127
/-- The placed coach in a gang of itself and of the coach in slot 1, whose own GANG is as given. -/
def ganged (g : Dword) : State :=
  let s := base.modCo fun c => { c with special := { c.special with gang := 0x1_0002 } }
  { s with coaches := [{ s.co with ident := { s.co.ident with id := 77, slot := 1 }, special := { s.co.special with gang := g } }] }
/-- The placed coach after its gang was broken. -/
def broken : State := base.modCo fun c => { c with special := { c.special with gang := 1#64 <<< 63 } }

/-- A coach alone that takes the token, one that owns it, one that waits; a broken gang; a gang that agrees and one that does
not; addresses and rows that fail each check. -/
theorem witness_MatrixIssueResults :
    streams.co.whole ∧ streams.co.special.gang = 0 ∧ ((streams.core 0).token = 0 ∧ (streams.core 0).joint = []) ∧
    (streams.co.greg 1).toNat % 4 = 0 ∧ streams.co.msnap.m = 1 ∧ streams.co.msnap.k * streams.co.msnap.aSize = 128 ∧
    0x800 + 128 ≤ streams.co.window.scrSize ∧ streams.holds (127 / 64) = true ∧ streams.holds (128 / 64) = false ∧
    (ganged 0x1_0002).co.whole ∧ broken.co.whole ∧
    ((ganged 0x1_0002).co.special.gang.getLsbD 63 = false ∧ (ganged 0x1_0002).co.special.gang.extractLsb' 0 3 ≠ 0 ∧
      (ganged 0x1_0002).gangAgrees = true ∧ (ganged 0).gangAgrees = false ∧ broken.co.special.gang.getLsbD 63 = true) ∧
    (let k := (coreS fun k => { k with token := 2 }).core 0
     ¬ (k.token = laneBit base.co.ident.slot ∨ (k.token = 0 ∧ k.joint = []))) ∧
    (coreS fun k => { k with token := 1 }).co.ident.slot = 0 ∧ (2 % 4 ≠ 0 ∧ 1 % 2 ≠ 0) ∧
    (¬ (0x860 + 128 ≤ streams.co.window.scrSize) ∧ ¬ (0x87F + 2 * 1 ≤ streams.co.window.scrSize)) ∧
    ({ streams with dev := { base.dev with poison := [homeScr 0 0x800] } } : State).poisoned (homeScr 0 0x800) 2 = true := by
  refine ⟨whole_of ?_, ?_, ?_, ?_, ?_, ?_, ?_, ?_, ?_, whole_of ?_, whole_of ?_, ?_⟩
  all_goals decide +kernel

/-- MTOK of a target that is a coach's slot, of one that is not, of 63 and of 64; a gang that is broken, in the focus and
beside it, with nothing at the latch. -/
theorem witness_MatrixIssueResults_latch :
    ((ganged 0).atSlot 0 1).isSome = true ∧ (base.atSlot 0 1).isNone = true ∧ (63 < 64 ∧ ¬ (63 < 32)) ∧
    (∀ l ∈ ((ganged 0x1_0002).core 0).latch, l.gang ≠ 0x1_0002) ∧ (ganged 0x1_0002).co.present = true ∧
    (ganged 0x1_0002).co.ident.core = 0 ∧ (ganged 0x1_0002).co.special.gang = 0x1_0002 ∧
    ((ganged 0x1_0002).coaches.all fun x => x.present && x.ident.core == 0 && x.special.gang == 0x1_0002 &&
      x.ident.id != (ganged 0x1_0002).co.ident.id) = true ∧ (ganged 0x1_0002).coaches ≠ [] := by
  decide +kernel

/-- A core with a queue. -/
def queued (q : List ArrayOp) : State := coreS fun k => { k with queue := q }
def snap : MSnap := { cfg := 0x1_0100, asr := 9 }

/-- No byte of the placed device is in error. -/
theorem queued_clean (q : List ArrayOp) (x len : Nat) : (queued q).poisoned x len = false := by
  have h : base.dev.poison = [] ∧ base.dev.lost = [] := by decide +kernel
  have d : (queued q).dev = base.dev := rfl
  simp [State.poisoned, d, h.1, h.2]

/-- A swap, a load and a stream at the head of the queue, their bands with a clock that is stable, no byte in error. -/
theorem witness_ArrayWork :
    Memory.wf (queued [.swap [1]]).mem = true ∧ ((queued [.swap [1]]).core 0).queue = [.swap [1]] ∧
    (ArrayOp.swap [1]).selects &&& ((queued [.swap [1]]).core 0).gated = 0 ∧
    (ArrayOp.load [1] true (homeScr 0 0) snap).selects &&& ((queued [.swap [1]]).core 0).gated = 0 ∧
    (∀ x len, (queued [.load [1] true (homeScr 0 0) snap]).poisoned x len = false) ∧ snap.asr &&& ((queued []).core 0).gated = 0 ∧
    ((queued []).quad (0 / 4)).changing = false ∧ snap.k = 64 ∧ snap.n = 2 := by
  refine ⟨?_, ?_, ?_, ?_, queued_clean _, ?_, ?_, ?_, ?_⟩
  all_goals decide +kernel

/-- What a member in a slot has latched. -/
def latched (coach slot op : Nat) : Latched :=
  { coach := coach, slot := slot, op := op, a := 0, rows := [], snap := snap, gang := 0x1_0002, word := 0 }

/-- A request for a run of fifteen banks, a bank freed, a gang at the latch whole and agreeing, one whose members differ, one
that waits for the token. -/
theorem witness_MatrixSteps :
    ((coreS fun k => { k with part := 0x400, banks := [(0, 9)], mallocs := [(base.co.ident.id, 15, 5)] }).core 0).freeRun 15 = some 1 ∧
    (waits (.malloc 15 5)).co.issue.phase = .waiting ∧ (waits (.malloc 15 5)).co.traps.ecc = [] ∧
    (waits (.malloc 15 5)).co.traps.eccBare = none ∧
    3 ∈ ((coreS fun k => { k with freeing := [3] }).core 0).freeing ∧
    (let k := (coreS fun k => { k with latch := [latched 8 1 5, latched 7 0 6] }).core 0
     (∀ x ∈ k.latch, x.gang = 0x1_0002) ∧ 0x1_0002 ∈ k.latch.map (·.gang) ∧ (latched 8 1 5).differs (latched 7 0 6) = true) ∧
    (latched 8 1 5).op ≠ 13 ∧
    (let k := (coreS fun k => { k with latch := [latched 8 1 5, latched 7 0 5] }).core 0
     (∀ x ∈ k.latch, x.gang = 0x1_0002) ∧ (k.atLatch 0x1_0002).length = (gangSlots 0x1_0002).length ∧
      (∀ x ∈ k.atLatch 0x1_0002, ∀ y ∈ k.atLatch 0x1_0002, x.differs y = false) ∧ k.token = 0 ∧ k.joint = []) ∧
    ((coreS fun k => { k with joint := [[latched 7 0 5, latched 8 1 5]] }).core 0).token = 0 ∧
    (base.quad (base.co.ident.core / 4)).changing = false ∧ (base.quad (0 / 4)).changing = false := by decide +kernel

/-! ### Witnesses: traps, special registers, issue -/

/-- The placed coach with both vectors valid, in a mode. -/
def guarded (m : Mode) : State :=
  let s := base.modCo fun c => { c with
    special := { c.special with svec := 0x8000_0000_0001_0000 }, traps := { c.traps with mode := m } }
  { s with dev := { s.dev with hvec := 0x8000_0000_0002_0000 } }
/-- A frame of a trap from U mode, its lanes to re-execute. -/
def frame (rx : Bool) (tmask : LaneMask) : Frame :=
  { saveExm := 0xFFFF_FFFF, tmask := tmask, saveOff := 5, mode := .u, rx := rx, saveSeg := 0x8000_0000_0001_0000
    planes := Vector.replicate 32 1, modes := Vector.replicate 4 modeReset }
/-- The state with traps recorded at its last word, and frames. -/
def trapped (s : State) (l : List (Nat × Cause)) (n : Nat) : State :=
  s.modCo fun c => { c with
    issue := { c.issue with traps := l }, traps := { c.traps with frames := List.replicate n (frame true 1) } }

/-- A call from each mode that may make it, with a cause recorded for one lane; the vectors valid. -/
theorem witness_CallsEnterHandlers :
    (guarded .u).lastWord ∧ (guarded .s).co.active ≠ 0 ∧ (guarded .s).co.traps.frames.length < 4 ∧ (guarded .u).co.traps.mode ≠ .h ∧
    (guarded .s).co.traps.mode = .s ∧ (guarded .s).co.special.svec.getLsbD 63 = true ∧ (guarded .s).dev.hvec.getLsbD 63 = true ∧
    (let s := trapped (guarded .u) [(31, causeWord cPriv 7)] 3
     s.target = 1 ∧ s.co.traps.frames.length < 4 ∧ s.co.traps.ecc = [] ∧ s.co.traps.eccBare = none ∧ s.co.issue.traps ≠ [] ∧
       s.co.issue.bare = none ∧ s.co.issue.traps = [(31, causeWord cPriv 7)] ∧
       ∀ p ∈ s.co.issue.traps, isCall p.2.code = false) ∧
    (trapped (guarded .s) [(31, causeWord cPriv 7)] 3).target = 2 := by
  refine ⟨by unfold State.lastWord; decide +kernel, ?_⟩
  decide +kernel

/-- Closes a group of tests, as Group1 does. -/
inductive Group8 | done

/-- A return in U mode, one in S and H with a frame whose lanes are to re-execute, with one that has none left. -/
theorem witness_TrapReturns :
    base.co.traps.mode = .u ∧ (guarded .s).co.traps.mode ≠ .u ∧ (trapped (guarded .h) [] 1).lastWord ∧
    (trapped (guarded .h) [] 1).co.traps.frames = frame true 1 :: [] ∧ (trapped (guarded .h) [] 1).co.traps.mode ≠ .u ∧
    (frame true 0).tmask &&& (frame true 0).saveExm = 0 := by
  refine ⟨?_, ?_, by unfold State.lastWord; decide +kernel, ?_⟩
  all_goals decide +kernel

/-- Causes that a mode routes to S, to H and to the halt; four frames below H and in H. -/
theorem witness_TrapsThatHalt :
    (trapped base [(0, causeWord cPriv 7)] 0).co.causes ≠ [] ∧ (trapped base [(0, causeWord cPriv 7)] 0).target = 3 ∧
    (base.haul? base.co.ident.haul).isSome = true ∧ (base.hauls.all fun g => g.ended.isNone) = true ∧
    (∀ p ∈ (trapped base [(0, causeWord cPriv 7)] 0).co.causes, p.2.code = cPriv) ∧
    (let s := trapped (guarded .u) [(0, causeWord cPriv 7), (31, causeWord cHvc 7)] 0
     s.co.causes = [(0, causeWord cPriv 7), (31, causeWord cHvc 7)] ∧ s.target = 2) ∧
    (let s := (guarded .s).modCo fun c => { c with issue := { c.issue with bare := some (causeWord cEcc 7) } }
     s.co.causes = [] ∧ s.co.issue.bare.or s.co.traps.eccBare = some (causeWord cEcc 7) ∧ s.target = 2) ∧
    (trapped (guarded .h) [(0, causeWord cSysc 7)] 4).target = 2 ∧ (trapped (guarded .h) [(0, causeWord cPriv 7)] 0).target = 3 ∧
    4 ≤ (trapped (guarded .h) [(0, causeWord cSysc 7)] 4).co.traps.frames.length ∧
    (trapped (guarded .h) [(0, causeWord cSysc 7)] 4).co.traps.mode = .h ∧
    (let s := trapped (guarded .s) [(31, causeWord cBkpt 7)] 4
     s.target = 1 ∧ 4 ≤ s.co.traps.frames.length ∧ s.co.traps.mode ≠ .h ∧ s.dev.hvec.getLsbD 63 = true ∧
       s.co.trapMask.getLsbD 31 = true) := by decide +kernel

/-- A VF's state with its interface locked. -/
def vfLocked : State := (guarded .h).modVf 0 fun v => { v with lock := true }

/-- Indices at the ends of each class of special registers, in the modes that may and may not; S2BASE written at this offset
and not; frames; each value that a register refuses and one that it takes; the VF selected locked and not. -/
theorem witness_SpecialRegisters :
    (0x2D#6).toNat ∉ [0x00, 0x03, 0x06, 0x07, 0x09, 0x21] ∧ ¬ (0x23 ≤ (0x2D#6).toNat ∧ (0x2D#6).toNat ≤ 0x2C) ∧
    ¬ (0x30 ≤ (0x3A#6).toNat ∧ (0x3A#6).toNat ≤ 0x3B ∧ (0x3A#6).toNat ≠ 0x3A) ∧ base.co.traps.mode.rank < 1 ∧
    (guarded .s).co.traps.mode.rank < 2 ∧ 2 ≤ (guarded .h).co.traps.mode.rank ∧ base.co.traps.frames = [] ∧
    (trapped (guarded .s) [] 1).co.traps.frames = frame true 1 :: [] ∧ base.co.active.getLsbD 31 = true ∧
    segBad 0x8000_0000_0001_0000 = false ∧ segBad 0x8010_0000_0000_0000 = true ∧
    (base.co.issue.newS2 = [] ∧ base.dev.vfsel = 0 ∧
      (base.modCo fun c => { c with issue := { c.issue with newS2 := [(3, 0), (0, 7)] } }).co.issue.newS2 = [(3, 0)] ++ [(0, 7)]) ∧
    (2 ^ 52 ≤ (0x10_0000_0000_0000 : Dword).toNat ∧ 4 % (guarded .s).co.segs.seg.stride ≠ 0 ∧
      0x10000 % (guarded .s).co.segs.seg.stride = 0) ∧
    (base.gangOk 7 = false ∧ base.gangOk 0 = true ∧ base.ownsToken = false ∧ (base.core base.co.ident.core).latch = [] ∧
      (coreS fun k => { k with token := laneBit base.co.ident.slot }).ownsToken = true) ∧
    (modeBad (BitVec.ofNat 64 (9 * 2 ^ 15))).isSome = true ∧ (modeBad 0xFC0).isNone = true ∧
    ((guarded .h).vf 0).lock = false ∧ (vfLocked.vf 0).lock = true ∧ vfLocked.dev.vfsel = 0 ∧
    (vfLocked.vf 0).quads = BitVec.allOnes 64 ∧ (31 < (32 : Dword).toNat ∧ 71 < (72 : Dword).toNat) ∧
    (base.enBad 0 false = false ∧ (1 : Dword).getLsbD 0 = true) ∧
    (((List.range 32).all fun k => !((guarded .h).vf k).lock) = true ∧ (guarded .h).dev.cmxsel = 0) ∧
    (0 < 64 ∧ (vfLocked.vf 0).quads.getLsbD 0 = true ∧ vget vfLocked.dev.cmxrow 0 ≠ 1) := by decide +kernel

/-- The last word of an offset, with planes left, with nothing recorded, with a result outstanding, at the end of a run with none;
with a cause, with a lane whose register is in error, the clock stable and changing. -/
theorem witness_WordsEnd :
    base.co.issue.todo = [] ∧ base.co.issue.traps = [] ∧ base.co.issue.bare = none ∧ base.co.issue.wait ≠ .tret ∧
    base.co.issue.newS2 = [] ∧ base.co.issue.bad = [] ∧ base.co.issue.marked = false ∧ base.co.issue.ends = false ∧
    base.co.issue.deferred = [] ∧ base.co.issue.spill = [] ∧ base.co.issue.refill = [] ∧ base.co.issue.wait = .none ∧
    base.co.traps.ecc = [] ∧ base.co.traps.eccBare = none ∧ base.co.regs.bad = [] ∧
    (base.modCo fun c => { c with issue := { c.issue with deferred := [.greg 1 0] } }).co.issue.deferred ≠ [] ∧
    (base.modCo fun c => { c with issue := { c.issue with bad := [(31, causeWord cEcc 4)] } }).co.issue.bad ≠ [] ∧ (base.modCo fun c => { c with issue := { c.issue with todo := [3] } }).co.issue.todo = 3 :: [] ∧
    (let s := trapped base [(31, causeWord cPriv 7)] 0
     s.co.issue.traps ≠ [] ∧ s.co.issue.deferred = [] ∧ s.co.issue.spill = [] ∧ s.co.issue.refill = [] ∧
       (s.quad (s.co.ident.core / 4)).changing = false ∧
       ((s.modQuad 0 fun q => { q with changing := true }).quad (s.co.ident.core / 4)).changing = true) := by decide +kernel

/-- A load all of whose bytes are known, the two registers of a 64-bit one, a byte that is missing, at a home in error and not;
a destination of no lane and of lanes. -/
theorem witness_ParkLands : (base.poisoned (homeScr 0 0x40C) 1 = false ∧ base.co.snap? (granule (homeScr 0 0x40C)) = none ∧
      ({ base with dev := { base.dev with poison := [homeScr 0 0x40C] } } : State).poisoned (homeScr 0 0x40C) 1 = true ∧
      0 < [(none : Option Byte)].length ∧ [(none : Option Byte)].getD 0 none = none ∧
      (LoadDest.group 5 0).lanes = 0 ∧ (LoadDest.lane 4 5 31 true).lanes ≠ 0) ∧
    (∀ i, i < [some (0x80 : Byte), some 0xFF].length → [some (0x80 : Byte), some 0xFF].getD i none ≠ none) ∧
    2 ^ (8 * 2 - 1) ≤ leNat (([some (0x80 : Byte), some 0xFF] : List (Option Byte)).map fun o => o.getD 0) ∧ 255 % 256 ≠ 254 % 256 := by
  decide +kernel

/-- The placed coach with an entry in its buffer. -/
def buffered (l : List WEntry) : State := base.modCo fun c => { c with wbuf := l }
/-- Eight bytes for an address. -/
def entry (id a : Nat) (atCore : Bool) : WEntry := { id := id, addr := a, bytes := leBytes 8 0x1122334455667788, atCore := atCore }
/-- The placed coach with a load of a word of the scratchpad outstanding. -/
def loading : State := base.modCo fun c => { c with issue := { c.issue with
  deferred := [.load (.lane 4 5 31 true) (homeScr 0 0x40C) (List.replicate 4 none) (causeAddr cEcc 0x40C)] } }
/-- The placed coach in a phase. -/
def phased (p : Phase) (n : Nat) : State := base.modCo fun c => { c with issue := { c.issue with phase := p, count := n } }

/-- A fetch that fails, an offset below 0 and at the limit, an undecodable word, the run limit, a park with nothing due, a held
trap, a coach the port chooses, entries on their way and at their end, a load's granule. -/
theorem witness_IssueSteps :
    (∃ k u, (base.modCo fun c => { c with issue := { c.issue with off := 64 } }).fetchOffset = (u, .error k)) ∧
    (base.modCo fun c => { c with issue := { c.issue with off := -1 } }).co.issue.off < 0 ∧ (base.co.segs.lim : Int) ≤ 64 ∧
    decode 0x1000_000A = .error .minor ∧ (phased .issuing 24).co.issue.open_ = false ∧ 24 ≤ (phased .issuing 24).co.issue.count ∧
    (phased .issuing 24).co.issue.deferred = [] ∧
    (let s := (phased .issuing 24).modCo fun c => { c with issue := { c.issue with deferred := [.greg 1 0] } }
     s.co.issue.phase = .issuing ∧ s.co.issue.open_ = false ∧ 24 ≤ s.co.issue.count ∧ s.co.issue.deferred ≠ []) ∧
    (let s := (phased .parked 3).modCo fun c => { c with issue := { c.issue with deferred := [.greg 1 0] } }
     s.co.issue.phase = .parked ∧ s.co.traps.held = false ∧ s.landAll.co.traps.ecc = [] ∧ s.landAll.co.traps.eccBare = none ∧
       s.co.issue.traps = [] ∧ s.co.issue.bare = none ∧ (∀ d ∈ s.co.issue.deferred, d.unread = false) ∧
       s.co.issue.spill = [] ∧ s.co.issue.refill = [] ∧ s.co.issue.wait = .none ∧ (s.quad (s.co.ident.core / 4)).changing = false) ∧
    (let s := (phased .parked 3).modCo fun c => { c with traps := { c.traps with held := true } }
     s.co.issue.phase = .parked ∧ s.co.traps.held = true ∧ (s.quad (s.co.ident.core / 4)).changing = false ∧
       ((s.modQuad 0 fun q => { q with changing := true }).quad (s.co.ident.core / 4)).changing = true) ∧
    (let s := (phased .parked 3).modCo fun c => { c with issue := { c.issue with deferred := [.greg 1 0] }, preempt := { c.preempt with pending := true } }
     s.co.issue.deferred ≠ [] ∧ s.co.preempt.pending = true ∧ s.co.ident.level = 0 ∧ s.co.preempt.atSave = false ∧ s.co.issue.rex = none) ∧
    ((phased .ready 0).coaches = [] ∧ (phased .ready 0).co.issue.phase = .ready ∧ (phased .ready 0).co.preempt.atSave = false ∧
      ((phased .ready 0).quad ((phased .ready 0).co.ident.core / 4)).changing = false) ∧
    ((buffered [entry 7 (homeWin 0x20000) false]).co.wbuf = entry 7 (homeWin 0x20000) false :: [] ∧
      isGlobal (homeWin 0x20000) = true ∧ isGlobal (homeScr 0 0x400) = false ∧ isHost (homeScr 0 0x400) = false) ∧
    (∃ d ∈ loading.co.issue.deferred, d.needs (granule (homeScr 0 0x40F)) = true) ∧
    loading.poisoned (granule (homeScr 0 0x40F)) 4 = false ∧ loading.co.snap? (granule (homeScr 0 0x40F)) = none ∧
    loading.co.present = true := by
  refine ⟨⟨_, _, pair_of_snd (b := Except.error (causeWord cProt 64)) ?_⟩, ?_⟩
  all_goals decide +kernel

/-- Closes a group of tests, as Group1 does. -/
inductive Group9 | done

/-- Entries for each home with its scope, and a dirty host copy of the coach's address space. -/
theorem witness_PublishResults :
    Memory.wf (buffered [entry 7 (homeScr 0 0x400) false, entry 8 (homeQm 0 0) false, entry 9 (homeWin 0x20000) false,
      entry 10 (homePod 0 0) false]).mem = true ∧
    isScr (homeScr 255 0) = true ∧ isQm (homeQm 0 0) = true ∧ isGlobal (homeWin 0x20000) = true ∧ isPod (homeWin 0x20000) = false ∧
    isPod (homePod 0 0) = true ∧
    (let s := { base with hostCopies := [{ addr := homeHost 0 0x100, word := 5, dirty := true, owners := [(0, 0)] }] }
     let u := s.publish 4
     (∃ h ∈ u.hostCopies, h.dirty = true ∧ s.owner ∈ h.owners ∧
       ∀ k ∈ u.hostCopies, k.addr + 4 ≤ h.addr ∨ h.addr + 4 ≤ k.addr ∨ k = h)) := by decide +kernel

/-- Two coaches of a rake, both arrived and waiting at quad scope. -/
def gathered : State :=
  let s := base.modCo fun c => { c with
    issue := { c.issue with phase := .waiting, wait := .barrier 2 }, pendb := 4 }
  { s with coaches := [{ s.co with ident := { s.co.ident with id := 90, cidx := 1, slot := 1 } }] }

/-- A shading coach; a coach with nothing pending at the scope; and a generation at which every participant has arrived. -/
theorem witness_BarrierResults :
    (base.modCo fun c => { c with ident := { c.ident with level := 1 } }).co.ident.level ≠ 0 ∧ base.co.ident.level = 0 ∧
    base.co.pendb.getLsbD (2#3).toNat = false ∧
    (∃ h, gathered.haul? gathered.co.ident.haul = some h ∧
    gathered.co.present = true ∧ ((gathered.co :: gathered.coaches).map fun c => c.ident.id).Nodup ∧ gathered.co.arrived 2 = true ∧
      h.takesPart 2 gathered.co gathered.co = true ∧ (∀ k ∈ gathered.allCoaches, h.takesPart 2 gathered.co k = true →
        k.arrived 2 = true ∧ k.issue.phase = .waiting ∧ k.issue.wait = .barrier 2 ∧ k.traps.ecc = [] ∧ k.traps.eccBare = none) ∧
      (∀ k ∈ gathered.allCoaches, h.takesPart 2 gathered.co k = true → (gathered.quad (k.ident.core / 4)).changing = false) ∧
      (∀ k ∈ h.savedCoaches, h.takesPart 2 gathered.co k = true → k.arrived 2 = true) ∧ ((2#3).toNat < 4 ∨ h.hdr.rakes ≤ h.nextRake)) ∧
    (2#3 : BitVec 3) ≠ 0 ∧ (2#3 : BitVec 3) ≠ 3 := by
  refine ⟨?_, ?_, ?_, ⟨placedHaul (base.co.ident.haul), ?_⟩, ?_⟩
  all_goals decide +kernel

/-! ### Witnesses: views -/

/-- The bytes of words. -/
def words (l : List Word) : List Byte := l.flatMap wordBytes
/-- A descriptor of a view of resolution res, with HITW words and, with sh, shading words by code in the host window; the
camera and the scene stand behind it. -/
def descBytes (res : Nat) (sh : Bool) : List Byte :=
  leBytes 8 (winBase + 0x20040) ++ leBytes 8 (winBase + 0x20080) ++ leBytes 8 1 ++
    (if sh then leBytes 8 (winBase + 0x10000) ++ leBytes 4 3 ++ leBytes 4 8 else leBytes 16 0) ++
    [BitVec.ofNat 8 res, if sh then 2 else 0, 2, 0] ++ leBytes 4 0 ++ words [0xAA, 0x7F80_0000] ++ leBytes 8 (if sh then 77 else 0)
/-- A pinhole camera at the origin that looks along z, and a scene of one of each. -/
def cameraBytes : List Byte :=
  words [0, 0, 0, 0, 0, 0x3F80_0000, 0x3F80_0000, 0, 0, 0, 0x3F80_0000, 0, 0, 0x3F80_0000, 0, 0x7F80_0000]
def sceneBytes : List Byte :=
  leBytes 4 0x4B42_4353 ++ leBytes 4 1 ++ leBytes 4 1 ++ leBytes 4 1 ++ leBytes 24 0 ++ leBytes 4 1 ++ leBytes 4 0 ++ leBytes 8 0 ++
    leBytes 4 1 ++ leBytes 4 0
/-- A lift of two request slots. -/
def oneLift : LiftDesc := { reqs := 2, scoach := 1, spregs := 64, srstk := 16, sscr := 0x100, sspill := 0 }
/-- A haul with it. -/
def lifting : State :=
  let s : State := { base with hauls := base.hauls.map fun h => { h with lifts := [oneLift] } }
  s.modQuad 0 fun q => { q with lifts := [{ level := 1, free := 2, fifo := [], shade := [0], serving := [] }] }
/-- The records placed, the descriptor's address in g1. -/
def viewing (res : Nat) (sh : Bool) : State :=
  withG (((lifting.wr (homeWin 0x20000) (descBytes res sh)).wr (homeWin 0x20040) cameraBytes).wr (homeWin 0x20080) sceneBytes) 1
    (BitVec.ofNat 64 (winBase + 0x20000))
/-- A request of the placed coach with 2 by 2 pixels. -/
def request (sh : Bool) : ViewReq :=
  { lifting.viewReq 40 8 (ViewDesc.ofBytes (descBytes 0 sh)) (Camera.ofBytes cameraBytes) (Scene.ofBytes sceneBytes) none 4 none with
    started := true, tile := [1, 2, 3, 4] }
/-- The device with a request; its ticket in g1. -/
def requested (v : ViewReq) : State :=
  let s := (viewing 0 true).modCo fun c => { c with tickets := [{ slot := 0, dword := 4, req := 40, tile := none }], tcount := 1 }
  withG (({ s with views := [v] } : State).modQuad 0 fun q => { q with
    lifts := [{ level := 1, free := 1, fifo := [40], shade := [0], serving := [40] }] }) 1 4
/-- The placed coach shading that request. -/
def shading : State := (requested (request true)).modCo fun c => { c with ident := { c.ident with level := 1, view := some (40, 0) } }

/-- VIEW with no slot left for a fifth ticket, a descriptor that cannot be read, one that breaks its rules, one refused, one
accepted; VIEWL with a resolution too high. -/
theorem witness_ViewWordResults_issue :
    4 ≤ (base.modCo fun c => { c with tickets := List.replicate 4 { slot := 0, dword := 4, req := 40, tile := none } }).co.tickets.length ∧
    (base.publish 4).co.tickets.length < 4 ∧ (((base.publish 4).residentAccess .load 8 64).2 = .error (causeAddr cMisal 8)) ∧
    base.co.issue.bad = [] ∧
    (base.modCo fun c => { c with issue := { c.issue with bad := [(31, causeWord cEcc 4)] } }).co.issue.bad ≠ [] ∧
    (let u := (viewing 0 false).publish 4
     (u.viewRecord (winBase + 0x20000)).2 = some (descBytes 0 false) ∧ viewBad (descBytes 0 false) = false ∧
       viewBad (descBytes 4 false) = true ∧ viewBad (descBytes 3 true) = false ∧ 1 < (ViewDesc.ofBytes (descBytes 2 false)).res ∧
       base.viewRefusal (ViewDesc.ofBytes (descBytes 0 false)) none = some 2 ∧
       u.viewRefusal (ViewDesc.ofBytes (descBytes 0 false)) none = none ∧
       u.viewRefusal (ViewDesc.ofBytes (descBytes 1 false)) (some []) = some 1) := by decide +kernel
theorem witness_ViewWordResults_records :
    (let u := (viewing 0 false).publish 4
     (u.viewRecord (ViewDesc.ofBytes (descBytes 0 false)).cam).2 = some cameraBytes ∧ cameraBad cameraBytes = false ∧
       cameraBad sceneBytes = true ∧ (u.viewRecord (ViewDesc.ofBytes (descBytes 0 false)).scene).2 = some sceneBytes ∧
       sceneBad sceneBytes = false ∧ sceneBad cameraBytes = true) := by decide +kernel

/-- A dword that is no ticket, one that is; a coach that shades nothing, one that shades with one word a pixel, all its lanes
beyond the tile but four; levels 0, 1, 2, 4 and 5. -/
theorem witness_ViewWordResults :
    (∀ k ∈ base.co.tickets, k.dword ≠ 4) ∧ (∃ k ∈ (requested (request true)).co.tickets, k.dword = 4 ∧ k.tile = none) ∧
    (requested (request true)).view? 40 = some (request true) ∧ base.shading = none ∧ shading.shading = some (request true, 0) ∧
    (request true).desc.out1 = 0 ∧ (request true).place (32 * 0 + 3) 0 < (request true).tile.length ∧
    (request true).place (32 * 0 + 31) 0 = 31 ∧ shading.co.active.getLsbD 3 = true ∧ 4 < (5#6).toNat ∧ base.co.special.nbound < (2#6).toNat ∧
    ((requested (request true)).lift? (0 / 4) (1#6).toNat).isSome = true := by decide +kernel

/-- No byte of that device is in error. -/
theorem requested_clean (v : ViewReq) (x len : Nat) : (requested v).poisoned x len = false := by
  have h : (viewing 0 true).dev.poison = [] ∧ (viewing 0 true).dev.lost = [] := by decide +kernel
  have d : (requested v).dev = (viewing 0 true).dev := rfl
  simp [State.poisoned, d, h.1, h.2]

/-- Closes a group of tests, as Group1 does. -/
inductive Group10 | done

/-- A head whose slots are free, a request started, one traversed with a shading coach to launch, the oldest ticket complete
and waited for. -/
theorem witness_ViewSteps :
    (requested (request true)).poisoned (Config.fifoAt 40) 8 = false ∧ ((requested (request true)).quad 0).changing = false ∧
    (∃ l, (requested (request true)).lift? 0 1 = some l ∧ l.fifo = 40 :: [] ∧ (request true).slots ≤ l.free ∧
      l.serving.head? = some (request true).id ∧ 0 ∈ l.shade) ∧
    (requested (request true)).view? 40 = some (request true) ∧ (request true).started = true ∧ (request true).traversed = false ∧
    (let v := { request true with traversed := true, status := 1 }
     let s := requested v
     v.launched < v.ncoach ∧ (s.hauls.all fun h => h.id == v.haul && h.ended.isNone && h.lifts.length == 1) = true ∧
       31 ∈ s.freeSlots (4 * v.quad + 0 % 4) ∧ (s.quad v.quad).changing = false ∧ Memory.wf s.mem = true) ∧
    (let v := { request true with traversed := true, status := 1, retired := 1 }
     let s := (requested v).modCo fun c => { c with issue := { c.issue with phase := .waiting, wait := .vwait 4 5 } }
     s.co.issue.wait = .vwait 4 5 ∧ v.complete = true ∧ (s.quad (s.co.ident.core / 4)).changing = false ∧ s.co.traps.ecc = [] ∧ s.co.traps.eccBare = none ∧ v.lanes = none ∧
       s.co.tickets = { slot := 0, dword := 4, req := 40, tile := none } :: [] ∧ s.view? 40 = some v ∧
       v.d.toNat + v.desc.words * ((v.desc.pixels + 31) / 32) ≤ 64 ∧ s.co.regs.preg ≤ 256) := by
  refine ⟨requested_clean _ _ _, by decide +kernel, ⟨_, (rfl : (requested (request true)).lift? 0 1 = some { level := 1, free := 1, fifo := [40], shade := [0], serving := [40] }), ?_⟩, ?_⟩
  all_goals decide +kernel

/-! ### Witnesses: tasks -/

/-- Where the TCB stands, and its home. -/
def tcbVa : Nat := winBase + 0x20000
def tcbHome : Nat := homeWin 0x20000
/-- The header of a haul image of one rake of 32 lanes. -/
def imageBytes : List Byte :=
  leBytes 4 0x3442_475A ++ [1, 0, 1, 2] ++ leBytes 8 (winBase + 0x10000) ++ leBytes 4 64 ++ leBytes 4 0 ++ leBytes 8 0 ++ leBytes 4 1 ++
    leBytes 2 32 ++ leBytes 2 64 ++ leBytes 4 0x881 ++ leBytes 4 0x400 ++ leBytes 4 0x1000 ++ leBytes 4 0x400 ++ leBytes 2 0x80 ++
    leBytes 2 1
/-- A TCB of an image behind it, with a status, flags, predecessors and successors. -/
def tcbBytes (status flags pred nsucc : Nat) : List Byte :=
  leBytes 1 status ++ leBytes 1 flags ++ leBytes 2 0 ++ leBytes 4 pred ++ leBytes 8 (winBase + 0x21000) ++ leBytes 4 nsucc ++ leBytes 4 0 ++
    leBytes 8 (winBase + 0x30000) ++ leBytes 8 0xFFFF_FFFF_FFFF_FFFF ++ leBytes 24 0
/-- The device with that TCB, its address in g9, held as the device holds it. -/
def tasked (status flags pred nsucc : Nat) (held : List Held) : State :=
  let s := (base.wr tcbHome (tcbBytes status flags pred nsucc)).wr (homeWin 0x30000) imageBytes
  let s := s.wr (homeWin 0x21000) (leBytes 8 tcbVa ++ leBytes 8 (tcbVa + 64))
  (withG s 9 (BitVec.ofNat 64 tcbVa)).modVf 0 fun v => { v with tasks := held, ready := held.map fun h => (h.tcb, 2) }
/-- How the device holds it. -/
def holds (spec : Bool) : Held := { tcb := tcbHome, pasid := 0, asid := 0, ptroot := 0, vaddr := tcbVa, spec := spec, committed := false }
/-- The same with the haul of the coach running it, as a speculative task or not. -/
def runsTask (spec released : Bool) : State :=
  let s := tasked 2 (if spec then 1 else 0) 0 2 [holds spec]
  { s with hauls := s.hauls.map fun h => { h with tcb := some tcbHome, spec := spec, released := released } }

/-- A TCB off its alignment, one below the window's 64 KiB, one not mapped, one of a speculative issuer; a TCB not held, held,
breaking its rules, with predecessors and without. -/
theorem witness_TaskWordResults :
    (8 : Nat) % 64 ≠ 0 ∧ (base.translate { base.ctx with spec := none } .store winBase).2 = .prot ∧ winBase % 64 = 0 ∧
    ((mapped 0x1F).translate { (mapped 0x1F).ctx with spec := none } .store 0x40_0000).2 = .absent 0x1F#64 26 ∧
    (base.translate { base.ctx with spec := none } .store tcbVa).2 = .found tcbHome 0x3F#64 23 ∧
    ((poisonAt 0x23_0008 (paged 0x40_003F)).translate { (paged 0x40_003F).ctx with spec := none } .store 0x8000).2 = .ecc ∧
    (runsTask true false).ctx.spec.isSome = true ∧ ((tasked 0 0 0 2 []).tcbAccess 9).2 = some tcbHome ∧
    isHost (tcbHome + 63) = false ∧ Memory.wf (tasked 0 0 0 2 []).mem = true ∧ ((tasked 0 0 0 2 [holds false]).held? 0 tcbHome).isSome = true ∧
    ((tasked 0 2 0 2 []).publish 4).tcbBad tcbHome = true ∧ ((tasked 0 0 1 2 []).publish 4).rdNat (tcbHome + 4) 4 = 1 := by decide +kernel

/-- A TCB without a speculative task under it, and one with. -/
theorem witness_TaskWordResults_ends :
    ((tasked 0 0 0 2 []).specHaul 0 tcbHome).isNone = true ∧
    (let s := tasked 2 1 0 0 [holds true]
     let s : State := { s with hauls := s.hauls ++ [{ placedHaul 777 with tcb := some tcbHome, spec := true }] }
     (s.tcbAccess 9).2 = some tcbHome ∧ (s.specHaul 0 tcbHome).isSome = true) := by decide +kernel

/-- A coach without a haul, with one under no task, released, speculative, and a task with two successors; a successor waiting
for two, for one, not waiting; the head of a ready list. -/
theorem witness_TaskReleases :
    ({ base with hauls := [] } : State).haul? base.co.ident.haul = none ∧
    (runsTask false true).haul? base.co.ident.haul =
      some { placedHaul base.co.ident.haul with tcb := some tcbHome, released := true } ∧
    (runsTask true false).haul? base.co.ident.haul = some { placedHaul base.co.ident.haul with tcb := some tcbHome, spec := true } ∧
    (let u := (runsTask false false).publish 4
     u.holdsEvent u.co = false ∧ u.peekNat (tcbHome + 0x10) 4 = 2 ∧
       (u.readVa (u.releaseCtx { placedHaul base.co.ident.haul with tcb := some tcbHome } 0) (u.peekNat (tcbHome + 8) 8) 16).2 =
         .ok (leBytes 8 tcbVa ++ leBytes 8 (tcbVa + 64))) ∧
    (base.translate { base.haulCtx (placedHaul 2) with port := 0 } .store tcbVa).2 = .found tcbHome 0x3F#64 23 ∧
    tcbVa % 64 = 0 ∧ base.poisoned tcbHome 64 = false ∧
    ({ base with dev := { base.dev with poison := [tcbHome + 60] } } : State).poisoned tcbHome 64 = true ∧
    (tasked 0 0 2 0 [holds false]).rdNat (tcbHome + 4) 4 = 2 ∧ (tasked 3 0 0 0 [holds false]).rdNat tcbHome 1 = 3 ∧
    (tasked 1 2 0 0 [holds false]).tcbBad tcbHome = true ∧ (tasked 1 0 0 0 [holds false]).tcbBad tcbHome = false ∧
    (let s := tasked 1 0 0 0 [holds false]
     let s : State := { s with dev := { s.dev with leader := some (0, 0) } }
     (s.vf 0).ready = (tcbHome, 2) :: [] ∧ s.leads = true ∧ (s.vf 0).blackout = none ∧ (s.vf 0).flrb = false ∧ s.held? 0 tcbHome = some (holds false)) := by
  decide +kernel

/-- A TCB in device memory, its page mapped at 0x8000 of the coach's address space. -/
def taskedAt : State := withG ((paged 0x40_003F).wr 0x40_0100 (tcbBytes 0 0 0 2)) 9 0x8100
/-- The status that a controller's reading of an image ends with; 0 where the image is sound. -/
def imageStatus (s : State) (x : Ctx) (a : Nat) : Nat :=
  match (s.readImage (launchReader x) a).2 with
  | .ok _ => 0
  | .error e => e

/-- TSPEC: the leader reads a sound image, one that is not, a TCB that its port does not reach; a task dispatched so; an entry of a
set that TCOMMIT may write and one it may not. -/
theorem witness_TaskStarts :
    (let u := tasked 0 0 0 2 []
     let h := u.newHeld tcbHome tcbVa true
     let w := (u.unhold 0 tcbHome).hold 0 h
     let x := w.heldCtx 0 h
     w.portSees x.port tcbHome = true ∧ w.poisoned tcbHome 64 = false ∧ (poisonAt tcbHome w).poisoned tcbHome 64 = true ∧
       imageStatus w x (w.peekNat (tcbHome + 0x18) 8) = 0 ∧ imageStatus w x tcbVa = 1 ∧
       (∀ k ∈ u.hauls, k.id ≠ u.nextId) ∧ u.co.ident.haul ≠ u.nextId) ∧
    (let s := shut 65 taskedAt
     let x := s.heldCtx 0 (s.newHeld 0x40_0100 0x8100 true)
     (s.tcbAccess 9).2 = some 0x40_0100 ∧ isHost (0x40_0100 + 63) = false ∧ (s.publish 4).tcbBad 0x40_0100 = false ∧
       (s.publish 4).rdNat 0x40_0100 1 < 2 ∧ x.port = 65 ∧ s.portSees 65 0x40_0100 = false ∧ Memory.wf s.mem = true) ∧
    (let s := tasked 1 0 0 0 [holds false]
     let u := s.modVf 0 fun v => { v with ready := [] }
     let x := u.heldCtx 0 (holds false)
     s.portSees x.port tcbHome = true ∧ s.poisoned tcbHome 64 = false ∧ s.tcbBad tcbHome = false ∧
       imageStatus u x (s.peekNat (tcbHome + 0x18) 8) = 0 ∧ imageStatus u x 8 = 1) := by decide +kernel

/-- TCOMMIT of a task that names a set whose entry the quad's port reaches, and does not. -/
theorem witness_TaskWordResults_sets :
    (let s := (tasked 2 1 0 0 [holds true]).modVf 0 fun v => { v with psets := [pset 0] }
     let h : Haul := { placedHaul 777 with tcb := some tcbHome, spec := true, psets := [5] }
     let s : State := { s with hauls := s.hauls ++ [h] }
     (s.tcbAccess 9).2 = some tcbHome ∧ s.specHaul 0 tcbHome = some h ∧ h.psets = [] ++ 5 :: [] ∧ s.pset? 0 5 = some (pset 0) ∧
       s.portSees s.ctx.port (pset 0).entry = true ∧ (shut 0 s).portSees s.ctx.port (pset 0).entry = false) := by decide +kernel

/-- Closes a group of tests, as Group1 does. -/
inductive Group11 | done

/-! ### Witnesses: coaches, rakes and hauls -/

/-- The device with its haul changed. -/
def hauled (f : Haul → Haul) : State := { base with hauls := base.hauls.map f }
/-- Its haul with a header changed. -/
def Haul.hd (f : Header → Header) (h : Haul) : Haul := { h with hdr := f h.hdr }
/-- The haul of the placed coach. -/
def hid : Nat := base.co.ident.haul
/-- A second haul whose rake 0 waits. -/
def second : Haul := { placedHaul 700 with nextRake := 0 }
/-- The device at a time, leading, without its coach, the haul's rakes done. -/
def doneState (leads : Bool) (record signal : Nat) : State :=
  let s := hauled fun h => { h with rakesDone := 1, record := record, signal := signal }
  { s with co := coachNone, rakes := [], dev := { s.dev with time := 500, leader := if leads then some (0, 0) else none } }

/-- The last coach of a rake and one of two, shading, with a bank. -/
theorem witness_RakesAndHauls_coach :
    (let s := (phased .retiring 0).modCore 0 fun k => { k with banks := [(0, base.co.ident.id), (1, 99)] }
     s.co.issue.phase = .retiring ∧ (s.quad (s.co.ident.core / 4)).changing = false ∧ s.co.tickets = [] ∧ s.arrayBusy s.co.ident.core s.co.ident.id = false ∧ s.co.ident.level = 0 ∧
       s.co.special.gang.toNat % 8 = 0 ∧ s.co.ident.id ≠ 0 ∧ (∀ k ∈ s.coaches, k.ident.id ≠ s.co.ident.id) ∧
       (s.hauls.all fun h => h.id != s.co.ident.haul || h.saved.isEmpty) = true) ∧
    (∃ k ∈ gathered.coaches, k.of gathered.co.ident.haul gathered.co.ident.rake = true) ∧
    (shading.co.ident.level ≠ 0 ∧ shading.co.special.posted.toNat ≤ shading.co.special.pgc.toNat ∧
      shading.co.ident.view = some (40, 0) ∧ shading.view? 40 = some (request true)) := by decide +kernel

/-- A haul whose rakes are done, with and without a controller, its record in the host window; one that was ended. -/
theorem witness_RakesAndHauls_haul :
    (let s := doneState true (winBase + 0x20000) 0
     (s.haul? hid).any (fun h => h.id == hid && !h.retired && h.ended.isNone && decide (h.hdr.rakes ≤ h.rakesDone) && !h.silent &&
       h.saving.isNone && h.record % 64 == 0 && h.record != 0 && h.signal == 0 && h.tcb.isNone && h.packet.isNone) = true ∧
     s.drayBusy (fun c => c.haul == hid) = false ∧ s.viewsLeft hid = false ∧ s.leads = true ∧ (s.vf 0).flrb = false ∧
     Memory.wf s.mem = true ∧ s.poisoned (homeWin 0x20000) 8 = false ∧
     (s.translate (s.haulCtx (placedHaul hid)) .store (winBase + 0x20000)).2 = .found (homeWin 0x20000) 0x3F#64 23 ∧
     isHost (homeWin 0x20000) = false) ∧
    (doneState false 0 0).leads = false ∧
    (let s := hauled fun h => { h with ended := some (4, 0, 0) }
     (s.haul? hid).any (fun h => h.ended == some (4, 0, 0) && !h.retired) = true ∧ s.drayBusy (fun c => c.haul == hid) = false ∧
       s.arraysBusy hid = false) := by decide +kernel

/-- A rake that has room on a quad beside another, next in the queue, its coach in the last slot. -/
def roomy : State := hauled fun h => Haul.hd (fun d => { d with rakes := 2 }) h
theorem witness_RakesAndHauls_place :
    (roomy.haul? hid).any (fun h => h.id == hid && h.saved.isEmpty && roomy.room h 1 0 3 && roomy.isNext h 1 0 &&
      roomy.slotsOk (h.coachesToSeat 1 roomy.fresh) 0 3 [31]) = true ∧ Memory.wf roomy.mem = true := by decide +kernel

/-- A victim with a rake of its haul and of another waiting; a rake waiting for long; a drained quad; a shared quad with a
haul and without. -/
def sliced (own : Bool) : State :=
  let s := hauled fun h => Haul.hd (fun d => { d with rakes := if own then 2 else 1 }) h
  { s with dev := { s.dev with time := 0x1_0000_0000 }, hauls := if own then s.hauls else s.hauls ++ [second] }
def sharing (held : Bool) : State :=
  let s := sliced false
  let s : State := { s with hauls := s.hauls.map fun h => if h.id = 700 then { h with vf := 1 } else h }
  let s := (s.modVf 0 fun v => { v with shr := true }).modVf 1 fun v => { v with shr := true, en := true, quads := 1 }
  if held then s else s.modQuad 0 fun q => { q with haul := none }
theorem witness_RakesAndHauls_schedule :
    ((sliced true).victim 0).isSome = true ∧ (sliced true).swapIn ((sliced true).quad 0).vf ≠ [] ∧
    ((sliced false).victim 0).any (fun v => ((sliced false).swapIn 0).all fun w => w.haul != v.haul) = true ∧
    ((sliced false).swapIn 0 ≠ []) ∧
    ((sliced true).haul? hid).any (fun h => (sliced true).runs h && (h.waiting.find? fun w => w.rake == 1).any fun w =>
      !w.front && decide (w.since + 8 * h.hdr.sliceUs * 100 < (sliced true).dev.time.toNat)) = true ∧
    ((doneState true 0 0).quad 0).haul = some hid ∧ (doneState true 0 0).drained 0 hid = true ∧
    (let s := sharing true
     (s.vf 0).shr = true ∧ (s.quad 0).vf = 0 ∧ 2000 * 100 ≤ (s.dev.time - (s.quad 0).vfSince).toNat ∧ s.lists 1 0 = true ∧
       (s.vf 1).shr = true ∧ s.swapIn 1 ≠ [] ∧ ((List.range 32).all fun m => m == 0 || m == 1 || !s.lists m 0) = true ∧
       (s.quad 0).haul ≠ none) ∧ ((sharing false).quad 0).haul = none := by decide +kernel

/-- The placed device whose haul a command saves, whose VF is to be locked, whose quad drains, with nothing of this. -/
def asking : State := hauled fun h => { h with saving := some (0, 0) }
/-- A request's sources, one at a time, and none; a request past its deadline, at a coach that re-executes an offset and one
that does not. -/
theorem witness_RakesAndHauls_requests :
    (asking.haul? hid).any (fun h => h.saving.isSome) = true ∧ (asking.rake? hid 0).isSome = true ∧
    ((base.modVf 0 fun v => { v with locking := some 7 }).vf 0).locking.isSome = true ∧
    ((base.modQuad 0 fun q => { q with draining := true }).quad 0).draining = true ∧
    (base.haul? hid).any (fun h => h.saving.isNone) = true ∧ (base.vf 0).locking = none ∧ (base.quad 0).draining = false ∧
    base.swapIn (base.quad 0).vf = [] ∧
    (let s := base.modCo fun c => { c with preempt := { c.preempt with pending := true, since := 0 } }
     let s : State := { s with dev := { s.dev with time := 0x1_0000_0000 } }
     s.co.preempt.pending = true ∧ s.co.preempt.atSave = false ∧ s.co.issue.rex = none ∧ s.co.of hid 0 = true ∧
       (s.haul? hid).any (fun h => decide (h.hdr.deadlineUs * 100 ≤ (s.dev.time - s.co.preempt.since).toNat)) = true ∧
       (s.modCo fun c => { c with issue := { c.issue with rex := some 1 } }).co.issue.rex ≠ none) := by decide +kernel

/-! ### Witnesses: power, errors, accesses from outside -/

/-- A quad of no coach in a power state. -/
def powered (p : Power) : State := base.modQuad 1 fun q => { q with power := p }

/-- PHINT with a range that ends at the program's scratchpad and one beyond; a request pending; TLBI in each mode. A clock at
each end of its range, stable and changing; a band selected and not; a quiet quad on, idle, gating, gated with work waiting;
a wake. -/
theorem witness_PowerSteps :
    (0x400 % 4 = 0 ∧ ¬ base.co.window.scrProg < 0x3FC + 4) ∧ base.co.window.scrProg < 0x400 + 4 ∧ base.co.preempt.pending = false ∧
    (guarded .s).co.traps.mode ≠ .u ∧ (guarded .s).co.traps.mode ≠ .h ∧ (∀ c ∈ (guarded .h).allCoaches, c.wbuf = []) ∧
    (600 ≤ 1900 ∧ 1900 ≤ 1900 ∧ 1900 % 25 = 0) ∧ (600 % 25 = 0 ∧ 600 < (base.quad 0).clock) ∧ (base.quad 0).changing = false ∧
    ((base.modQuad 0 fun q => { q with changing := true }).quad 0).changing = true ∧
    (3 < 4 ∧ (true, 4 * 0 + 3) ∉ base.dev.wakes ∧ (∀ op ∈ (base.core 0).queue, op.selects.getLsbD 3 = false) ∧
      400 ≤ ((400 : Dword) - vget (base.core 0).bandUsed 3).toNat) ∧
    ((base.quad 0).changing = false ∧ 600 < (base.quad 0).clock ∧ 1 ≤ 16) ∧
    (let s := coreS fun k => { k with gated := 8, queue := [.load [2] false (homeWin 0) { cfg := 0, asr := 8 }] }
     (∃ op ∈ (s.core 0).queue, op.selects.getLsbD 3 = true) ∧ (s.core 0).gated.getLsbD 3 = true) ∧
    (base.quiet 0 = false ∧ (base.quad 0).power = .on ∧ (powered .on).quiet 1 = true ∧ ((powered .on).quad 1).power = .on ∧
      ((powered .on).quad 1).idleFrom = none ∧ ((base.modQuad 1 fun q => { q with idleFrom := some 5 }).quad 1).idleFrom = some 5 ∧
      ((10004 : Dword) - 5).toNat < 10000 ∧ ¬ ((10005 : Dword) - 5).toNat < 10000 ∧
      ((powered .idle).quad 1).power = .idle ∧ ((powered .gating).quad 1).power = .gating) ∧
    ((base.modQuad 0 fun q => { q with power := .idle }).quiet 0 = false) ∧
    (let s := { powered .gated with hauls := base.hauls ++ [second] }
     (s.quad 1).power = .gated ∧ s.lists 0 1 = true ∧ s.swapIn 0 ≠ []) ∧
    ({ base with dev := { base.dev with wakes := [(true, 3), (false, 1)] } } : State).dev.wakes = (true, 3) :: [(false, 1)] := by
  decide +kernel

/-- Closes a group of tests, as Group1 does. -/
inductive Group12 | done

/-- The last unit of each kind, a load in flight, and addresses that the last units hold and that they do not. -/
theorem witness_ErrorSteps : (3 < 4 ∧ 1 < unitsOf 1 ∧ 3 < unitsOf 2 ∧ 15 < unitsOf 3 ∧ 63 < unitsOf 4 ∧ 15 < unitsOf 5 ∧ 63 < unitsOf 6 ∧
    0 < unitsOf 7 ∧ 1 < unitsOf 8) ∧ loading.co.present = true ∧
    (∃ x ∈ loading.co.issue.deferred, x.needs (granule (homeScr 0 0x40E)) = true) ∧
    (unitHolds 0 4 63 (homeScr 63 4194303) = true ∧ unitHolds 0 4 63 (homeScr 63 4194304) = false ∧
      unitHolds 0 5 15 (homeQm 15 0) = true ∧ unitHolds 0 5 15 (homeQm 14 0) = false ∧ unitHolds 3 6 0 (homeWin 0) = true ∧
      unitHolds 3 6 0 (homeScr 0 0) = false ∧ unitHolds 3 7 0 (devBytes - 1) = true ∧ unitHolds 3 7 0 0 = false ∧
      unitHolds 3 8 1 (devBytes - 1) = true ∧ unitHolds 3 8 0 (devBytes - 1) = false) := by decide +kernel

/-- The placed coach at its save point, with registers 0 and 9 live. -/
def saving : State := base.modCo fun c => { c with
  issue := { c.issue with phase := .ready }
  preempt := { pending := true, atSave := true, full := false, vlive := [0, 9], start := 0, len := 64, since := 0 } }
/-- A haul past its watchdog. -/
def expired : State :=
  { hauled fun h => Haul.hd (fun d => { d with watchdog := 1 }) { h with watchFrom := some 0 } with
    dev := { base.dev with time := 100001 } }

/-- A rake that a command saves, its first ticket complete and its second not. -/
def ticketed : State :=
  let v := { request true with traversed := true, status := 1, retired := 1 }
  let s : State := { saving with views := [v, { request true with id := 41 }], hauls := saving.hauls.map fun h => { h with saving := some (0, 0) } }
  s.modCo fun c => { c with tickets := [{ slot := 0, dword := 4, req := 40, tile := none }, { slot := 1, dword := 9, req := 41, tile := none }] }

/-- A haul one tick past its watchdog; a rake to save, with and without an error in its memory; a VF locked, to be locked, in a
blackout. -/
theorem witness_OutsideSteps_save :
    (expired.haul? hid).any (fun h => h.hdr.watchdog != 0 && decide (h.hdr.watchdog * 100000 < expired.watched h) && h.ended.isNone &&
      !h.retired && decide (h.rakesDone < h.hdr.rakes)) = true ∧
    (saving.haul? hid).any (fun h => saving.savable h 0 (saving.coachesOf h.id 0) && h.ended.isNone) = true ∧
    (let s := ticketed
     (s.haul? hid).any (fun h => h.saving.isSome && h.ended.isNone && (s.coachesOf h.id 0).all Coach.stopped &&
       !s.savable h 0 (s.coachesOf h.id 0)) = true ∧ (s.rake? hid 0).isSome = true ∧
       (∃ k ∈ s.co.tickets, k.tile = none ∧ s.ticketDone k = true) ∧ (s.view? 40).isSome = true) ∧
    (saving.rake? hid 0).isSome = true ∧ (∀ c ∈ saving.allCoaches, c.wbuf = []) ∧ saving.co.present = true ∧
    ((saving.co :: saving.coaches).map fun c => c.ident.id).Nodup ∧
    (saving.haul? hid).any (fun h => (saving.rake? hid 0).any fun r => (saving.saveError h r [saving.co]).isNone &&
      (({ saving with dev := { saving.dev with poison := [homeQm 0 0xFFC] } } : State).saveError h r [saving.co]).isSome) = true ∧
    ((base.modVf 31 fun v => { v with lock := true }).vf 31).lock = true ∧ (base.vf 31).locking = none ∧
    (∀ r ∈ base.rakes, base.rakeOf 31 r = false) := by decide +kernel

/-- The last haul of a VF in its reset. -/
def resetting : State :=
  let s := (hauled fun h => { h with ended := some (5, 0, 0), silent := true }).modVf 0 fun v => { v with flrb := true }
  { s with co := coachNone, rakes := [] }
/-- A VF with a haul that runs and one without; a haul that ends silently, the last of its VF; a locked VF and one that is not. -/
theorem witness_OutsideSteps_function :
    (∃ h ∈ base.hauls, h.vf = 0 ∧ h.retired = false) ∧ (base.hauls.all fun h => h.vf != 1) = true ∧ Memory.wf resetting.mem = true ∧
    (let s := resetting
     (s.haul? hid).any (fun h => h.vf == 0 && !h.retired && h.ended.isSome && h.silent && h.saving.isNone) = true ∧
       (s.vf 0).flrb = true ∧ (s.hauls.all fun k => k.vf != 0 || k.retired || k.id == hid) = true ∧
       (s.drayBusy fun c => c.haul == hid) = false ∧ s.arraysBusy hid = false ∧ (∀ c ∈ s.allCoaches, c.wbuf = [])) ∧
    (vfLocked.vf 0).lock = true ∧ (base.vf 0).lock = false := by decide +kernel

/-- Ports that a row refuses and admits at the ends of device memory; a table page of a locked VF; a stub that takes a write; the
frames of a VF in its blackout and of one that has left; the ends of the window; a poisoned word. -/
theorem witness_OutsideSteps_access :
    base.portAllows 65 (devBytes - 1) = true ∧ base.portAllows 65 devBytes = false ∧ base.movingVf 0x40_0000 = none ∧
    (let s := (mapped 0x3F).modVf 0 fun v => { v with lock := true }
     s.tableLocked 0x11_0000 8 = true ∧ s.tableLocked 0x40_0000 8 = false) ∧
    (let s := (mapped 0x3F).modVf 0 fun v => { v with blackout := some (0, 0) }
     (s.vf 0).blackout.isSome = true ∧ (s.gpaOf 0 0x40_0008).isSome = true ∧ (s.vf 0).stub.length < 4096 ∧
       s.movingVf 0x40_0008 = some 0 ∧ s.portAllows 70 0x40_0008 = true ∧ 0x40_0008 < winBase) ∧
    (let s := base.modVf 0 fun v => { v with forwarding := true, frameMap := [(0x8000, 0x40_0000, 15)] }
     s.movingVf 0x40_0008 = none ∧ s.leftVf 0x40_0008 = some (0, 0x8008)) ∧ base.leftVf 0x40_0000 = none ∧
    (winBase ≤ winBase + 65535 ∧ winBase + 65535 - winBase < 65536 ∧ ¬ winBase + 65536 - winBase < 65536 ∧
      winBase + 65536 + [(1 : Byte)].length ≤ 2 ^ 52) ∧
    ({ base with dev := { base.dev with poison := [0x40_0000] } } : State).poisoned 0x40_0000 4 = true ∧
    base.poisoned 0x40_0000 4 = false ∧ base.tableLocked 0x40_0000 4 = false ∧
    (65536 ≤ 65536 ∧ 65536 + [(1 : Byte)].length ≤ winBytes) ∧ Memory.wf (mapped 0x3F).mem = true := by decide +kernel

/-! ### Witnesses: queues and packets -/

/-- A QCB: flags, state, log size, slot 70 of die 1, its ring at a guest address, WRIDX and RDIDX, ASID 0 with its root. -/
def qcbBytes (flags state wr rd : Nat) : List Byte :=
  [BitVec.ofNat 8 flags, BitVec.ofNat 8 state, 4, 2, 70, 0, 1, 0] ++ leBytes 8 0x8000 ++ leBytes 4 wr ++ leBytes 4 rd ++ leBytes 32 0 ++
    leBytes 8 0x20_0000
/-- The device with the pages at 0x8000 and 0x1_0000 of address space 0. -/
def paged2 : State := (paged 0x40_003F).wrNat 0x23_0010 8 0x41_003F
/-- The same with a queue table whose level-1 entry and QCB are as given; the ring stands at 0x8000. -/
def queueS (l1 : Nat) (qcb : List Byte) : State :=
  let s := (paged2.wrNat 0x30_0000 8 l1).wr 0x31_0000 qcb
  s.modVf 0 fun v => { v with queues := BitVec.ofNat 64 (0x30_0000 + 1) }
/-- The queue as the leader knows it, with packets and its RDIDX. -/
def known (ps : List Packet) (rd : Nat := 0) : Queue :=
  { id := 50, vf := 0, pasid := 0, qno := 0, qcb := 0x31_0000, packets := ps, rdidx := rd, reading := none, force := [], stopped := false }
/-- The device with that queue, known. -/
def serving (state wr rd : Nat) (ps : List Packet) : State :=
  { queueS 0x31_0003 (qcbBytes 3 state wr rd) with queues := [known ps rd] }
/-- A packet of a kind with an argument and four dwords. -/
def pkt (kind arg a b c d : Nat) : List Byte :=
  leBytes 4 kind ++ leBytes 4 arg ++ leBytes 8 a ++ leBytes 8 b ++ leBytes 8 c ++ leBytes 8 d ++ leBytes 24 0
/-- The same read from slot 0, started or not. -/
def read (started : Bool) (b : List Byte) : Packet := { index := 0, bytes := b, started := started, done := false, at_ := 0 }
/-- A queue with one packet. -/
def oneP (started : Bool) (b : List Byte) : State := serving 1 1 1 [read started b]

/-- A reserved bit, a PASID beyond the table, an entry not present, a queue found; a held kick with its entry present, valid and
not present, and invalid; a bitmap bit set for an idle queue with a packet, its VF with room and without. -/
theorem witness_KickSteps :
    (1024 : Word).toNat / 1024 ≠ 0 ∧ (base.walkQueue 0 0 0).2 = .drop ∧ (base.vf 0).flrb = false ∧ (base.vf 0).en = true ∧
    ((queueS 0x31_0001 (qcbBytes 3 0 1 0)).walkQueue 0 0 0).2 = .hold 0x30_0000 ∧
    ((queueS 0x31_0003 (qcbBytes 3 0 1 0)).walkQueue 0 0 0).2 = .found 0x30_0000 0x31_0000 ∧ (0x30_0000 + 8 ≤ 0x31_0000) ∧
    (∀ k ∈ (base.vf 0).heldKicks, k.1 ≠ 7) ∧
    (let s := (queueS 0x31_0001 (qcbBytes 3 0 1 0)).modVf 0 fun v => { v with heldKicks := [(0x30_0000, 0, 0)] }
     (s.vf 0).heldKicks = [(0x30_0000, 0, 0)] ∧ s.leads = true ∧ (s.rdNat 0x30_0000 1).testBit 0 = true ∧
       (s.rdNat 0x30_0000 1).testBit 1 = false ∧ (base.rdNat 0x30_0000 1).testBit 0 = false) ∧ base.leads = false := by
  decide +kernel

/-- The device with a bitmap bit set for slot 70 of die 1. -/
def bitmapped (quota : Dword) : State :=
  let s := serving 0 1 0 []
  let s := s.wr 0x31_0100 (qcbBytes 3 1 2 1)
  let s := s.wrNat 0x31_0104 2 7
  let s : State := { s with
    queues := [known [], { known [] 1 with id := 51, qno := 4, qcb := 0x31_0100 }]
    dev := { s.dev with kicks := vset s.dev.kicks 1 (1#4096 <<< 70) } }
  s.modVf 0 fun v => { v with en := false, queues := v.queues ||| quota }
/-- The same with the word taken and the tables gone through. -/
def swept (quota : Dword) : State :=
  let s := bitmapped quota
  let off := vget s.dev.kicks 1 &&& ~~~((BitVec.allOnes 32).zeroExtend 4096 <<< (32 * 2))
  ({ s with dev := { s.dev with kicks := vset s.dev.kicks 1 off } } : State).discover (onSlot 1 2 64)
/-- The queues of the word taken are the one that is idle and has packets; a quota of none, which is no limit, and of one, which
the active queue takes. -/
theorem witness_KickSteps_bitmap :
    (bitmapped 0).leads = true ∧ (vget (bitmapped 0).dev.kicks 1).extractLsb' (32 * 2) 32 = 64 ∧
    ((swept 0).queues.filter fun k => (swept 0).qcb k 6 1 == 1 && (swept 0).qcb k 4 2 / 32 == 2 &&
      (64#32).getLsbD ((swept 0).qcb k 4 2 % 32)) = [known []] ∧ (known []).force = [] ∧ (swept 0).qcb (known []) 1 1 = 0 ∧
    (swept 0).qcb (known []) 0x10 4 ≠ (known []).rdidx ∧ (swept 0).qcbSeen (known []) = true ∧ ((swept 0).vf 0).deferred.contains 50 = false ∧
    (swept 0).quotaRoom 0 = true ∧ (swept 0x0010_0000_0000_0000).quotaRoom 0 = false ∧ Memory.wf (swept 0).mem = true := by
  decide +kernel

/-- Closes a group of tests, as Group1 does. -/
inductive Group13 | done

/-- An ACTIVE queue that the leader reads: 16 packets, 17; none left, and its QCB out of the leader's reach; a packet read, one that breaks its format and one that does not; a queue
in error. -/
theorem witness_PacketSteps_fetch :
    (let s := serving 1 16 0 []
     s.queue? 50 = some (known []) ∧ s.reads (known []) = true ∧ s.qcb (known []) 0x10 4 ≠ (known []).rdidx ∧ s.qcbSeen (known []) = true ∧
       (16 + 2 ^ 32 - 0) % 2 ^ 32 ≤ 2 ^ s.qcb (known []) 2 1 ∧ 2 ^ s.qcb (known []) 2 1 < (17 + 2 ^ 32 - 0) % 2 ^ 32 ∧
       (s.readVa (s.queueCtx (known [])) (0x8000 + 64 * (0 % 16)) 64).2 = .ok (List.replicate 64 0) ∧ s.qcb (known []) 0x18 8 = 0 ∧
       (known []).reading = none ∧ (s.vf 0).deferred = [] ∧ Memory.wf s.mem = true) ∧
    ((serving 1 1 1 []).leads = true ∧ (serving 1 1 1 []).qcb (known [] 1) 0x10 4 = (known [] 1).rdidx ∧
      (shut 65 (serving 1 1 1 [])).qcbSeen (known [] 1) = false ∧ (known [] 1).packets.all Packet.done = true) ∧
    (let q := { known [] with reading := some (pkt 0 0 0 0 0 0) }
     let s : State := { serving 1 16 0 [] with queues := [q] }
     s.queue? 50 = some q ∧ s.qcbSeen q = true ∧ s.reads q = true ∧ q.reading = some (pkt 0 0 0 0 0 0) ∧ packetBad (pkt 0 0 0 0 0 0) = false) ∧
    packetBad (pkt 7 0 0 0 0 0) = true ∧ packetBad (pkt 2 2 0x8000 1 0 0) = false ∧ (serving 3 1 0 []).qcb (known []) 1 1 = 3 := by
  decide +kernel

/-- A launch whose image is sound, and one whose address is off its multiple of 64. -/
theorem witness_PacketSteps_launch :
    (let s := (oneP false (pkt 1 0 (winBase + 0x30000) 0 0 0)).wr (homeWin 0x30000) imageBytes
     (s.startable 50 0 1).isSome = true ∧ imageStatus (s.startPacket 50 0) (s.queueCtx (known [])) (winBase + 0x30000) = 0 ∧
       imageStatus (s.startPacket 50 0) (s.queueCtx (known [])) 0x8020 = 1) := by decide +kernel
/-- Packets of each kind that may start, that wait, late and in time, and that copy; the dwords they name, in error and not. -/
theorem witness_PacketSteps :
    ((List.range 7).all fun k => ((oneP false (pkt k 0 0x8000 1 0 0)).startable 50 0 k).isSome) = true ∧
    (let s := oneP true (pkt 3 2 0x8100 5 7 0)
     (s.pending 50 0 3).isSome = true ∧ (s.translate (s.queueCtx (known [])) .load 0x8100).2 = .found 0x40_0100 0x40_003F#64 15 ∧
       s.poisoned 0x40_0100 8 = false ∧ (read true (pkt 3 2 0x8100 5 7 0)).dw 24 = 7 ∧
       ({ s with dev := { s.dev with poison := [0x40_0104] } } : State).poisoned 0x40_0100 8 = true ∧
       ¬ 7 * 100 < (s.dev.time - 0).toNat ∧ 7 * 100 < ((701 : Dword) - 0).toNat ∧ 7 * 100 ≤ ((700 : Dword) - 0).toNat) ∧
    (let s := oneP true (pkt 6 0 0x8100 0x1_0200 1 0)
     (s.pending 50 0 6).isSome = true ∧ (State.copyBytes (s.queueCtx (known [])) 1 0x8100 0x1_0200 s).2 = true ∧
       (read true (pkt 6 0 0x8100 0x1_0200 1 0)).dw 32 = 0 ∧ (State.copyBytes (s.queueCtx (known [])) 1 0x1_8000 0x1_0200 s).2 = false) ∧
    (let s := oneP false (pkt 2 2 0x8100 1 0 0)
     (s.translate (s.queueCtx (known [])) .store 0x8100).2 = .found 0x40_0100 0x40_003F#64 15 ∧ isHost 0x40_0100 = false ∧
       (0x8100 + [(1 : Byte)].length - 1) / 64 = 0x8100 / 64) := by decide +kernel

/-! ### Witnesses: the mailbox, commands, the lease -/

/-- The device led from die 0, its mailbox ready, with a command posted in block b, slot i. -/
def mailed (ready : Bool) (b i op : Nat) (args : List Nat) : State :=
  let s := if ready then base.wrNat mbHeader 4 1 else base
  let s := s.wr (mbSlot b i) (leBytes 2 op ++ [1, 0] ++ leBytes 4 0 ++ args.flatMap (leBytes 8))
  { s with dev := { s.dev with leader := some (1, 0) } }
/-- A device with a command taken. -/
def commanded (s : State) (op : Nat) (args : List Dword) : State :=
  { s with commands := [command op args], dev := { s.dev with leader := some (1, 0) } }

/-- A doorbell held, counted, of a slot not posted, of one; a completion; each command taken, with no controller, with another
taken before it that has not started and that has. -/
theorem witness_CommandResults_mailbox :
    base.mbReady = false ∧ (mailed true 31 24 8 [64]).mbReady = true ∧ 24 < (25 : Word).toNat ∧ (24 : Word).toNat ≤ 24 ∧
    (mailed true 31 24 8 [64]).rdNat (mbSlot 31 24 + 2) 1 = 1 ∧ (mailed true 31 24 8 [64]).rdNat (mbSlot 31 23 + 2) 1 ≠ 1 ∧
    argsOk 8 31 [64, 0, 0, 0, 0] = true ∧ argsOk 8 31 [65, 0, 0, 0, 0] = false ∧ argsOk 8 31 [64, 65535, 0, 0, 0] = true ∧
    Memory.wf (mailed true 31 24 8 [64]).mem = true ∧
    (let c := { command 8 [64] with result := some (0, 7) }
     let s : State := { base with commands := [c], dev := { base.dev with leader := some (1, 0) } }
     s.leads = true ∧ s.commands.find? (fun k => k.block == c.block && k.slot == c.slot && k.result.isSome) = some c ∧
       s.rdNat (mbBlock c.block + 8) 8 = 0) ∧
    (([1, 2, 3, 4, 5, 6, 8, 9, 10, 11, 12] : List Nat).all fun op => ((commanded base op []).command? 0 0 op).isSome) = true ∧
    ({ base with commands := [command 12 []] } : State).leads = false ∧ (∀ c ∈ base.commands, c.op ≠ 12) ∧
    (let s (started : Bool) : State := { commanded base 12 [] with commands := [{ command 8 [] with slot := 1, started := started }, command 12 []] }
     (s false).commands = [{ command 8 [] with slot := 1 }] ++ command 12 [] :: [] ∧ (command 8 []).started = false ∧
       (command 8 []).op ≠ 12 ∧ (s false).command? 0 0 12 = none ∧ (s true).leads = true) := by
  decide +kernel

/-- The bytes of an entry of the publish-set table. -/
def psetBytes : List Byte := leBytes 8 0x1_0000 ++ leBytes 8 0x8000 ++ [1, 2, 0, 0] ++ leBytes 12 0 ++ leBytes 32 0
/-- PSREG and DESTROYQ: a set not registered with an entry to register, one registered; a queue idle, busy, and not there. -/
theorem witness_CommandResults :
    (let s := ((paged 0x40_003F).wr 0x32_0000 psetBytes).modVf 0 fun v => { v with pstable := (0x32_0000, 1) }
     s.pset? 0 0 = none ∧ (s.gpaHome 0 0x32_0000 true).2 = some 0x32_0000 ∧ psetBad psetBytes = false ∧ psetBad (List.replicate 64 0) = true) ∧
    ((sets 0 0).pset? 0 5).isSome = true ∧ unitOk 3 8 1 = true ∧ unitOk 4 8 1 = false ∧
    (commanded base 2 [0, 0]).namedHaul (command 2 [0, 0]) = some (placedHaul hid) ∧
    (commanded base 2 [0, 1]).namedHaul (command 2 [0, 1]) = none ∧
    (let s := commanded (serving 0 1 1 []) 1 [0, 0, 0]
     (s.walkQueue 0 0 0).2 = .found 0x30_0000 0x31_0000 ∧ (s.walkQueue 0 1 0).2 = .drop ∧ s.busyQueue (known [] 1) = false ∧
       s.queues.find? (fun k => k.vf == 0 && k.qcb == 0x31_0000) = some (known [] 1) ∧ (0, 0) ∉ (known [] 1).force ∧
       (s.vf 0).deferred = [] ∧ (∀ k ∈ s.queues, k.id = 50 → k = known [] 1)) ∧
    ((queueS 0x31_0001 (qcbBytes 3 0 1 0)).walkQueue 0 0 0).2 = .hold 0x30_0000 ∧
    (serving 0 1 0 []).busyQueue (known []) = true ∧ (∃ p ∈ (known [read true (pkt 0 0 0 0 0 0)]).packets, p.done = false) := by
  decide +kernel

/-- A device whose haul is saved whole for a command, its rake standing in the haul; one whose VF is in its blackout. -/
def savedAll (op : Nat) (args : List Dword) (dark : Bool) : State :=
  let s := commanded paged2 op args
  let s : State := { s with
    co := coachNone, rakes := []
    hauls := s.hauls.map fun h => { h with saving := some (0, 0), saved := [] } }
  s.modVf 0 fun v => { v with blackout := if dark then some (0, 0) else none }

/-- A device whose haul is saved whole, a ticket of its coach with a tile whose data is in error. -/
def erroneous : State :=
  let t : Ticket := { slot := 0, dword := 4, req := 40, tile := some (0x8000, { d := 0, words := 1, wh := 4, lanes := none, status := 1, fill := 0 }) }
  let r : SavedRake := { rake := 0, die := none, coaches := [{ base.co with tickets := [t] }], qm := [], scr := [], wgt := [], acc := [], owners := [] }
  let s := savedAll 3 [0, 0, 0xFFC0, 128] false
  poisonAt 0x40_0004 { s with hauls := s.hauls.map fun h => { h with saved := [r] } }
/-- SAVE of a haul with a rake resident, of one saved whole whose image does not fit and does; MIGOUT of a VF with a rake resident
and of one saved whole; MIGIN of an image of a key. -/
theorem witness_CommandResults_save :
    (∀ h ∈ base.hauls, h.saving ≠ some (0, 0)) ∧ (placedHaul hid).saving = none ∧
    (asking.hauls.all fun h => h.saving.isSome && h.saving != some (1, 0)) = true ∧ (∃ r ∈ base.rakes, r.haul = hid) ∧
    (let s := savedAll 3 [0, 0, 0xFFC0, 128] false
     (s.hauls.find? fun h => h.saving == some (0, 0)).any (fun h => let k := s.writeSaved h
       k.allSaved h && h.ended.isNone && decide ((k.savedImage h 0xFFC0).2.2 - 0xFFC0 = 128) &&
       (State.writePieces (k.haulCtx h) (k.savedImage h 0xFFC0).2.1 (k.savedImage h 0xFFC0).1).2) = true) ∧
    (let s := savedAll 3 [0, 0, 0xFFC0, 128] false
     (s.hauls.find? fun h => h.saving == some (0, 0)).any (fun h => h.ended.isNone && !(s.writeSaved h).keptError h) = true) ∧
    (let s := erroneous
     (s.hauls.find? fun h => h.saving == some (0, 0)).any (fun h => h.ended.isNone && (s.writeSaved h).allSaved h &&
       (s.writeSaved h).keptError h) = true) ∧
    ((hauled fun h => { h with saving := some (0, 0), ended := some (4, 0, 0) }).hauls.find? fun h => h.saving == some (0, 0)).any
      (fun h => h.ended.isSome) = true ∧
    (commanded base 4 [0, 0, 0]).mayDepart 0 = true ∧ ((commanded base 4 [0, 0, 0]).vf 0).blackout ≠ some (0, 0) := by
  decide +kernel
/-- Closes a group of tests, as Group1 does. -/
inductive Group14 | done

theorem witness_CommandResults_move :
    (let s := savedAll 4 [0, 0x33_0000, 4096] true
     (s.vf 0).blackout = some (0, 0) ∧ (s.writeMine 0).vfSaved 0 = true ∧ (∀ h ∈ (s.writeMine 0).hauls, (s.writeMine 0).keptError h = false) ∧
     (s.writeMine 0).hiddenFrames 0 = [] ∧ ((shut 65 s).writeMine 0).hiddenFrames 0 ≠ [] ∧ ((s.writeMine 0).vfImage 0).length ≤ 4096 ∧
       8 < ((s.writeMine 0).vfImage 0).length ∧
       (State.writeGpa (spans 0x33_0000 ((s.writeMine 0).vfImage 0).length) ((s.writeMine 0).vfImage 0) (s.writeMine 0)).2 = true) ∧
    getVf [] = none := by decide +kernel
/-- The image of a VF of a key and a page of a size, behind it nothing. -/
def vfBytes (key bits : Nat) : List Byte := putNats [key, 7, 0x1000, 2, 1, 0x8000, 0x40_0000, bits] ++ List.replicate 80 0
/-- MIGIN of an image of this key, its page within 64 MiB and beyond, of another key, of one whose key is in error, of one whose
frame is; a frame that finds its place, one of its granules marked. -/
theorem witness_CommandResults_arrive :
    (let x := vfBytes base.key.toNat 15
     let s := (commanded paged2 5 [0, 0x33_0000, 144]).wr 0x33_0000 x
     (State.readGpas (spans 0x33_0000 144) s).2 = some (x.map fun b => (b, false)) ∧
       (State.readGpas (spans 0x33_0000 144) (poisonAt 0x33_0004 s)).2.any (fun l => (l.take 8).any (·.2)) = true ∧
       getNat ((x.take 8)) = some (s.key.toNat, []) ∧
       (readVf ((x.drop 8).map fun b => (b, false))).map (fun g => g.1.frames.map fun f => nth f.1 2) = some [15]) ∧
    (readVf (((vfBytes 1 27).drop 8).map fun b => (b, false))).map (fun g => g.1.frames.map fun f => nth f.1 2) = some [27] ∧
    readVf [] = none ∧ getNat [] = none ∧ getNat ((vfBytes 1 27).take 8) = some (1, []) ∧ 1 ≠ base.key.toNat := by decide +kernel
theorem witness_CommandResults_frame :
    ((mapped 0x3F).gpaHome 0 0x8000 true).2 = some 0x8000 ∧ nth [0x8000, 0x40_0000, 15] 2 = 15 ∧
    4 ∈ ([0x8000, 0x40_0000, 15], [4], ([] : List (Nat × List Byte))).2.1 ∧ 4 < 32768 := by decide +kernel

/-- A device with firmware whose LEASE holds an epoch and a die, renewed at 0, with no VF enabled. -/
def leased (x time : Nat) (leader : Option (Nat × Nat)) : State :=
  let s := (base.wrNat (homeWin 0) 8 x).modVf 0 fun v => { v with en := false }
  { s with dev := { s.dev with time := BitVec.ofNat 64 time, leader := leader, fwLoaded := true } }
/-- A renewal with nobody serving, with a superseded controller, with the LEASE its own; a lapsed lease; no lease 3 ms after the
start; nothing to keep. -/
theorem witness_LeaseSteps :
    (leased 0 0 none).dev.leader = none ∧ (leased 0 0 none).dev.superseded = [] ∧
    ({ base with dev := { base.dev with superseded := [(4, 2)] } } : State).dev.superseded = (4, 2) :: [] ∧
    (leased (5 * 2 ^ 40 + 2 ^ 38) 9 (some (5, 1))).dev.leader = some (5, 1) ∧
    (leased (5 * 2 ^ 40 + 2 ^ 38) 9 (some (5, 1))).rdNat (homeWin 0) 8 / 2 ^ 40 % 2 ^ 24 = 5 ∧
    (let s := leased (0xFF_FFFF * 2 ^ 40) 300001 none
     let x := s.rdNat (homeWin 0) 8
     s.dev.fwLoaded = true ∧ x / 2 ^ 40 % 2 ^ 24 ≠ 0 ∧ x / 2 ^ 38 % 4 ≠ 3 ∧ (∀ p ∈ s.dev.superseded, p.2 ≠ 3) ∧
       300000 < (300001 + 2 ^ 38 - x % 2 ^ 38) % 2 ^ 38) ∧
    (let s := leased 0 300000 none
     s.dev.fwLoaded = true ∧ s.rdNat (homeWin 0) 8 = 0 ∧ 300000 ≤ (s.dev.time - s.dev.fwStart).toNat ∧
       s.dev.heldCompletions = [] ∧ s.dev.journal = [] ∧ s.queues = [] ∧ s.dev.doorbells = [] ∧
       ((List.range 32).all fun v => !(s.vf v).en && (s.vf v).blackout.isNone) = true ∧ Memory.wf s.mem = true) ∧
    (vfLocked.vf 0).lock = true ∧ (base.hauls.all fun h => h.vf != 1) = true := by decide +kernel

/-- The leader's controller stops; and a journal whose entries of an epoch can be read, and are not in error. -/
theorem witness_LeaseSteps_stop :
    (∃ t, ({ leased 0 9 (some (1, 0)) with schedule := [.stop] } : State).schedule = .stop :: [] ∧
      step { leased 0 9 (some (1, 0)) with schedule := [.stop] } = .next t) ∧
    (let s : State := { leased 0 9 none with dev := { (leased 0 9 none).dev with
      journal := [{ epoch := 5, item := .held 2 }, { epoch := 4, item := .held 3 }] } }
     (JItem.held 2, true) ∈ s.replayable 5) := by
  refine ⟨⟨_, rfl, (next_of_isNext (by decide +kernel)).choose_spec⟩, ?_⟩
  have h : (leased 0 9 none).dev.poison = [] ∧ (leased 0 9 none).dev.lost = [] := by decide +kernel
  simp [State.replayable, State.poisoned, h.1, h.2]

/-! ### Witnesses: the geometry of views, the Dray engine's elements -/

/-- The square roots of radicands that are not negative are the roots of a view's numbers. -/
theorem rootsAre_sqrt (r : Roots) (a : 0 ≤ r.a) (b : 0 ≤ r.b) (c : 0 ≤ r.c) : r.RootsAre fun n => √(r.at n : ℝ) := fun n => by
  have h : (0 : ℝ) ≤ (r.at n : ℝ) := by
    unfold Roots.at
    split_ifs <;> exact_mod_cast (by assumption)
  exact ⟨Real.sqrt_nonneg _, Real.mul_self_sqrt h⟩
/-- The radicands of numbers without square roots. -/
def noRoots : Roots := { a := 0, b := 0, c := 0 }
/-- A ray from the origin along z, and its span to 10. -/
def originX : XVec := RVec.lift { x := 0, y := 0, z := 0 }
def alongZ : XVec := RVec.lift { x := 0, y := 0, z := 1 }
def toTen : Span := { near := 0, far := some 10, dd := noRoots.dot alongZ alongZ }
/-- A hit at parameter n. -/
def hitAt (n : Rat) (inst : Nat) : Hit :=
  { num := rl n, den := rl 1, b1 := rl 0, b2 := rl 0, face := true, inst := inst, tri := 0, instId := 0, prim := 0, mat := 0 }
/-- Distances 0 and 5; a pixel of each kind, in a probe's corner too; a lane's forward vector that is not zero; the three square
roots; a triangle hit, one beyond the range and one in the ray's plane. -/
theorem witness_ViewGeometry :
    (0 : Rat) < 1 ∧ RVec.dot (RVec.sub { x := 3, y := 4, z := 0 } { x := 0, y := 0, z := 0 }) (RVec.sub { x := 3, y := 4, z := 0 } { x := 0, y := 0, z := 0 }) = 25 ∧
    RVec.dot (RVec.sub { x := 3, y := 4, z := 0 } { x := 3, y := 4, z := 0 }) (RVec.sub { x := 3, y := 4, z := 0 } { x := 3, y := 4, z := 0 }) = 0 ∧
    (let k := Basis.plain { x := 0, y := 0, z := 1 } { x := 1, y := 0, z := 0 } { x := 0, y := 1, z := 0 }
     (([0, 1, 2] : List Nat).all fun kind => (pixelRay kind { x := 0, y := 0, z := 0 } k 1 2 3).isSome) = true ∧
       (pixelRay 2 { x := 0, y := 0, z := 0 } k 1 4 0).isNone = true) ∧
    RVec.dot { x := 0, y := 3, z := 4 } { x := 0, y := 3, z := 4 } = 25 ∧
    (noRoots.triangle toTen originX alongZ { x := -1, y := -1, z := 5 } { x := 2, y := -1, z := 5 } { x := -1, y := 2, z := 5 }).isSome = true ∧
    (noRoots.triangle toTen originX alongZ { x := -1, y := -1, z := 11 } { x := 2, y := -1, z := 11 } { x := -1, y := 2, z := 11 }).isNone = true ∧
    (noRoots.triangle toTen originX alongZ { x := -1, y := 0, z := 0 } { x := 1, y := 0, z := 0 } { x := 0, y := 0, z := 5 }).isNone = true ∧
    toTen.dd = noRoots.dot alongZ alongZ ∧ 0 ≤ toTen.near := by decide +kernel
/-- Closes a group of tests, as Group1 does. -/
inductive Group15 | done

theorem witness_ViewGeometry_roots : noRoots.RootsAre (fun n => √(noRoots.at n : ℝ)) ∧
    (∃ w : Nat → ℝ, ({ a := 25, b := 9, c := 1 / 2 } : Roots).RootsAre w) ∧
    (∀ w : Nat → ℝ, ∀ h ∈ [hitAt 2 1, hitAt 2 0], 0 < Surd.val w 3 h.den) ∧ (∀ w : Nat → ℝ, (alongZ.real w).sq ≠ 0) := by
  refine ⟨rootsAre_sqrt _ (by decide) (by decide) (by decide), ⟨_, rootsAre_sqrt _ (by norm_num) (by norm_num) (by norm_num)⟩, ?_, ?_⟩
  · intro w h hh
    have e : h.den = rl 1 := by
      rcases List.mem_cons.1 hh with rfl | hh
      · rfl
      · rcases List.mem_cons.1 hh with rfl | hh
        · rfl
        · exact absurd hh (List.not_mem_nil)
    rw [e]
    norm_num [rl, Surd.ofRat, Surd.val]
  · intro w
    norm_num [alongZ, RVec.lift, Vec3.map, XVec.real, Vec3.sq, Vec3.dot, rl, Surd.ofRat, Surd.val]

/-- The command as another operation, with these flags, at a position. -/
def drayAs (op : Nat) (flags : Dword) (pos : Nat) : DrayCmd := { dray with op := op, flags := flags, pos := pos }
/-- An element inside its space and outside; a global one found, refused, absent and in error, stored and read; a SHADOW one in no
set and in a set; an index word that can be read, one in error, one of a core that is not there. -/
theorem witness_DraySteps_elements :
    dray.home 1 0 0x0FFC 4 = some (homeQm 0 0x0FFC) ∧ dray.home 1 0 0x0FFD 4 = none ∧ dray.home 2 0 0x87C 4 = some (homeScr 0 0x87C) ∧
    (winBase + 0x20000 + 60) % 64 + 4 ≤ 64 ∧
    ((base.translate (base.drayCtx dray false) .load (winBase + 0x20000)).2 = .found (homeWin 0x20000) 0x3F#64 23 ∧
      (base.translate (base.drayCtx dray true) .store (winBase + 0x20000)).2 = .found (homeWin 0x20000) 0x3F#64 23 ∧
      (base.translate (base.drayCtx dray true) .store 0x8000).2 = .prot) ∧
    (let c := { dray with ptbase := 0x20_0000 }
     ((paged 0x40_001F).translate ((paged 0x40_001F).drayCtx c false) .load 0x8000).2 = .absent 0x40_001F#64 15 ∧
       ((poisonAt 0x23_0008 (paged 0x40_003F)).translate ((paged 0x40_003F).drayCtx c true) .store 0x8000).2 = .ecc) ∧
    (let c := { drayAs 0 0x2_8002 0 with shadow := some [(5, some 1)], ptbase := 0x20_0000 }
     c.isShadow = true ∧ c.dsp = 0 ∧ base.noShadow (base.drayCtx c true) (winBase + 0x20000) = true ∧
       setMapped.noShadow (setMapped.drayCtx c true) 0x100_0008 = false ∧
       (setMapped.translate (setMapped.drayCtx c true) .store 0x100_0008).2 = .found 0x8008 0x563F#64 26) ∧
    ((drayAs 3 0x2_0012 0).idxsp = false ∧ (drayAs 3 0x2_0012 0).pos % (drayAs 3 0x2_0012 0).cols = 0 ∧
      base.drayIndex (drayAs 3 0x2_0012 0) 0 = .ok 0 ∧ (poisonAt (homeQm 0 0) base).drayIndex (drayAs 3 0x2_0012 0) 0 = .error 3) ∧
    (let c := drayAs 4 0x202_0012 0
     c.idxsp = true ∧ (c.scr.find? fun p => p.1 == c.core) = some (0, 0, 0x880) ∧ base.drayIndex { c with scr := [] } 0 = .error 1) ∧
    (let s := channel { queue := [], running := some dray, held := [] }
     (s.chan 0 1).running = some dray ∧ dray.finished = false ∧ (s.quad 0).changing = false) := by decide +kernel
/-- An expansion and a compression within their spaces; a block of a width and one of another; lists with a NaN, of zeros, of both
signs. -/
theorem witness_DraySteps_blocks :
    (let c := drayAs 2 0x22_0012 0
     c.dir = false ∧ c.ssp ≠ 0 ∧ c.dsp ≠ 0 ∧ c.k = 4 ∧ c.home c.ssp c.score (0x400 + 0 * c.sstr + 1 * 20) 20 = some (homeScr 0 0x414) ∧
       c.home c.dsp c.dcore (0 + 0 * c.dstr + 64 * 1) 64 = some (homeQm 0 64) ∧ base.poisoned (homeScr 0 0x414) 20 = false) ∧
    (let c := drayAs 2 0xA2_0012 0
     c.dir = true ∧ c.csrc = false ∧ c.home c.ssp c.score (0x400 + 0 * c.sstr + 32 * 1 * 4) (32 * 4) = some (homeScr 0 0x480) ∧
       c.home c.dsp c.dcore (0 + 0 * c.dstr + 1 * 20) 20 = some (homeQm 0 20) ∧ base.poisoned (homeScr 0 0x480) (32 * 4) = false) ∧
    Memory.wf base.mem = true ∧ (leBytes 4 0x480 ++ List.replicate 16 (0x11 : Byte)).length = 4 * 4 + 4 ∧
    bfpBad 4 (leBytes 4 0x480 ++ List.replicate 16 0x11) = false ∧ bfpBad 4 (leBytes 4 0x380 ++ List.replicate 16 0x11) = true ∧
    (List.replicate 32 (0x7FC0_0000 : Nat)).length = 32 ∧ unpack 23 0x7FC0_0000 = .nan false ∧ unpack 23 0 = .fin false 0 (-149) ∧
    unpack 23 0xBF40_0000 = .fin true 0xC0_0000 (-24) := by decide +kernel

/-! ### Witnesses: infinite addends, several trapping lanes, the choice of a port, buffered entries, records in error -/

theorem witness_SumCells_special : unpack 23 0x7F80_0000 = .inf false ∧ unpack 23 0x7FC0_0000 = .nan false ∧
    cellVal 0 = 0 ∧ cellVal (cellAdd 0 0x3F80_0000) ≠ 0 := by decide +kernel

/-- Two lanes with causes; a coach stopped; an access-control write that resets a VF and one that does not. -/
theorem witness_CallsEnterHandlers_lanes :
    (let l := [(3, causeWord cPriv 7), (31, causeWord cHvc 7)]
     (∀ p ∈ l, p.1 < 32) ∧ (l.map (·.1)).Nodup ∧ (trapped (guarded .u) l 0).target = 2) ∧
    base.co.issue.phase ≠ .halted ∧ (phased .halted 0).co.issue.phase = .halted ∧
    ((4 : Dword).getLsbD 2 = true ∧ (3 : Dword).getLsbD 2 = false ∧ 31 < 32) := by decide +kernel

/-- The placed coach and another of its port, ready since a later time; the first has yielded, or has an error to report. -/
def contending (yielded : Bool) (err : List (Nat × Cause)) : State :=
  let s := (phased .ready 0).modCo fun c => { c with
    issue := { c.issue with since := 5, yielded := yielded }, traps := { c.traps with ecc := err } }
  let k := s.co
  { s with coaches := [{ k with ident := { k.ident with id := 9, slot := 30 }, issue := { k.issue with since := 6, yielded := false }, traps := { k.traps with ecc := [] } }] }
/-- The coach that became ready first is before the other, unless it has just yielded; one with an error in a result; no coach of the
port issues. -/
theorem witness_IssueSteps_choice :
    (([contending false [], contending true [], contending false [(31, causeWord cEcc 4)]] : List State).all fun s =>
      (s.allCoaches.all fun k => k.issue.phase == .ready && !k.preempt.atSave && k.ident.core == 0 && k.ident.port == s.co.ident.port) &&
      (s.allCoaches.length == 2) && !(s.quad (0 / 4)).changing) = true ∧
    (contending false []).co.hasErr = false ∧ (contending false [(31, causeWord cEcc 4)]).co.hasErr = true ∧
    (contending false []).co.issue.since < 6 ∧ (contending true []).co.issue.yielded = true ∧
    ((contending true []).coaches.all fun k => !k.issue.yielded) = true := by decide +kernel
/-- Entries behind an older one that overlaps them and that does not, of the host window, of memory, of host memory. -/
theorem witness_IssueSteps_entries :
    (let s := buffered ([entry 6 (homeWin 0x20004) false] ++ entry 7 (homeWin 0x20000) false :: [entry 8 (homeWin 0x20000) false])
     s.co.wbuf = [entry 6 (homeWin 0x20004) false] ++ entry 7 (homeWin 0x20000) false :: [entry 8 (homeWin 0x20000) false] ∧
       (∀ x ∈ [entry 6 (homeWin 0x20004) false] ++ [entry 8 (homeWin 0x20000) false], x.id ≠ (entry 7 0 false).id)) ∧
    homeWin 0x20004 < homeWin 0x20000 + (entry 7 0 false).bytes.length ∧ homeWin 0x20000 < homeWin 0x20004 + 8 ∧
    ¬ homeWin 0x20008 < homeWin 0x20000 + (entry 7 0 false).bytes.length ∧ (entry 6 (homeWin 0x20004) true).atCore = true ∧
    isHost (homeHost 0 0x1000) = true ∧ granule (homeHost 0 0x1004) ∈ granules (homeHost 0 0x1000) 8 ∧ Memory.wf base.mem = true := by
  decide +kernel

/-- Closes a group of tests, as Group1 does. -/
inductive Group16 | done

/-- The records in error and not; a restored ticket with a tile; a haul whose quad has no lift; tickets that leave slot 1 free; a request
of two lanes whose ticket is waited for, its lift serving it. -/
theorem witness_ViewWordResults_errors :
    (let u := (poisonAt (homeWin 0x2000C) (viewing 0 false)).publish 4
     (u.residentAccess .load ((winBase + 0x20000 : Nat) : Int) 64).2 = .ok (homeWin 0x20000) ∧ u.poisoned (homeWin 0x20000) 64 = true) ∧
    (poisonAt (homeWin 0x20050) (viewing 0 false)).poisoned (homeWin 0x20040) 64 = true ∧
    (poisonAt (homeWin 0x20090) (viewing 0 false)).poisoned (homeWin 0x20080) 64 = true ∧
    ((base.residentAccess .load 4 64).2 = .error (causeAddr cMisal 4)) ∧
    (let k : Ticket := { slot := 0, dword := 4, req := 0, tile := some (0x8000, { d := 0, words := 1, wh := 4, lanes := none, status := 1, fill := 0 }) }
     (∀ j ∈ [k], j.dword = 4 → j = k) ∧ k ∈ [k]) ∧
    base.lift? 0 1 = none ∧ 1 ≤ (lifting.modCo fun c => { c with special := { c.special with nbound := 1 } }).co.special.nbound := by
  decide +kernel
def laneRequest : ViewReq := { request true with lanes := some [(3, []), (31, [])], traversed := true, status := 1, retired := 1 }
theorem witness_ViewSteps_lanes :
    laneRequest.lanes = some [(3, []), (31, [])] ∧ ([(3, ([] : List Word)), (31, [])].map (·.1)).Nodup ∧ laneRequest.complete = true ∧
    laneRequest.d.toNat + laneRequest.desc.words * laneRequest.desc.pixels ≤ 64 ∧
    laneRequest.desc.words * laneRequest.desc.pixels ≤ (requested laneRequest).co.regs.preg ∧
    (requested laneRequest).lift? laneRequest.quad laneRequest.lift =
      some { level := 1, free := 1, fifo := [40], shade := [0], serving := [40] } ∧ laneRequest.id = 40 := by decide +kernel

/-- Tasks, kicks, packets, the lease and the stub: a TCB and a held entry whose home a port reaches and does not; signals that are
found, in error and not found; every QCB in reach; a port's row that refuses. -/
theorem witness_TaskReleases_ports :
    (base.portSees 0 tcbHome = true ∧ (shut 0 base).portSees 0 0x40_0000 = false ∧ 0 < 64) ∧
    (let s := (queueS 0x31_0001 (qcbBytes 3 0 1 0)).modVf 0 fun v => { v with heldKicks := [(0x30_0000, 0, 0)] }
     s.portSees (ctrlPort s.leaderDie) 0x30_0000 = true ∧ (shut 65 s).portSees (ctrlPort (shut 65 s).leaderDie) 0x30_0000 = false) ∧
    (let s := serving 1 1 0 []
     (∀ q ∈ s.queues, s.qcbSeen q = true) ∧ (shut 65 s).qcbSeen (known []) = false) ∧
    (let s := (mapped 0x3F).modVf 0 fun v => { v with blackout := some (0, 0) }
     s.portAllows 64 0x40_0008 = true ∧ s.portAllows 64 (0x40_0008 + [(1 : Byte), 2].length - 1) = true ∧
       (shut 64 s).portAllows 64 0x40_0008 = false ∧ [(1 : Byte), 2] ≠ []) := by decide +kernel
theorem witness_PacketSteps_fails :
    ((oneP false (pkt 2 2 0x1_8000 1 0 0)).translate ((oneP false (pkt 2 2 0x1_8000 1 0 0)).queueCtx (known [])) .store 0x1_8000).2 = .prot ∧
    (let s := oneP true (pkt 3 2 0x1_8000 5 7 0)
     (s.pending 50 0 3).isSome = true ∧ (s.translate (s.queueCtx (known [])) .load 0x1_8000).2 = .prot) ∧
    (let s := oneP true (pkt 6 0 0x8100 0x1_0200 1 0x8200)
     (s.pending 50 0 6).isSome = true ∧ (read true (pkt 6 0 0x8100 0x1_0200 1 0x8200)).dw 32 = 0x8200 ∧
       (State.copyBytes (s.queueCtx (known [])) 1 0x8100 0x1_0200 s).2 = true ∧
       (s.translate (s.queueCtx (known [])) .store 0x8200).2 = .found 0x40_0200 0x40_003F#64 15 ∧ isHost 0x40_0200 = false ∧
       s.poisoned 0x40_0200 8 = false ∧ (poisonAt 0x40_0204 s).poisoned 0x40_0200 8 = true ∧ Memory.wf s.mem = true) := by decide +kernel

/-- A quad whose clock changes, with a record held and one to read, and a fetch that fails there; a view that its engine reads for. -/
theorem witness_WaitSteps_changing :
    (let s := (base.modCo fun c => { c with issue := { c.issue with off := 64 } }).modQuad 0 fun q => { q with
        changing := true, events := [event], held := [event] }
     (s.quad 0).changing = true ∧ (s.quad 0).held = event :: [] ∧ (s.quad (s.co.ident.core / 4)).changing = true ∧ s.co.issue.off = 64) ∧
    (requested (request true)).views[0]? = some (request true) ∧ (request true).traversed = false ∧
    ((requested (request true)).quad (request true).quad).changing = false := by decide +kernel

/-- R360, R87: a write of FLR stops the VF's coaches and its hauls at once, with no record, the writer's own among them. -/
theorem test_flr_at_once :
    (let s := nextOr base (exec (.srw false 0x36 1) (withG (guarded .h) 1 5))
     (s.vf 0).flrb = true ∧ s.co.issue.phase = .halted ∧ (s.hauls.all fun h => h.ended.isSome && h.silent) = true) := by
  decide +kernel

end Sys2Proof.Tests
end

section
/-! # O5: every step keeps the canonical form of memory (log 2)

`State.memOk` is `Memory.wf` of the state's memory. The memory is written in six places only
(`State.wr`, `State.wrNat`, `State.putAt`, `Memory.clear`, `Memory.exchange` and the planes'
swap), whose laws say that each keeps the form. From there the proof goes up the model, function
by function: `f_mem` says that `f` leaves the memory alone, `f_wf` that `f` keeps its form. The
executions of `exec` use these, and `step` uses `exec`. -/

namespace Sys2Proof.Machine
variable {s : State}

/-! ## Folds, updates of one coach, and parts of a pair -/

theorem foldl_wf {α : Type} {f : State → α → State}
    (hf : ∀ s a, Memory.wf s.mem = true → Memory.wf (f s a).mem = true) (l : List α)
    (h : Memory.wf s.mem = true) :
    Memory.wf (l.foldl f s).mem = true := by
  induction l generalizing s with
  | nil => exact h
  | cons a t ih => exact ih (hf s a h)

theorem foldl_fst_wf {α β : Type} {f : State × β → α → State × β}
    (hf : ∀ r a, Memory.wf r.1.mem = true → Memory.wf (f r a).1.mem = true) (l : List α)
    {r : State × β} (h : Memory.wf r.1.mem = true) :
    Memory.wf (l.foldl f r).1.mem = true := by
  induction l generalizing r with
  | nil => exact h
  | cons a t ih => exact ih (hf r a h)

theorem foldl_mem {α : Type} {f : State → α → State} (hf : ∀ s a, (f s a).mem = s.mem)
    (l : List α) : (l.foldl f s).mem = s.mem := by
  induction l generalizing s with
  | nil => rfl
  | cons a t ih => rw [List.foldl_cons, ih, hf]

/-- `foldl_wf` with the step's result under a name, so that a proof about a long step speaks of
that name and not of the step's text again. -/
theorem foldl_wf_of_step {α : Type} {f : State → α → State}
    (hf : ∀ s a t, f s a = t → Memory.wf s.mem = true → Memory.wf t.mem = true) (l : List α)
    (h : Memory.wf s.mem = true) :
    Memory.wf (l.foldl f s).mem = true :=
  foldl_wf (fun s a => hf s a _ rfl) l h

/-- `foldl_fst_wf` with the step's result under a name. -/
theorem foldl_fst_wf_of_step {α β : Type} {f : State × β → α → State × β}
    (hf : ∀ r a q, f r a = q → Memory.wf r.1.mem = true → Memory.wf q.1.mem = true)
    (l : List α) {r : State × β} (h : Memory.wf r.1.mem = true) :
    Memory.wf (l.foldl f r).1.mem = true :=
  foldl_fst_wf (fun s a => hf s a _ rfl) l h

@[simp] theorem State.modCoach_mem (s : State) (id : Nat) (f : Coach → Coach) :
    (s.modCoach id f).mem = s.mem := by
  unfold State.modCoach
  split <;> rfl

@[simp] theorem State.focus_mem (s : State) (id : Nat) : (s.focus id).mem = s.mem := by
  unfold State.focus
  (repeat' split) <;> rfl

@[simp] theorem State.within_mem (s : State) {f : State → State} (id : Nat)
    (hf : ∀ t, (f t).mem = t.mem) : (s.within id f).mem = s.mem := by
  simp [State.within, hf]

theorem State.within_wf {f : State → State} (id : Nat)
    (hf : ∀ t, Memory.wf t.mem = true → Memory.wf (f t).mem = true)
    (h : Memory.wf s.mem = true) :
    Memory.wf (s.within id f).mem = true := by
  simp [State.within, hf, h]

/-- A state that a call returned with a value has the memory the call's lemma speaks of. -/
theorem wf_of_eq {α : Type} {r : State × α} {t : State} {a : α} (e : r = (t, a))
    (h : Memory.wf r.1.mem = true) : Memory.wf t.mem = true := by
  subst e
  exact h

/-! ## The functions that a step calls, in the model's order -/

/-! ### Machine/Basic -/

@[simp] theorem State.dropCoach_mem (s : State) (id : Nat) : (s.dropCoach id).mem = s.mem := by
  unfold State.dropCoach
  split <;> rfl

@[simp] theorem State.healed_mem (s : State) (a n : Nat) : (s.healed a n).mem = s.mem := rfl

/-! ### Machine/Places -/

@[simp] theorem State.ownCopy_mem (s : State) (o : Nat × BitVec 16) (g : Nat) (w : Word)
    (dirty : Bool) :
    (s.ownCopy o g w dirty).mem = s.mem :=
  rfl

@[simp] theorem State.wrHostCopy_mem (s : State) (o : Nat × BitVec 16) (a : Nat) (b : List Byte) :
    (s.wrHostCopy o a b).mem = s.mem := by
  unfold State.wrHostCopy State.healed
  exact foldl_mem (fun _ _ => State.ownCopy_mem ..) _

@[simp] theorem State.writeBack_wf (h : HostCopy) (hm : Memory.wf s.mem = true) :
    Memory.wf (s.writeBack h).mem = true := by
  simp [State.writeBack, State.wrNat_wf, hm]

@[simp] theorem State.arrive_wf (a : Nat) (b : List Byte) (h : Memory.wf s.mem = true) :
    Memory.wf (s.arrive a b).mem = true := by
  unfold State.arrive
  split <;> simp [Memory.putAll_wf, h]

@[simp] theorem State.carryEnd_wf (e : WEntry) (h : Memory.wf s.mem = true) :
    Memory.wf (s.carryEnd e).mem = true := by
  simp [State.carryEnd, h]

@[simp] theorem State.carryCore_mem (s : State) (e : WEntry) : (s.carryCore e).mem = s.mem := by
  unfold State.carryCore
  split <;> rfl

@[simp] theorem State.publish_wf (scope : Nat) (h : Memory.wf s.mem = true) :
    Memory.wf (s.publish scope).mem = true := by
  unfold State.publish
  exact foldl_wf (fun _ _ h => by split <;> simp [h]) _ h

@[simp] theorem State.drain_wf (h : Memory.wf s.mem = true) : Memory.wf s.drain.mem = true := by
  unfold State.drain
  exact foldl_wf (fun _ _ h => by simp [h]) _ h

@[simp] theorem State.refresh_mem (s : State) (scope : Nat) : (s.refresh scope).mem = s.mem := by
  unfold State.refresh
  split <;> rfl

@[simp] theorem State.flushOver_wf (a n : Nat) (h : Memory.wf s.mem = true) :
    Memory.wf (s.flushOver a n).mem = true := by
  unfold State.flushOver
  exact foldl_wf (fun _ _ h => by simp [h]) _ h

@[simp] theorem State.fill_mem (s : State) (g : Nat) : (s.fill g).mem = s.mem := by
  unfold State.fill
  (repeat' split) <;> rfl

@[simp] theorem State.fillPending_mem (s : State) (g : Nat) : (s.fillPending g).mem = s.mem := by
  simp only [State.fillPending]
  (repeat' split) <;> simp

@[simp] theorem State.settleOne_mem (s : State) (g : Nat) : (s.settleOne g).mem = s.mem := by
  unfold State.settleOne
  (repeat' split) <;> simp

@[simp] theorem State.settle_mem (s : State) (a n : Nat) : (s.settle a n).mem = s.mem := by
  unfold State.settle
  exact foldl_mem (fun _ _ => by simp) _

@[simp] theorem State.store_mem (s : State) (a : Nat) (b : List Byte) : (s.store a b).mem = s.mem := by
  simp [State.store]

@[simp] theorem State.sinkHost_wf (a n : Nat) (h : Memory.wf s.mem = true) :
    Memory.wf (s.sinkHost a n).mem = true := by
  unfold State.sinkHost
  grind [State.writeBack_wf, foldl_wf]

@[simp] theorem State.freshStore_wf (a : Nat) (b : List Byte) (h : Memory.wf s.mem = true) :
    Memory.wf (s.freshStore a b).mem = true := by
  unfold State.freshStore
  grind [State.sinkHost_wf, State.flushOver_wf, State.settle_mem, State.modCo_mem, State.wr_wf]

@[simp] theorem State.beforeFresh_wf (a n : Nat) (h : Memory.wf s.mem = true) :
    Memory.wf (s.beforeFresh a n).mem = true := by
  unfold State.beforeFresh
  grind [State.settle_mem, State.writeBack_wf, foldl_wf]

@[simp] theorem State.atHome_wf (a n : Nat) (h : Memory.wf s.mem = true) :
    Memory.wf (s.atHome a n).mem = true := by
  simp [State.atHome, h]

@[simp] theorem State.flushHost_wf (o : Nat × BitVec 16) (h : Memory.wf s.mem = true) :
    Memory.wf (s.flushHost o).mem = true := by
  unfold State.flushHost
  exact foldl_wf (fun _ _ h => by simp [h]) _ h

@[simp] theorem State.dropHost_mem (s : State) (o : Nat × BitVec 16) : (s.dropHost o).mem = s.mem :=
  rfl

/-! ### Machine/Translate -/

@[simp] theorem State.setEntryBit_wf (pa bit : Nat) (h : Memory.wf s.mem = true) :
    Memory.wf (s.setEntryBit pa bit).mem = true := by
  unfold State.setEntryBit
  dsimp only
  split <;> simp [State.wrNat_wf, h]

@[simp] theorem State.bumpVf_wf (vf off : Nat) (h : Memory.wf s.mem = true) :
    Memory.wf (s.bumpVf vf off).mem = true := by
  simp [State.bumpVf, State.wrNat_wf, h]

@[simp] theorem State.countRefused_wf (a : Nat) (h : Memory.wf s.mem = true) :
    Memory.wf (s.countRefused a).mem = true := by
  simp [State.countRefused, h]

@[simp] theorem State.refusePort_wf (port a : Nat) (h : Memory.wf s.mem = true) :
    Memory.wf (s.refusePort port a).mem = true := by
  unfold State.refusePort
  split <;> simp [h]

@[simp] theorem walk2_wf (port vf gpa : Nat) (l : List (Nat × Nat × Nat)) (table : Nat)
    (h : Memory.wf s.mem = true) :
    Memory.wf (walk2 port vf gpa l table s).1.mem = true := by
  induction l generalizing table s with
  | nil => exact h
  | cons a l ih =>
    unfold walk2
    grind [State.refusePort_wf, State.setEntryBit_wf]

@[simp] theorem State.stage2_wf (port vf gpa : Nat) (h : Memory.wf s.mem = true) :
    Memory.wf (s.stage2 port vf gpa).1.mem = true := by
  unfold State.stage2
  split <;> exact wf_of_eq ‹_› (walk2_wf _ _ _ _ _ h)

@[simp] theorem walk1_wf (port vf va : Nat) (l : List (Nat × Nat × Nat)) (table : Nat)
    (h : Memory.wf s.mem = true) :
    Memory.wf (walk1 port vf va l table s).1.mem = true := by
  induction l generalizing table s with
  | nil => exact h
  | cons a l ih =>
    unfold walk1
    grind [State.refusePort_wf, State.setEntryBit_wf, State.stage2_wf]

@[simp] theorem State.markDirty_wf (acc : Acc) (e : Dword) (pa pa2 : Nat)
    (s2 : Option (Dword × Nat)) (h : Memory.wf s.mem = true) :
    Memory.wf (s.markDirty acc e pa pa2 s2).mem = true := by
  unfold State.markDirty
  grind [State.setEntryBit_wf]

@[simp] theorem State.frameOf_wf (x : Ctx) (acc : Acc) (va : Nat) (e : Dword) (bits : Nat)
    (h : Memory.wf s.mem = true) :
    Memory.wf (s.frameOf x acc va e bits).1.mem = true := by
  unfold State.frameOf
  grind [State.stage2_wf, State.refusePort_wf]

@[simp] theorem State.tlbTake_mem (s : State) (t : TlbEntry) : (s.tlbTake t).mem = s.mem := rfl

@[simp] theorem State.coreTakes_mem (s : State) (x : Ctx) (t : TlbEntry) :
    (s.coreTakes x t).mem = s.mem := by
  unfold State.coreTakes
  split <;> rfl

@[simp] theorem State.resolve_wf (x : Ctx) (acc : Acc) (va : Nat) (e : Dword) (bits pa pa2 : Nat)
    (h : Memory.wf s.mem = true) :
    Memory.wf (s.resolve x acc va e bits pa pa2).1.mem = true := by
  unfold State.resolve
  grind [State.frameOf_wf, State.coreTakes_mem, State.tlbTake_mem, State.markDirty_wf]

@[simp] theorem State.translateWalk_wf (x : Ctx) (acc : Acc) (va : Nat)
    (h : Memory.wf s.mem = true) :
    Memory.wf (s.translateWalk x acc va).1.mem = true := by
  unfold State.translateWalk
  grind [walk1_wf, State.resolve_wf]

@[simp] theorem State.translateHit_wf (x : Ctx) (acc : Acc) (va : Nat) (t : TlbEntry)
    (h : Memory.wf s.mem = true) :
    Memory.wf (s.translateHit x acc va t).1.mem = true := by
  unfold State.translateHit
  grind [State.refusePort_wf, State.frameOf_wf, State.markDirty_wf]

@[simp] theorem State.translate_wf (x : Ctx) (acc : Acc) (va : Nat) (h : Memory.wf s.mem = true) :
    Memory.wf (s.translate x acc va).1.mem = true := by
  unfold State.translate
  (repeat' split) <;> simp [h]

@[simp] theorem State.accessNamed_wf (acc : Acc) (a : Int) (n : Nat) (h : Memory.wf s.mem = true) :
    Memory.wf (s.accessNamed acc a n).1.mem = true := by
  unfold State.accessNamed
  grind [State.translate_wf]

@[simp] theorem State.access_wf (acc : Acc) (a : Int) (n : Nat) (h : Memory.wf s.mem = true) :
    Memory.wf (s.access acc a n).1.mem = true := by
  unfold State.access
  grind [State.accessNamed_wf, State.modCo_mem]

/-! ### Machine/Ops -/

@[simp] theorem State.landOne_mem (s : State) (d : Deferred) : (s.landOne d).mem = s.mem := by
  have hf (l : List Nat) : (l.foldl (fun s g => s.fill g) s).mem = s.mem :=
    foldl_mem State.fill_mem l
  simp only [State.landOne]
  (repeat' split) <;> simp [hf]

@[simp] theorem State.landAll_mem (s : State) : s.landAll.mem = s.mem := by
  unfold State.landAll
  exact foldl_mem (fun _ _ => by simp) _

@[simp] theorem State.spillGroup_wf (g home : Nat) (h : Memory.wf s.mem = true) :
    Memory.wf (s.spillGroup g home).mem = true := by
  unfold State.spillGroup
  split <;> simp [Memory.putAll_wf, h]

@[simp] theorem State.refillGroup_mem (s : State) (g home : Nat) :
    (s.refillGroup g home).mem = s.mem :=
  rfl

@[simp] theorem State.moveGroups_wf (h : Memory.wf s.mem = true) :
    Memory.wf s.moveGroups.mem = true := by
  unfold State.moveGroups
  grind [State.spillGroup_wf, State.refillGroup_mem, State.modCo_mem, foldl_wf]

@[simp] theorem State.stopHaul_mem (s : State) (haul status : Nat) (detail : Word) (faddr : Dword) :
    (s.stopHaul haul status detail faddr).mem = s.mem :=
  rfl

@[simp] theorem State.halt_mem (s : State) (k : Cause) : (s.halt k).mem = s.mem := rfl

@[simp] theorem State.takeTrap_mem (s : State) : s.takeTrap.mem = s.mem := by
  simp only [State.takeTrap]
  (repeat' split) <;> simp

@[simp] theorem State.enterTrap_mem (s : State) : s.enterTrap.mem = s.mem := by
  unfold State.enterTrap
  split <;> simp

@[simp] theorem State.trapReturn_mem (s : State) : s.trapReturn.mem = s.mem := by
  unfold State.trapReturn
  split <;> rfl

@[simp] theorem State.endWait_mem (s : State) : s.endWait.mem = s.mem := by
  unfold State.endWait
  split <;> simp

@[simp] theorem State.releaseWait_mem (s : State) (coach : Nat) :
    (s.releaseWait coach).mem = s.mem := by
  unfold State.releaseWait
  grind [State.within_mem, State.endWait_mem, State.modCo_mem]

@[simp] theorem State.dropSegment_mem (s : State) : s.dropSegment.mem = s.mem := rfl

@[simp] theorem State.beginWait_mem (s : State) : s.beginWait.mem = s.mem := rfl

@[simp] theorem State.afterResults_mem (s : State) : s.afterResults.mem = s.mem := by
  unfold State.afterResults
  (repeat' split) <;> simp

@[simp] theorem State.park_wf (h : Memory.wf s.mem = true) : Memory.wf s.park.mem = true := by
  unfold State.park
  (repeat' split) <;> simp [h]

@[simp] theorem State.commitBases_mem (s : State) : s.commitBases.mem = s.mem := by
  unfold State.commitBases
  rw [State.modCo_mem]
  exact foldl_mem (fun _ _ => State.modVf_mem ..) _

@[simp] theorem State.endOfRun_wf (h : Memory.wf s.mem = true) :
    Memory.wf s.endOfRun.mem = true := by
  unfold State.endOfRun
  split <;> simp [h]

@[simp] theorem State.endOffset_wf (h : Memory.wf s.mem = true) :
    Memory.wf s.endOffset.mem = true := by
  unfold State.endOffset
  grind [State.commitBases_mem, State.modCo_mem, State.park_wf, State.endOfRun_wf]

@[simp] theorem State.finishWord_wf (m : Bool) (h : Memory.wf s.mem = true) :
    Memory.wf (State.finishWord m s).mem = true := by
  unfold State.finishWord
  dsimp only
  split
  · simp [h]
  · split <;> simp [h]

/-! ### Machine/Fetch -/

@[simp] theorem State.fetchWord_wf (p : BitVec 2) (h : Memory.wf s.mem = true) :
    Memory.wf (s.fetchWord p).1.mem = true := by
  unfold State.fetchWord
  grind [State.translate_wf, State.modCore_mem]

@[simp] theorem State.fetchAll_wf (l : List (BitVec 2)) (h : Memory.wf s.mem = true) :
    Memory.wf (State.fetchAll l s).1.mem = true := by
  induction l generalizing s with
  | nil => exact h
  | cons a l ih =>
    unfold State.fetchAll
    grind [State.fetchWord_wf]

@[simp] theorem State.fetchOffset_wf (h : Memory.wf s.mem = true) :
    Memory.wf s.fetchOffset.1.mem = true := by
  unfold State.fetchOffset
  split <;> simp [h]

@[simp] theorem State.palign_wf (l : List (BitVec 2 × Word)) (h : Memory.wf s.mem = true) :
    Memory.wf (s.palign l).mem = true := by
  simp [State.palign, h]

@[simp] theorem State.openOffset_wf (h : Memory.wf s.mem = true) :
    Memory.wf s.openOffset.1.mem = true := by
  unfold State.openOffset
  grind [State.fetchOffset_wf, State.palign_wf, State.modCo_mem]

@[simp] theorem State.rotate_mem (s : State) : s.rotate.mem = s.mem := by
  unfold State.rotate
  split <;> rfl

@[simp] theorem State.waitInstr_wf (h : Memory.wf s.mem = true) :
    Memory.wf s.waitInstr.1.mem = true := by
  unfold State.waitInstr
  dsimp only
  split
  · simp [h]
  · split <;> simp [wf_of_eq ‹_› (State.translate_wf _ _ _ h)]

@[simp] theorem State.auto_wf (h : Memory.wf s.mem = true) : Memory.wf s.auto.2.mem = true := by
  unfold State.auto
  grind [State.rotate_mem, State.openOffset_wf]

@[simp] theorem State.keepJournal_mem (s : State) : s.keepJournal.mem = s.mem := by
  unfold State.keepJournal
  split <;> rfl

@[simp] theorem State.tick_mem (s : State) : s.tick.mem = s.mem := by
  simp only [State.tick]
  (repeat' split) <;> simp

/-! ### Machine/Operands -/

@[simp] theorem State.lane_mem (s : State) (d : BitVec 6) (f : Coach → Nat → Word) :
    (s.lane d f).mem = s.mem :=
  rfl

@[simp] theorem State.laneF_mem (s : State) (d : BitVec 6) (f : Coach → Nat → Word × BitVec 5) :
    (s.laneF d f).mem = s.mem :=
  rfl

@[simp] theorem State.laneD_mem (s : State) (d : BitVec 6) (f : Coach → Nat → Word × BitVec 5) :
    (s.laneD d f).mem = s.mem :=
  rfl

@[simp] theorem State.lanePred_mem (s : State) (d : BitVec 5) (f : Coach → Nat → Bool) :
    (s.lanePred d f).mem = s.mem :=
  rfl

@[simp] theorem State.lanePredF_mem (s : State) (d : BitVec 5) (f : Coach → Nat → Bool × BitVec 5) :
    (s.lanePredF d f).mem = s.mem :=
  rfl

@[simp] theorem State.group_mem (s : State) (d : BitVec 6) (f : Coach → Dword) :
    (s.group d f).mem = s.mem :=
  rfl

@[simp] theorem State.groupD_mem (s : State) (d : BitVec 6) (f : Coach → Dword) :
    (s.groupD d f).mem = s.mem :=
  rfl

@[simp] theorem State.groupPred_mem (s : State) (d : BitVec 4) (f : Coach → Bool) :
    (s.groupPred d f).mem = s.mem :=
  rfl

/-! ### Machine/Control -/

@[simp] theorem State.switch_mem (s : State) (f : Coach → Nat → Word) : (s.switch f).mem = s.mem :=
  rfl

@[simp] theorem State.call_wf (f : BitVec 3) (target : Int) (h : Memory.wf s.mem = true) :
    Memory.wf (s.call f target).mem = true := by
  unfold State.call
  dsimp only
  split
  · simp [h]
  · split <;> simp [State.wrNat_wf, h]

@[simp] theorem State.ret_mem (s : State) : s.ret.mem = s.mem := by
  unfold State.ret
  grind [State.trapAll_mem, State.modCo_mem]

/-! ### Machine/Integer -/

@[simp] theorem State.typed_mem {f : State → State} (i : Instr) (n : Nat)
    (hf : ∀ t, (f t).mem = t.mem) :
    (s.typed i n f).mem = s.mem := by
  unfold State.typed
  split <;> simp [hf]

theorem State.typed_wf {f : State → State} {i : Instr} {n : Nat} (h : Memory.wf s.mem = true)
    (hf : Memory.wf (f s).mem = true) :
    Memory.wf (s.typed i n f).mem = true := by
  unfold State.typed
  split
  exacts [h, hf]

@[simp] theorem State.arith2_mem (s : State) (d a b : BitVec 6) (iop : Int → Int → Int)
    (fop : Nat → BitVec 2 → Nat → Nat → Nat × Flags) :
    (s.arith2 d a b iop fop).mem = s.mem :=
  rfl

@[simp] theorem State.bits2_mem (s : State) (d a b : BitVec 6) (f : Word → Word → Word) :
    (s.bits2 d a b f).mem = s.mem :=
  rfl

@[simp] theorem State.bits1_mem (s : State) (d a : BitVec 6) (f : Word → Word) :
    (s.bits1 d a f).mem = s.mem :=
  rfl

/-! ### Machine/MemoryOps -/

@[simp] theorem State.residentAccess_wf (acc : Acc) (a : Int) (n : Nat)
    (h : Memory.wf s.mem = true) :
    Memory.wf (s.residentAccess acc a n).1.mem = true := by
  unfold State.residentAccess
  split <;> exact wf_of_eq ‹_› (State.access_wf _ _ _ h)

@[simp] theorem State.storeAccess_wf (a : Int) (n : Nat) (h : Memory.wf s.mem = true) :
    Memory.wf (s.storeAccess a n).1.mem = true := by
  simp [State.storeAccess, h]

@[simp] theorem State.eccLane_mem (s : State) (l : Nat) (k : Cause) : (s.eccLane l k).mem = s.mem :=
  rfl

@[simp] theorem State.plainLoad_mem (s : State) (h : Nat) (name : Option Nat) (n : Nat) :
    (s.plainLoad h name n).1.mem = s.mem := by
  unfold State.plainLoad
  split <;> rfl

@[simp] theorem State.ldLane_wf (d a b : BitVec 6) (n : Nat) (so sx fresh : Bool) (l : Nat)
    (h : Memory.wf s.mem = true) :
    Memory.wf (s.ldLane d a b n so sx fresh l).1.mem = true := by
  unfold State.ldLane
  grind [State.accessNamed_wf, State.trapLanes_mem, State.beforeFresh_wf, State.eccLane_mem,
    State.modCo_mem, State.plainLoad_mem]

@[simp] theorem State.ldLanes_wf (d a b : BitVec 6) (n : Nat) (so sx fresh : Bool) (l : List Nat)
    (h : Memory.wf s.mem = true) :
    Memory.wf (s.ldLanes d a b n so sx fresh l).1.mem = true := by
  induction l generalizing s with
  | nil => exact h
  | cons a l ih =>
    unfold State.ldLanes
    grind [State.ldLane_wf]

@[simp] theorem State.stLane_wf (d a b : BitVec 6) (n : Nat) (so fresh : Bool) (l : Nat)
    (h : Memory.wf s.mem = true) :
    Memory.wf (State.stLane d a b n so fresh s l).mem = true := by
  unfold State.stLane
  grind [State.storeAccess_wf, State.trapLanes_mem, State.freshStore_wf, State.store_mem]

@[simp] theorem State.spaceLdLane_mem (quad : Bool) (d a b : BitVec 6) (n : Nat) (sx : Bool)
    (s : State) (l : Nat) :
    (State.spaceLdLane quad d a b n sx s l).mem = s.mem := by
  simp only [State.spaceLdLane]
  (repeat' split) <;> simp

@[simp] theorem State.spaceStLane_mem (quad : Bool) (d a b : BitVec 6) (n : Nat) (s : State)
    (l : Nat) :
    (State.spaceStLane quad d a b n s l).mem = s.mem := by
  unfold State.spaceStLane
  split <;> simp

@[simp] theorem State.atomHome_wf (p : BitVec 2) (op : Nat) (addr : Int)
    (h : Memory.wf s.mem = true) :
    Memory.wf (s.atomHome p op addr).1.mem = true := by
  unfold State.atomHome
  split <;> simp [h]

@[simp] theorem State.atomLane_wf (ret : Bool) (d a b : BitVec 6) (p : BitVec 2) (op l : Nat)
    (h : Memory.wf s.mem = true) :
    Memory.wf (State.atomLane ret d a b p op s l).mem = true := by
  unfold State.atomLane
  grind [State.atomHome_wf, State.trapLanes_mem, State.atHome_wf, State.eccLane_mem,
    State.wrNat_wf, State.modCo_mem]

theorem State.cellLane_wf (write : Bool) (a b : BitVec 6)
    {f : Nat → Nat → State → BitVec 128 → State}
    (hf : ∀ i l t x, Memory.wf t.mem = true → Memory.wf (f i l t x).mem = true) (l : Nat)
    (h : Memory.wf s.mem = true) :
    Memory.wf (State.cellLane write a b f s l).mem = true := by
  unfold State.cellLane
  grind [State.residentAccess_wf, State.atHome_wf, State.trapLanes_mem, State.eccLane_mem]

@[simp] theorem State.probe_wf (a : Int) (h : Memory.wf s.mem = true) :
    Memory.wf (s.probe a).1.mem = true := by
  unfold State.probe
  (repeat' split) <;> simp [h]

@[simp] theorem State.pgLane_wf (a b : BitVec 6) {r : State × List (Nat × Nat)} (l : Nat)
    (h : Memory.wf r.1.mem = true) :
    Memory.wf (State.pgLane a b r l).1.mem = true := by
  unfold State.pgLane
  dsimp only
  split <;> simp [wf_of_eq ‹_› (State.probe_wf _ h)]

@[simp] theorem State.resLane_wf (a b : BitVec 6) {r : State × LaneMask} (l : Nat)
    (h : Memory.wf r.1.mem = true) :
    Memory.wf (State.resLane a b r l).1.mem = true := by
  unfold State.resLane
  dsimp only
  split <;> simp [wf_of_eq ‹_› (State.probe_wf _ h)]

/-! ### Machine/Engine -/

@[simp] theorem State.poke_wf (o : Nat × BitVec 16) (a : Nat) (b : List Byte)
    (h : Memory.wf s.mem = true) :
    Memory.wf (s.poke o a b).mem = true := by
  unfold State.poke
  split <;> simp [Memory.putAll_wf, h]

@[simp] theorem State.atomicAt_wf (a n : Nat) (f : Nat → Nat) (h : Memory.wf s.mem = true) :
    Memory.wf (s.atomicAt a n f).mem = true := by
  unfold State.atomicAt
  dsimp only
  split <;> simp [State.wrNat_wf, h]

theorem State.atPort_wf {f : State → State} (port home : Nat) (hf : Memory.wf (f s).mem = true)
    (h : Memory.wf s.mem = true) :
    Memory.wf (s.atPort port home f).mem = true := by
  unfold State.atPort
  split <;> simp [hf, h]

@[simp] theorem State.readSpans_wf (x : Ctx) (l : List (Nat × Nat)) (h : Memory.wf s.mem = true) :
    Memory.wf (State.readSpans x l s).1.mem = true := by
  induction l generalizing s with
  | nil => exact h
  | cons a l ih =>
    unfold State.readSpans
    grind [State.translate_wf]

@[simp] theorem State.readVa_wf (x : Ctx) (a n : Nat) (h : Memory.wf s.mem = true) :
    Memory.wf (s.readVa x a n).1.mem = true := by
  simp [State.readVa, h]

@[simp] theorem State.writeHomes_wf (x : Ctx) (l : List (Nat × Nat)) (h : Memory.wf s.mem = true) :
    Memory.wf (State.writeHomes x l s).1.mem = true := by
  induction l generalizing s with
  | nil => exact h
  | cons a l ih =>
    unfold State.writeHomes
    grind [State.translate_wf]

@[simp] theorem State.pokeAll_wf (o : Nat × BitVec 16) (l : List (Nat × Nat)) (b : List Byte)
    (h : Memory.wf s.mem = true) :
    Memory.wf (s.pokeAll o l b).mem = true := by
  induction l generalizing s b with
  | nil => exact h
  | cons a l ih =>
    unfold State.pokeAll
    grind [State.poke_wf]

@[simp] theorem State.writeVa_wf (x : Ctx) (a : Nat) (b : List Byte) (h : Memory.wf s.mem = true) :
    Memory.wf (s.writeVa x a b).1.mem = true := by
  unfold State.writeVa
  split <;> simp [wf_of_eq ‹_› (State.writeHomes_wf _ _ h)]

@[simp] theorem State.atomicVa_wf (x : Ctx) (a n : Nat) (f : Nat → Nat)
    (h : Memory.wf s.mem = true) :
    Memory.wf (s.atomicVa x a n f).1.mem = true := by
  unfold State.atomicVa
  grind [State.translate_wf, State.atomicAt_wf]

@[simp] theorem State.gpaHome_wf (vf gpa : Nat) (write : Bool) (h : Memory.wf s.mem = true) :
    Memory.wf (s.gpaHome vf gpa write).1.mem = true := by
  unfold State.gpaHome
  grind [State.stage2_wf, State.refusePort_wf, State.setEntryBit_wf]

@[simp] theorem State.readGpa_wf (vf gpa n : Nat) (h : Memory.wf s.mem = true) :
    Memory.wf (s.readGpa vf gpa n).1.mem = true := by
  unfold State.readGpa
  split <;> exact wf_of_eq ‹_› (State.gpaHome_wf _ _ _ h)

@[simp] theorem State.modSet_wf (vf : Nat) (p : PSet) (h : Memory.wf s.mem = true) :
    Memory.wf (s.modSet vf p).mem = true := by
  unfold State.modSet
  grind [State.modVf_mem, State.wr_wf, State.wrNat_wf]

@[simp] theorem State.publishSet_wf (vf id : Nat) (h : Memory.wf s.mem = true) :
    Memory.wf (s.publishSet vf id).mem = true := by
  unfold State.publishSet
  split <;> simp [h]

@[simp] theorem State.onSet_wf (a : BitVec 6) (bad : PSet → Bool) (f : PSet → PSet)
    (h : Memory.wf s.mem = true) :
    Memory.wf (s.onSet a bad f).mem = true := by
  unfold State.onSet
  grind [State.trapAll_mem, State.modSet_wf]

/-! ### Machine/Dray -/

@[simp] theorem State.wakeTdone_mem (s : State) (quad : Nat) : (s.wakeTdone quad).mem = s.mem := by
  unfold State.wakeTdone
  exact foldl_mem (fun _ _ => by simp) _

@[simp] theorem State.drayIssue_mem (s : State) (op : Nat) (a : BitVec 6) :
    (s.drayIssue op a).mem = s.mem := by
  simp only [State.drayIssue]
  (repeat' split) <;> simp

@[simp] theorem State.drayRead_wf (c : DrayCmd) (sp rel a n : Nat) (h : Memory.wf s.mem = true) :
    Memory.wf (s.drayRead c sp rel a n).1.mem = true := by
  unfold State.drayRead
  grind [State.readVa_wf]

@[simp] theorem State.shadowHomes_wf (x : Ctx) (l : List (Nat × Nat)) (h : Memory.wf s.mem = true) :
    Memory.wf (State.shadowHomes x l s).1.mem = true := by
  induction l generalizing s with
  | nil => exact h
  | cons a l ih =>
    unfold State.shadowHomes
    grind [State.writeHomes_wf]

@[simp] theorem State.drayWrite_wf (c : DrayCmd) (a : Nat) (b : List Byte)
    (h : Memory.wf s.mem = true) :
    Memory.wf (s.drayWrite c a b).1.mem = true := by
  unfold State.drayWrite
  grind [State.shadowHomes_wf, State.pokeAll_wf, State.writeVa_wf, State.wr_wf]

@[simp] theorem State.drayHalves_wf (c : DrayCmd) (a : Nat) (l : List Nat)
    (h : Memory.wf s.mem = true) :
    Memory.wf (State.drayHalves c a l s).1.mem = true := by
  induction l generalizing a s with
  | nil => exact h
  | cons a l ih =>
    unfold State.drayHalves
    grind [State.drayWrite_wf]

@[simp] theorem State.drayVals_wf (c : DrayCmd) (n a k : Nat) (h : Memory.wf s.mem = true) :
    Memory.wf (State.drayVals c n a k s).1.mem = true := by
  induction k generalizing a s with
  | zero => exact h
  | succ k ih =>
    unfold State.drayVals
    grind [State.drayRead_wf]

@[simp] theorem State.drayMove_wf (c : DrayCmd) (sa da : Nat) (h : Memory.wf s.mem = true) :
    Memory.wf (s.drayMove c sa da).1.mem = true := by
  unfold State.drayMove
  split <;> simp [wf_of_eq ‹_› (State.drayRead_wf _ _ _ _ _ h)]

@[simp] theorem State.drayBlock_wf (c : DrayCmd) (r b : Nat) (h : Memory.wf s.mem = true) :
    Memory.wf (s.drayBlock c r b).1.mem = true := by
  unfold State.drayBlock
  grind [State.drayVals_wf, State.drayWrite_wf, State.drayRead_wf, State.drayHalves_wf]

@[simp] theorem State.drayUnit_wf (c : DrayCmd) (h : Memory.wf s.mem = true) :
    Memory.wf (s.drayUnit c).1.mem = true := by
  unfold State.drayUnit
  grind [State.drayMove_wf, State.drayBlock_wf, State.drayWrite_wf]

@[simp] theorem State.drayUnits_wf (k : Nat) (c : DrayCmd) (h : Memory.wf s.mem = true) :
    Memory.wf (State.drayUnits k s c).1.mem = true := by
  induction k generalizing s c with
  | zero => exact h
  | succ k ih =>
    unfold State.drayUnits
    grind [State.drayUnit_wf]

@[simp] theorem State.modChan_mem (s : State) (quad n : Nat) (f : Channel → Channel) :
    (s.modChan quad n f).mem = s.mem :=
  rfl

@[simp] theorem State.drayCounter_wf (c : DrayCmd) (h : Memory.wf s.mem = true) :
    Memory.wf (s.drayCounter c).1.mem = true := by
  unfold State.drayCounter
  grind [State.translate_wf]

@[simp] theorem State.drayCount_wf (c : DrayCmd) (h : Memory.wf s.mem = true) :
    Memory.wf (s.drayCount c).1.mem = true := by
  unfold State.drayCount
  grind [State.drayCounter_wf, State.atomicAt_wf]

@[simp] theorem State.counterHome_wf (a : BitVec 6) (h : Memory.wf s.mem = true) :
    Memory.wf (s.counterHome a).1.mem = true := by
  simp [State.counterHome, h]

@[simp] theorem State.eccMask_mem (s : State) (m : LaneMask) (k : Cause) :
    (s.eccMask m k).mem = s.mem :=
  rfl

@[simp] theorem State.counterFor_wf (a : Nat) (v : Dword) (h : Memory.wf s.mem = true) :
    Memory.wf (s.counterFor a v).1.mem = true := by
  unfold State.counterFor
  split <;> exact wf_of_eq ‹_› (State.residentAccess_wf _ _ _ h)

@[simp] theorem State.dwaitOf_wf (h : Memory.wf s.mem = true) :
    Memory.wf s.dwaitOf.1.mem = true := by
  have hw := State.waitInstr_wf h
  unfold State.dwaitOf
  cases s.co.issue.wait with
  | recorded k o =>
    rcases k with _ | _ | _ | _ | _ | k
    case succ.succ.succ.succ.zero =>
      rcases o with _ | o
      · generalize s.waitInstr = x at hw ⊢
        obtain ⟨t, _ | i⟩ := x
        · exact hw
        · cases i with
          | dwait _ a b => exact State.counterFor_wf _ _ hw
          | _ => exact hw
      · exact State.counterFor_wf _ _ h
    all_goals exact h
  | _ => exact h

/-! ### Machine/FloatOps -/

@[simp] theorem State.special_mem (s : State) (i : Instr) (d a : BitVec 6)
    (f : BitVec 2 → Nat → Nat → Nat × Flags) :
    (s.special i d a f).mem = s.mem := by
  unfold State.special
  grind [State.trapPlane_mem, State.typed_mem, State.laneD_mem]

/-! ### Machine/Lanes -/

@[simp] theorem State.shuffle_mem (s : State) (d a : BitVec 6) (f : Coach → Nat → Int) :
    (s.shuffle d a f).mem = s.mem :=
  rfl

@[simp] theorem State.pred_mem (s : State) (d : BitVec 5) (f : Coach → LaneMask) :
    (s.pred d f).mem = s.mem :=
  rfl

@[simp] theorem State.group2_mem (s : State) (d a b : BitVec 6) (f : Dword → Dword → Dword) :
    (s.group2 d a b f).mem = s.mem :=
  rfl

/-! ### Machine/System -/

@[simp] theorem State.sleepOf_wf (h : Memory.wf s.mem = true) :
    Memory.wf s.sleepOf.1.mem = true := by
  have hw := State.waitInstr_wf h
  unfold State.sleepOf
  cases s.co.issue.wait with
  | recorded k o =>
    rcases k with _ | _ | _ | _ | _ | _ | k
    case succ.succ.succ.succ.succ.zero =>
      rcases o with _ | o
      · generalize s.waitInstr = x at hw ⊢
        obtain ⟨t, _ | i⟩ := x
        · exact hw
        · cases i <;> exact hw
      · exact h
    all_goals exact h
  | _ => exact h

@[simp] theorem State.drainFrames_wf (gone : List TlbEntry) (h : Memory.wf s.mem = true) :
    Memory.wf (s.drainFrames gone).mem = true := by
  unfold State.drainFrames
  grind [State.flushOver_wf, State.carryEnd_wf, foldl_wf]

@[simp] theorem State.dropTlb_wf (vf : Nat) (asid : BitVec 16) (scope va : Nat)
    (h : Memory.wf s.mem = true) :
    Memory.wf (s.dropTlb vf asid scope va).mem = true :=
  foldl_wf (fun t _ ht => by
    split
    · exact ht
    · exact State.within_wf _ (fun _ => State.drainFrames_wf _) ht) _ h

@[simp] theorem State.trapLatched_wf (code : BitVec 8) (l : Latched) (h : Memory.wf s.mem = true) :
    Memory.wf (s.trapLatched code l).mem = true :=
  State.within_wf _ (fun _ h => by split; exacts [h, by split <;> simp [h]]) h

@[simp] theorem State.breakGang_wf (core : Nat) (g : Dword) (h : Memory.wf s.mem = true) :
    Memory.wf (s.breakGang core g).mem = true := by
  unfold State.breakGang
  grind [State.modCoach_mem, State.modCore_mem, State.trapLatched_wf, foldl_wf]

@[simp] theorem State.setGang_wf (x : Dword) (h : Memory.wf s.mem = true) :
    Memory.wf (s.setGang x).mem = true := by
  unfold State.setGang
  grind [State.trapAll_mem, State.breakGang_wf, State.modCo_mem, foldl_wf]

@[simp] theorem State.setFrameReg_mem (s : State) (i : Nat) (x : Dword) (w : Word) :
    (s.setFrameReg i x w).mem = s.mem := by
  unfold State.setFrameReg
  (repeat' split) <;> rfl

@[simp] theorem State.finishReset_wf (vf : Nat) (h : Memory.wf s.mem = true) :
    Memory.wf (s.finishReset vf).mem = true := by
  unfold State.finishReset
  split <;> simp [Memory.clear_wf, h]

@[simp] theorem State.resetVf_wf (vf : Nat) (h : Memory.wf s.mem = true) :
    Memory.wf (s.resetVf vf).mem = true := by
  unfold State.resetVf
  grind [State.modHaul_mem, State.stopHaul_mem, State.finishReset_wf, State.modVf_mem, foldl_wf]

@[simp] theorem State.toError_wf (vf : Nat) (h : Memory.wf s.mem = true) :
    Memory.wf (s.toError vf).mem = true := by
  unfold State.toError
  split <;> simp [h]

@[simp] theorem State.setDevReg_wf (i : Nat) (x : Dword) (w : Word) (h : Memory.wf s.mem = true) :
    Memory.wf (s.setDevReg i x w).mem = true := by
  unfold State.setDevReg
  grind [State.trapPlane_mem, State.toError_wf, State.modDev_mem, State.modVf_mem,
    State.resetVf_wf, State.modCo_mem, foldl_wf]

@[simp] theorem State.setSreg_wf (i : Nat) (x : Dword) (w : Word) (h : Memory.wf s.mem = true) :
    Memory.wf (s.setSreg i x w).mem = true := by
  unfold State.setSreg
  (repeat' split) <;> simp [h]

/-! ### Machine/Matrix -/

@[simp] theorem State.hwError_mem (s : State) (core unit : Nat) :
    (s.hwError core unit).mem = s.mem := by
  unfold State.hwError
  split <;> rfl

@[simp] theorem State.streamRow_wf (core : Nat) (fresh : Bool) (p : MSnap) (addr row : Nat)
    (h : Memory.wf s.mem = true) :
    Memory.wf (s.streamRow core fresh p addr row).mem = true := by
  unfold State.streamRow
  grind [State.hwError_mem, State.wr_wf]

@[simp] theorem State.loadTile_wf (core : Nat) (t : Bool) (addr : Nat) (p : MSnap)
    (h : Memory.wf s.mem = true) :
    Memory.wf (s.loadTile core t addr p).mem = true := by
  unfold State.loadTile
  grind [State.hwError_mem, State.wr_wf, foldl_wf]

@[simp] theorem State.runArray_wf (core : Nat) (op : ArrayOp) (h : Memory.wf s.mem = true) :
    Memory.wf (s.runArray core op).1.mem = true := by
  unfold State.runArray
  grind [State.loadTile_wf, State.swapPlanes_wf, State.streamRow_wf, State.modCoach_mem,
    State.wr_wf, State.clear_wf]

@[simp] theorem State.rowOp_wf (core : Nat) (op : ArrayOp) (h : Memory.wf s.mem = true) :
    Memory.wf (s.rowOp core op).mem = true := by
  unfold State.rowOp
  split <;> simp [h]

@[simp] theorem State.releaseAll_mem (s : State) (ls : List Latched) :
    (s.releaseAll ls).mem = s.mem := by
  unfold State.releaseAll
  exact foldl_mem (fun _ _ => by simp) _

@[simp] theorem State.proceed_mem (s : State) (core : Nat) (ls : List Latched) :
    (s.proceed core ls).mem = s.mem := by
  simp [State.proceed]

@[simp] theorem State.passToken_wf (core : Nat) (ls : List Latched) (mask : LaneMask) (x : Nat)
    (h : Memory.wf s.mem = true) :
    Memory.wf (s.passToken core ls mask x).mem = true := by
  unfold State.passToken
  grind [State.trapLatched_wf, State.releaseAll_mem, State.modCore_mem, foldl_wf]

@[simp] theorem State.rendezvous_wf (core : Nat) (ls : List Latched) (h : Memory.wf s.mem = true) :
    Memory.wf (s.rendezvous core ls).mem = true := by
  unfold State.rendezvous
  grind [State.passToken_wf, State.proceed_mem, State.modCore_mem, State.modCoach_mem, foldl_wf]

@[simp] theorem State.gangIssue_wf (l : Latched) (h : Memory.wf s.mem = true) :
    Memory.wf (s.gangIssue l).mem = true := by
  unfold State.gangIssue
  grind [State.modCo_mem, State.trapAll_mem, State.passToken_wf, State.modCore_mem,
    State.breakGang_wf]

@[simp] theorem State.loadIssue_wf (t : Bool) (a : BitVec 6) (w : Word)
    (h : Memory.wf s.mem = true) :
    Memory.wf (s.loadIssue t a w).mem = true := by
  unfold State.loadIssue
  grind [State.trapAll_mem, State.gangIssue_wf]

@[simp] theorem State.streamIssue_wf (op : Nat) (rows : List (Nat × Nat)) (w : Word)
    (h : Memory.wf s.mem = true) :
    Memory.wf (s.streamIssue op rows w).mem = true := by
  unfold State.streamIssue
  dsimp only
  split
  · simp [h]
  · split <;> simp [h]

@[simp] theorem State.plainStream_wf (op : Nat) (a b : BitVec 6) (w : Word)
    (h : Memory.wf s.mem = true) :
    Memory.wf (s.plainStream op a b w).mem = true := by
  unfold State.plainStream
  dsimp only
  split <;> simp [h]

@[simp] theorem State.gatherIssue_wf (d a b : BitVec 6) (w : Word) (h : Memory.wf s.mem = true) :
    Memory.wf (s.gatherIssue d a b w).mem = true := by
  unfold State.gatherIssue
  grind [State.trapAll_mem, State.streamIssue_wf]

@[simp] theorem State.leaveArray_wf (h : Memory.wf s.mem = true) :
    Memory.wf s.leaveArray.mem = true := by
  unfold State.leaveArray
  dsimp only
  split <;> simp [h]

/-! ### Machine/Sync -/

@[simp] theorem State.hflush_wf (h : Memory.wf s.mem = true) : Memory.wf s.hflush.mem = true := by
  simp [State.hflush, h]

@[simp] theorem State.evwaitOf_wf (h : Memory.wf s.mem = true) :
    Memory.wf s.evwaitOf.1.mem = true := by
  have hw := State.waitInstr_wf h
  unfold State.evwaitOf
  cases s.co.issue.wait with
  | recorded k o =>
    rcases k with _ | _ | _ | _ | k
    case succ.succ.succ.zero =>
      rcases o with _ | o
      · generalize s.waitInstr = x at hw ⊢
        obtain ⟨t, _ | i⟩ := x
        · exact hw
        · cases i <;> exact hw
      · exact h
    all_goals exact h
  | _ => exact h

@[simp] theorem State.completeBarrier_mem (s : State) (h : Haul) (x : BitVec 3) (c : Coach) :
    (s.completeBarrier h x c).mem = s.mem :=
  rfl

@[simp] theorem State.completeSaved_mem (s : State) (haul : Nat) :
    (s.completeSaved haul).mem = s.mem := by
  refine foldl_mem (fun t c => foldl_mem (fun t x => ?_) _) _
  split
  · rfl
  · split <;> simp

@[simp] theorem State.arriveAt_wf (x : BitVec 3) (h : Memory.wf s.mem = true) :
    Memory.wf (s.arriveAt x).mem = true := by
  simp [State.arriveAt, h]

@[simp] theorem State.leaveBarrier_mem (s : State) (x : BitVec 3) : (s.leaveBarrier x).mem = s.mem := by
  simp [State.leaveBarrier]

@[simp] theorem State.endBarrier_wf (h : Memory.wf s.mem = true) :
    Memory.wf s.endBarrier.mem = true := by
  unfold State.endBarrier
  (repeat' split) <;> simp [h]

/-! ### Machine/Image -/

/-- What a reader of an image has to do for the form: keep it (R34). -/
def Reader.KeepsWf (rd : Reader) : Prop :=
  ∀ ⦃s : State⦄ (a n : Nat), Memory.wf s.mem = true → Memory.wf (rd s a n).1.mem = true

theorem launchReader_keeps (x : Ctx) : (launchReader x).KeepsWf :=
  by
  intro _ a n h
  unfold launchReader
  grind [State.readVa_wf]

theorem bytesReader_keeps (b : List Byte) : (bytesReader b).KeepsWf :=
  by
  intro _ _ _ h
  unfold bytesReader
  split <;> exact h

theorem imageReads_wf {rd : Reader} (hr : rd.KeepsWf) (l : List (Nat × Nat))
    (h : Memory.wf s.mem = true) :
    Memory.wf (imageReads rd l s).1.mem = true := by
  induction l generalizing s with
  | nil => exact h
  | cons p l ih =>
    have hp := hr p.1 p.2 h
    unfold imageReads
    split
    · exact wf_of_eq ‹_› hp
    · have hi := ih (wf_of_eq ‹_› hp)
      split
      · exact wf_of_eq ‹_› hi
      · exact hi

theorem softReads_wf {rd : Reader} (hr : rd.KeepsWf) (l : List (Nat × Nat))
    (h : Memory.wf s.mem = true) :
    Memory.wf (softReads rd l s).1.mem = true := by
  induction l generalizing s with
  | nil => exact h
  | cons a l ih =>
    unfold softReads
    grind [Reader.KeepsWf]

theorem State.readAside_wf {rd : Reader} (hr : rd.KeepsWf) (hd : Header) (records : Nat)
    (recs : List (List Byte)) (h : Memory.wf s.mem = true) :
    Memory.wf (s.readAside rd hd records recs).1.mem = true :=
  softReads_wf hr _ h

theorem State.readRake_wf {rd : Reader} (hr : rd.KeepsWf) (hd : Header) (a : Nat)
    (h : Memory.wf s.mem = true) :
    Memory.wf (s.readRake rd hd a).1.mem = true := by
  unfold State.readRake
  grind [Reader.KeepsWf, imageReads_wf, State.readAside_wf]

theorem State.readRakes_wf {rd : Reader} (hr : rd.KeepsWf) (hd : Header) (l : List Nat)
    (h : Memory.wf s.mem = true) :
    Memory.wf (State.readRakes rd hd l s).1.mem = true := by
  induction l generalizing s with
  | nil => exact h
  | cons a l ih =>
    unfold State.readRakes
    grind [State.readRake_wf]

theorem State.readLifts_wf {rd : Reader} (hr : rd.KeepsWf) (hd : Header)
    (h : Memory.wf s.mem = true) :
    Memory.wf (s.readLifts rd hd).1.mem = true := by
  unfold State.readLifts
  grind [Reader.KeepsWf]

theorem State.readImage_wf {rd : Reader} (hr : rd.KeepsWf) (a : Nat) (h : Memory.wf s.mem = true) :
    Memory.wf (s.readImage rd a).1.mem = true := by
  unfold State.readImage
  grind [Reader.KeepsWf, State.readLifts_wf, State.readRakes_wf]

/-! ### Machine/Launch -/

@[simp] theorem State.endCommand_mem (s : State) (block slot status : Nat) (value : Dword) :
    (s.endCommand block slot status value).mem = s.mem :=
  rfl

@[simp] theorem State.qcbPut_wf (q : Queue) (off : Nat) (b : List Byte)
    (h : Memory.wf s.mem = true) :
    Memory.wf (s.qcbPut q off b).mem = true :=
  State.atPort_wf _ _ (State.wr_wf _ _ h) h

@[simp] theorem State.activateDeferred_wf (vf : Nat) (h : Memory.wf s.mem = true) :
    Memory.wf (s.activateDeferred vf).mem = true := by
  unfold State.activateDeferred
  grind [State.modVf_mem, State.qcbPut_wf]

@[simp] theorem State.setQstate_wf (q : Queue) (n : Nat) (h : Memory.wf s.mem = true) :
    Memory.wf (s.setQstate q n).mem = true := by
  unfold State.setQstate
  dsimp only
  split <;> simp [h]

@[simp] theorem State.writeErrsig_wf (q : Queue) (h : Memory.wf s.mem = true) :
    Memory.wf (s.writeErrsig q).mem = true := by
  unfold State.writeErrsig
  dsimp only
  split <;> simp [h]

@[simp] theorem State.queueError_wf (q : Queue) (cause : Nat) (h : Memory.wf s.mem = true) :
    Memory.wf (s.queueError q cause).mem = true := by
  unfold State.queueError
  grind [State.modVf_mem, State.setQstate_wf, State.qcbPut_wf, State.modQueue_mem,
    State.writeErrsig_wf]

@[simp] theorem State.settleQueue_wf (id : Nat) (h : Memory.wf s.mem = true) :
    Memory.wf (s.settleQueue id).mem = true := by
  unfold State.settleQueue
  grind [State.countRefused_wf, State.writeErrsig_wf, State.wr_wf, State.wrNat_wf,
    State.dropQueues_mem, State.endCommand_mem, State.setQstate_wf, State.modQueue_mem, foldl_wf]

@[simp] theorem State.modPacket_mem (s : State) (id index : Nat) (f : Packet → Packet) :
    (s.modPacket id index f).mem = s.mem :=
  rfl

@[simp] theorem State.packetDone_wf (id index : Nat) (h : Memory.wf s.mem = true) :
    Memory.wf (s.packetDone id index).mem = true := by
  simp [State.packetDone, h]

@[simp] theorem State.failPacket_wf (id index cause : Nat) (h : Memory.wf s.mem = true) :
    Memory.wf (s.failPacket id index cause).mem = true := by
  unfold State.failPacket
  split <;> simp [h]

@[simp] theorem State.recordAndSignal_wf (x : Ctx) (record signal : Nat) (b : List Byte)
    (h : Memory.wf s.mem = true) :
    Memory.wf (s.recordAndSignal x record signal b).1.mem = true := by
  unfold State.recordAndSignal
  grind [State.writeVa_wf, State.atomicVa_wf]

@[simp] theorem State.launch_wf (x : Source) (h : Memory.wf s.mem = true) :
    Memory.wf (s.launch x).1.mem = true := by
  unfold State.launch
  grind [State.readImage_wf, launchReader_keeps, foldl_mem, State.keepArea_mem, State.newId_mem,
    State.modVf_mem, State.completeSaved_mem]

/-! ### Machine/Tasks -/

@[simp] theorem State.tcbPut_wf (x : Ctx) (t off n v : Nat) (h : Memory.wf s.mem = true) :
    Memory.wf (s.tcbPut x t off n v).mem = true :=
  State.atPort_wf _ _ (State.poke_wf _ _ _ h) h

@[simp] theorem State.hold_mem (s : State) (vf : Nat) (h : Held) : (s.hold vf h).mem = s.mem := by
  unfold State.hold
  split <;> rfl

@[simp] theorem State.unhold_mem (s : State) (vf t : Nat) : (s.unhold vf t).mem = s.mem := rfl

@[simp] theorem State.failTask_wf (vf : Nat) (x : Ctx) (t status : Nat)
    (h : Memory.wf s.mem = true) :
    Memory.wf (s.failTask vf x t status).mem = true := by
  simp [State.failTask, h]

@[simp] theorem State.makeReady_wf (vf : Nat) (x : Ctx) (t : Nat) (h : Memory.wf s.mem = true) :
    Memory.wf (s.makeReady vf x t).mem = true := by
  simp [State.makeReady, h]

@[simp] theorem State.releaseStep_wf (h : Haul) (quad va : Nat) (hm : Memory.wf s.mem = true) :
    Memory.wf (s.releaseStep h quad va).1.mem = true := by
  unfold State.releaseStep
  grind [State.translate_wf, State.tcbPut_wf, State.hold_mem, State.makeReady_wf]

@[simp] theorem State.releaseEach_wf (hl : Haul) (quad : Nat) (src : Byte) (l : List Nat)
    (h : Memory.wf s.mem = true) :
    Memory.wf (State.releaseEach hl quad src l s).mem = true := by
  induction l generalizing s with
  | nil => exact h
  | cons a l ih =>
    unfold State.releaseEach
    grind [State.releaseStep_wf, State.modQuad_mem]

@[simp] theorem State.releaseTask_wf (h : Haul) (quad : Nat) (src : Byte)
    (hm : Memory.wf s.mem = true) :
    Memory.wf (s.releaseTask h quad src).mem = true := by
  unfold State.releaseTask
  grind [State.modHaul_mem, State.refusePort_wf, State.readVa_wf, State.releaseEach_wf]

@[simp] theorem State.retireTask_wf (h : Haul) (hm : Memory.wf s.mem = true) :
    Memory.wf (s.retireTask h).mem = true := by
  unfold State.retireTask
  grind [State.tcbPut_wf, State.releaseTask_wf, State.unhold_mem]

@[simp] theorem State.startTask_wf (vf : Nat) (h : Held) (spec : Bool)
    (hm : Memory.wf s.mem = true) :
    Memory.wf (s.startTask vf h spec).mem = true := by
  unfold State.startTask
  grind [State.unhold_mem, State.refusePort_wf, State.failTask_wf, State.launch_wf, State.tcbPut_wf]

@[simp] theorem State.tcbAccess_wf (a : BitVec 6) (h : Memory.wf s.mem = true) :
    Memory.wf (s.tcbAccess a).1.mem = true := by
  unfold State.tcbAccess
  grind [State.trapAll_mem, State.translate_wf, State.eccMask_mem]

/-! ### Machine/Views -/

@[simp] theorem State.sceneRead_wf (x : Ctx) (l : List (Nat × Nat)) (h : Memory.wf s.mem = true) :
    Memory.wf (State.sceneRead x l s).1.mem = true := by
  induction l generalizing s with
  | nil => exact h
  | cons p l ih =>
    have hp := State.translate_wf x .load p.1 h
    unfold State.sceneRead
    split
    · have hi := ih (wf_of_eq ‹_› hp)
      split
      · split
        · exact wf_of_eq ‹_› hi
        · exact hi
      · exact wf_of_eq ‹_› hp
    · exact wf_of_eq ‹_› hp
    · exact wf_of_eq ‹_› hp

theorem runLeaves_wf {β : Type} {leaf : Nat → β → State → State × Trav β}
    (hl : ∀ j b t, Memory.wf t.mem = true → Memory.wf (leaf j b t).1.mem = true) (l : List Nat)
    (b : β) (h : Memory.wf s.mem = true) :
    Memory.wf (runLeaves leaf l b s).1.mem = true := by
  induction l generalizing b s with
  | nil => exact h
  | cons j l ih =>
    unfold runLeaves
    split
    · exact ih _ (wf_of_eq ‹_› (hl j b s h))
    · exact hl j b s h

theorem State.walkTree_wf {β : Type} (x : Ctx) (base n m : Nat) (r : Roots) (k : Span)
    (o d : XVec) {leaf : Nat → β → State → State × Trav β}
    (hl : ∀ j b t, Memory.wf t.mem = true → Memory.wf (leaf j b t).1.mem = true) (fuel : Nat)
    (stack : List Nat) (count : Nat) (acc : β) (h : Memory.wf s.mem = true) :
    Memory.wf (State.walkTree x base n m r k o d leaf fuel stack count acc s).1.mem = true := by
  induction fuel generalizing stack count acc s with
  | zero => exact h
  | succ fuel ih =>
    cases stack with
    | nil => exact h
    | cons ref stack =>
      unfold State.walkTree
      grind [runLeaves_wf, State.sceneRead_wf]

@[simp] theorem State.triangleLeaf_wf (x : Ctx) (sc : Scene) (r : Roots) (k : Span) (o d : XVec)
    (inst instId j : Nat) (best : Option Hit) (h : Memory.wf s.mem = true) :
    Memory.wf (State.triangleLeaf x sc r k o d inst instId j best s).1.mem = true := by
  unfold State.triangleLeaf
  grind [State.sceneRead_wf]

@[simp] theorem State.instanceLeaf_wf (x : Ctx) (sc : Scene) (desc : ViewDesc) (eye : RVec)
    (r : Roots) (k : Span) (o d : XVec) (j : Nat) (met : Met) (h : Memory.wf s.mem = true) :
    Memory.wf (State.instanceLeaf x sc desc eye r k o d j met s).1.mem = true := by
  have hr := State.sceneRead_wf x (spans (sc.inst + 128 * j) 128) h
  unfold State.instanceLeaf
  dsimp only
  split
  · exact wf_of_eq ‹_› hr
  · have ht := wf_of_eq ‹_› hr
    split
    · exact ht
    · split
      · exact ht
      · split
        · split
          · exact ht
          · split <;> exact wf_of_eq ‹_› (State.walkTree_wf _ _ _ _ _ _ _ _
              (fun t acc _ => State.triangleLeaf_wf _ _ _ _ _ _ _ _ t acc) _ _ _ _ ht)
        · exact ht

@[simp] theorem State.castRay_wf (x : Ctx) (sc : Scene) (desc : ViewDesc) (eye : RVec)
    (near : Rat) (far : Option Rat) (ray : Ray) (h : Memory.wf s.mem = true) :
    Memory.wf (State.castRay x sc desc eye near far ray s).1.mem = true := by
  unfold State.castRay
  dsimp only
  split <;> exact wf_of_eq ‹_› (State.walkTree_wf _ _ _ _ _ _ _ _
    (fun j acc _ => State.instanceLeaf_wf _ _ _ _ _ _ _ _ j acc) _ _ _ _ h)

@[simp] theorem State.tracePixels_wf (v : ViewReq) (lane : Nat) (b : Option (Option RVec × Basis))
    (l : List Nat) (h : Memory.wf s.mem = true) :
    Memory.wf (State.tracePixels v lane b l s).1.mem = true := by
  induction l generalizing s with
  | nil => exact h
  | cons i l ih =>
    unfold State.tracePixels
    dsimp only
    split
    · refine wf_of_eq ‹_› ?_
      split
      · exact State.castRay_wf _ _ _ _ _ _ _ h
      · exact h
    · have hi := @ih _ (wf_of_eq ‹_› (by split; exacts [State.castRay_wf _ _ _ _ _ _ _ h, h]))
      split
      · exact wf_of_eq ‹_› hi
      · exact hi

@[simp] theorem State.traceViews_wf (v : ViewReq) (l : List (Nat × Option (List Word)))
    (h : Memory.wf s.mem = true) :
    Memory.wf (State.traceViews v l s).1.mem = true := by
  induction l generalizing s with
  | nil => exact h
  | cons p l ih =>
    have hp := State.tracePixels_wf v p.1 (v.basis p.2) (List.range v.desc.pixels) h
    unfold State.traceViews
    split
    · exact wf_of_eq ‹_› hp
    · have hi := ih (wf_of_eq ‹_› hp)
      split
      · exact wf_of_eq ‹_› hi
      · exact hi

@[simp] theorem State.viewRecord_wf (a : Nat) (h : Memory.wf s.mem = true) :
    Memory.wf (s.viewRecord a).1.mem = true := by
  unfold State.viewRecord
  grind [State.residentAccess_wf, State.trapAll_mem, State.eccMask_mem]

@[simp] theorem State.accept_mem (s : State) (d a : BitVec 6) (desc : ViewDesc) (cam : Camera)
    (sc : Scene) (lanes : Option (List (Nat × List Word))) (status : Option Nat) :
    (s.accept d a desc cam sc lanes status).mem = s.mem := by
  unfold State.accept
  split <;> rfl

@[simp] theorem State.viewSteps_wf (d a : BitVec 6) (g : Dword)
    (lanes : Option (List (Nat × List Word))) (h : Memory.wf s.mem = true) :
    Memory.wf (s.viewSteps d a g lanes).mem = true := by
  unfold State.viewSteps
  grind [State.viewRecord_wf, State.trapAll_mem, State.accept_mem]

@[simp] theorem State.viewIssue_wf (i : Instr) (d a : BitVec 6)
    (lanes : Option (List (Nat × List Word))) (h : Memory.wf s.mem = true) :
    Memory.wf (s.viewIssue i d a lanes).mem = true := by
  unfold State.viewIssue
  dsimp only
  split <;> simp [h]

@[simp] theorem State.dropView_mem (s : State) (v : ViewReq) : (s.dropView v).mem = s.mem := rfl

@[simp] theorem State.tileAt_wf (x : Ctx) (a : Nat) (sh : TileShape) (h : Memory.wf s.mem = true) :
    Memory.wf (s.tileAt x a sh).1.mem = true := by
  unfold State.tileAt
  split <;> exact wf_of_eq ‹_› (State.readVa_wf _ _ _ h)

@[simp] theorem State.commitOldest_wf (h : Memory.wf s.mem = true) :
    Memory.wf s.commitOldest.1.mem = true := by
  unfold State.commitOldest
  grind [State.tileAt_wf, State.modCo_mem, State.dropView_mem]

@[simp] theorem State.viewResume_wf (i : Instr) (g : Dword)
    (lanes : Option (List (Nat × List Word))) (h : Memory.wf s.mem = true) :
    Memory.wf (s.viewResume i g lanes).mem = true := by
  unfold State.viewResume
  dsimp only
  split <;> simp [h]

@[simp] theorem State.vwaitOf_wf (h : Memory.wf s.mem = true) :
    Memory.wf s.vwaitOf.1.mem = true := by
  have hw := State.waitInstr_wf h
  unfold State.vwaitOf
  cases s.co.issue.wait with
  | recorded k o =>
    rcases k with _ | _ | _ | k
    case succ.succ.zero =>
      rcases o with _ | o
      · generalize s.waitInstr = x at hw ⊢
        obtain ⟨t, _ | i⟩ := x
        · exact hw
        · cases i <;> exact hw
      · exact h
    all_goals exact h
  | _ => exact h

@[simp] theorem State.commitFor_wf (t : Dword) (d : BitVec 6) (h : Memory.wf s.mem = true) :
    Memory.wf (s.commitFor t d).mem = true := by
  unfold State.commitFor
  grind [State.commitOldest_wf, State.endWait_mem, State.refresh_mem, State.modCo_mem]

/-! ### Machine/Retire -/

@[simp] theorem State.recountWatch_mem (s : State) (haul : Nat) : (s.recountWatch haul).mem = s.mem :=
  rfl

@[simp] theorem State.discardTickets_mem (s : State) : s.discardTickets.mem = s.mem := by
  refine foldl_mem (fun t c => ?_) _
  split
  · rfl
  · split <;> simp

@[simp] theorem State.outOfRake_mem (s : State) (c : Coach) : (s.outOfRake c).mem = s.mem := by
  simp only [State.outOfRake]
  (repeat' split) <;> simp

@[simp] theorem State.leaveRake_mem (s : State) (c : Coach) : (s.leaveRake c).mem = s.mem := by
  simp [State.leaveRake]

@[simp] theorem State.leaveLift_mem (s : State) (c : Coach) : (s.leaveLift c).mem = s.mem := by
  unfold State.leaveLift
  split <;> rfl

@[simp] theorem State.retireCoach_wf (h : Memory.wf s.mem = true) :
    Memory.wf s.retireCoach.mem = true := by
  unfold State.retireCoach
  grind [State.leaveArray_wf, State.drain_wf, State.publish_wf, State.dropCoach_mem,
    State.leaveRake_mem, State.leaveLift_mem]

@[simp] theorem State.vacate_mem (s : State) (quad : Nat) : (s.vacate quad).mem = s.mem := rfl

@[simp] theorem State.tearDown_wf (haul : Nat) (h : Memory.wf s.mem = true) :
    Memory.wf (s.tearDown haul).mem = true := by
  unfold State.tearDown
  simp only [State.recountWatch_mem, State.modHaul_mem, foldl_mem State.vacate_mem]
  exact foldl_wf (fun _ (c : Coach) => State.within_wf c.ident.id fun _ => State.drain_wf) _ h

@[simp] theorem State.completeHaul_wf (id : Nat) (h : Memory.wf s.mem = true) :
    Memory.wf (s.completeHaul id).mem = true := by
  unfold State.completeHaul
  grind [State.retireTask_wf, State.recordAndSignal_wf, State.packetDone_wf, State.failPacket_wf]

@[simp] theorem State.retireHaul_wf (h : Haul) (hm : Memory.wf s.mem = true) :
    Memory.wf (s.retireHaul h).mem = true := by
  unfold State.retireHaul
  grind [State.modHaul_mem, State.endCommand_mem, State.completeHaul_wf, State.modDev_mem]

/-! ### Machine/Place -/

@[simp] theorem State.takeQuad_wf (h : Haul) (quad : Nat) (hm : Memory.wf s.mem = true) :
    Memory.wf (s.takeQuad h quad).mem = true := by
  unfold State.takeQuad
  grind [State.modQuad_mem, State.clear_wf, State.modCore_mem, foldl_wf]

@[simp] theorem State.seat_mem (s : State) (r : Rake) (c : Coach) (slot : Nat) :
    (s.seat r c slot).mem = s.mem := by
  simp only [State.seat]
  (repeat' split) <;> simp

@[simp] theorem State.seatAll_mem (s : State) (r : Rake) (cs : List (Coach × Nat)) :
    (s.seatAll r cs).mem = s.mem := by
  unfold State.seatAll
  exact foldl_mem (fun _ _ => by simp) _

@[simp] theorem State.giveArray_wf (r : Rake) (v : SavedRake) (h : Memory.wf s.mem = true) :
    Memory.wf (s.giveArray r v).mem = true := by
  unfold State.giveArray
  grind [State.putAt_wf, State.clear_wf, State.modCore_mem, foldl_wf]

@[simp] theorem State.fillRake_wf (h : Haul) (r : Rake) (v : SavedRake)
    (hm : Memory.wf s.mem = true) :
    Memory.wf (s.fillRake h r v).mem = true := by
  unfold State.fillRake
  grind [State.putAt_wf, State.clear_wf, foldl_wf]

@[simp] theorem State.clearRake_wf (h : Haul) (r : Rake) (hm : Memory.wf s.mem = true) :
    Memory.wf (s.clearRake h r).mem = true := by
  unfold State.clearRake
  grind [State.clear_wf, foldl_wf]

@[simp] theorem State.warmCode_mem (s : State) (quad : Nat) : (s.warmCode quad).mem = s.mem := rfl

@[simp] theorem State.place_wf (h : Haul) (r : Rake) (cs : List (Coach × Nat))
    (v : Option SavedRake) (hm : Memory.wf s.mem = true) :
    Memory.wf (s.place h r cs v).mem = true := by
  unfold State.place
  grind [State.modQuad_mem, State.takeQuad_wf, State.clearRake_wf, State.warmCode_mem,
    State.fillRake_wf, State.seatAll_mem, State.giveArray_wf, State.recountWatch_mem,
    State.modHaul_mem]

@[simp] theorem State.modRake_mem (s : State) (haul rake : Nat) (f : Coach → Coach) :
    (s.modRake haul rake f).mem = s.mem :=
  rfl

@[simp] theorem State.requestRake_mem (s : State) (haul rake : Nat) :
    (s.requestRake haul rake).mem = s.mem :=
  rfl

@[simp] theorem State.requestWhere_mem (s : State) (f : Rake → Bool) :
    (s.requestWhere f).mem = s.mem :=
  foldl_mem (fun _ _ => State.requestRake_mem ..) _

/-! ### Machine/Power -/

@[simp] theorem State.corrected_mem (s : State) (die unit index : Nat) :
    (s.corrected die unit index).mem = s.mem :=
  rfl

@[simp] theorem State.uncorrected_mem (s : State) (die unit index : Nat) :
    (s.uncorrected die unit index).mem = s.mem :=
  rfl

@[simp] theorem State.poison_mem (s : State) (unit addr : Nat) : (s.poison unit addr).mem = s.mem :=
  rfl

@[simp] theorem State.failAccess_mem (s : State) (g : Nat) : (s.failAccess g).mem = s.mem := by
  simp only [State.failAccess]
  (repeat' split) <;> simp

@[simp] theorem State.endAll_mem (s : State) (status : Nat) (detail : Word) :
    (s.endAll status detail).mem = s.mem :=
  foldl_mem (fun _ _ => State.stopHaul_mem ..) _

/-! ### Machine/Queues -/

@[simp] theorem State.walkQueue_wf (vf pasid qno : Nat) (h : Memory.wf s.mem = true) :
    Memory.wf (s.walkQueue vf pasid qno).1.mem = true := by
  unfold State.walkQueue
  grind [State.gpaHome_wf]

@[simp] theorem State.knowQueue_mem (s : State) (vf pasid qno qcb : Nat) :
    (s.knowQueue vf pasid qno qcb).mem = s.mem := by
  unfold State.knowQueue
  split <;> rfl

@[simp] theorem State.setKick_mem (s : State) (die slot : Nat) : (s.setKick die slot).mem = s.mem :=
  rfl

@[simp] theorem State.walkKick_wf (vf : Nat) (word : Word) (pasid : BitVec 20)
    (h : Memory.wf s.mem = true) :
    Memory.wf (s.walkKick vf word pasid).mem = true := by
  unfold State.walkKick
  grind [State.bumpVf_wf, State.walkQueue_wf, State.modVf_mem, State.wrNat_wf,
    State.knowQueue_mem, State.setKick_mem]

@[simp] theorem State.settleEntry_wf (entry : Nat) (h : Memory.wf s.mem = true) :
    Memory.wf (s.settleEntry entry).mem = true :=
  State.atPort_wf _ _ (by dsimp only; split <;> simp [State.wrNat_wf, h]) h

@[simp] theorem State.examine_wf (q : Queue) (h : Memory.wf s.mem = true) :
    Memory.wf (s.examine q).mem = true := by
  unfold State.examine
  (repeat' split) <;> simp [h]

theorem State.discoverPasid_wf (vf : Nat) (f : State → Nat → Bool) (pasid : Nat)
    (h : Memory.wf s.mem = true) :
    Memory.wf (State.discoverPasid vf f s pasid).mem = true :=
  foldl_wf (fun _ _ h => by grind [State.walkQueue_wf, State.knowQueue_mem]) _ h

@[simp] theorem State.discover_wf (f : State → Nat → Bool) (h : Memory.wf s.mem = true) :
    Memory.wf (s.discover f).mem = true := by
  unfold State.discover
  refine foldl_wf (fun t vf ht => ?_) _ h
  split
  · exact foldl_wf (fun t p hp => State.discoverPasid_wf vf f (s := t) p hp) _ ht
  · exact ht

@[simp] theorem State.takeKicks_wf (die word : Nat) (h : Memory.wf s.mem = true) :
    Memory.wf (s.takeKicks die word).mem = true := by
  unfold State.takeKicks
  dsimp only
  split
  · exact h
  · exact foldl_wf (fun _ q hq => State.examine_wf q hq) _ (State.discover_wf _ h)

@[simp] theorem State.journalPacket_wf (q : Queue) (b : List Byte) (h : Memory.wf s.mem = true) :
    Memory.wf (s.journalPacket q b).mem = true := by
  unfold State.journalPacket
  grind [State.modQueue_mem, State.wrNat_wf, State.settleQueue_wf, State.queueError_wf]

@[simp] theorem State.fetchPacket_wf (q : Queue) (h : Memory.wf s.mem = true) :
    Memory.wf (s.fetchPacket q).mem = true := by
  simp only [State.fetchPacket]
  (repeat' split) <;> grind [State.readVa_wf, State.queueError_wf, State.settleQueue_wf,
    State.modQueue_mem]

@[simp] theorem State.tried_wf (queue : Nat) (h : Memory.wf s.mem = true) :
    Memory.wf (s.tried queue).mem = true := by
  unfold State.tried
  (repeat' split) <;> simp [h]

@[simp] theorem State.startPacket_mem (s : State) (queue index : Nat) :
    (s.startPacket queue index).mem = s.mem :=
  rfl

@[simp] theorem State.endPacket_wf (queue index : Nat) (ok : Bool) (h : Memory.wf s.mem = true) :
    Memory.wf (s.endPacket queue index ok).mem = true := by
  unfold State.endPacket
  split <;> simp [h]

@[simp] theorem State.copyBytes_wf (x : Ctx) (k a d : Nat) (h : Memory.wf s.mem = true) :
    Memory.wf (State.copyBytes x k a d s).1.mem = true := by
  induction k generalizing a d s with
  | zero => exact h
  | succ k ih =>
    unfold State.copyBytes
    grind [State.readVa_wf, State.writeVa_wf]

/-! ### Machine/Mailbox -/

@[simp] theorem State.setMbState_wf (n : Nat) (h : Memory.wf s.mem = true) :
    Memory.wf (s.setMbState n).mem = true := by
  simp [State.setMbState, State.wrNat_wf, h]

@[simp] theorem State.takeSlot_wf (block slot : Nat) (h : Memory.wf s.mem = true) :
    Memory.wf (s.takeSlot block slot).mem = true := by
  unfold State.takeSlot
  dsimp only
  split <;> simp [Memory.putAll_wf, h]

@[simp] theorem State.doorbell_wf (block : Nat) (value : Word) (h : Memory.wf s.mem = true) :
    Memory.wf (s.doorbell block value).mem = true := by
  unfold State.doorbell
  split <;> simp [h]

@[simp] theorem State.startCommand_mem (s : State) (c : Command) : (s.startCommand c).mem = s.mem :=
  rfl

@[simp] theorem State.doneSignal_wf (block : Nat) (h : Memory.wf s.mem = true) :
    Memory.wf (s.doneSignal block).mem = true := by
  unfold State.doneSignal
  dsimp only
  split
  · simp [h]
  · split <;> simp [wf_of_eq ‹_› (State.gpaHome_wf _ _ _ h)]

theorem State.onCommand_wf (block slot op : Nat) {f : State → Command → State}
    (hf : ∀ t c, Memory.wf t.mem = true → Memory.wf (f t c).mem = true)
    (h : Memory.wf s.mem = true) :
    Memory.wf (s.onCommand block slot op f).mem = true := by
  unfold State.onCommand
  split
  exacts [h, hf _ _ h]

@[simp] theorem State.destroy_wf (c : Command) (q : Queue) (h : Memory.wf s.mem = true) :
    Memory.wf (s.destroy c q).mem = true := by
  unfold State.destroy
  grind [State.endCommand_mem, State.wrNat_wf, State.dropQueues_mem, State.modVf_mem,
    State.setQstate_wf, State.settleQueue_wf, State.modQueue_mem]

@[simp] theorem State.registerSet_wf (vf id : Nat) (h : Memory.wf s.mem = true) :
    Memory.wf (s.registerSet vf id).1.mem = true := by
  unfold State.registerSet
  grind [State.gpaHome_wf, State.modSet_wf, State.modVf_mem]

@[simp] theorem State.ringIndices_wf (vf gpa : Nat) (h : Memory.wf s.mem = true) :
    Memory.wf (s.ringIndices vf gpa).1.mem = true := by
  unfold State.ringIndices
  split <;> exact wf_of_eq ‹_› (State.gpaHome_wf _ _ _ h)

@[simp] theorem State.postRequest_wf (vf : Nat) (r : PageReq) (g : Rings)
    (h : Memory.wf s.mem = true) :
    Memory.wf (s.postRequest vf r g).mem = true := by
  unfold State.postRequest
  grind [State.ringIndices_wf, State.gpaHome_wf, State.modVf_mem, State.wrNat_wf, State.wr_wf]

@[simp] theorem State.completePage_mem (s : State) (vf : Nat) (tag : Dword) :
    (s.completePage vf tag).mem = s.mem := by
  unfold State.completePage
  split <;> rfl

/-! ### Machine/Save -/

@[simp] theorem State.writeTiles_mem (s : State) (cs : List Coach) :
    (s.writeTiles cs).mem = s.mem := by
  refine foldl_mem (fun t c => ?_) _
  split
  · rfl
  · split <;> simp

@[simp] theorem State.freeRake_mem (s : State) (r : Rake) (cs : List Coach)
    (owners : List (Nat × List Nat)) :
    (s.freeRake r cs owners).mem = s.mem :=
  rfl

@[simp] theorem State.saveRake_wf (hl : Haul) (r : Rake) (h : Memory.wf s.mem = true) :
    Memory.wf (s.saveRake hl r).mem = true := by
  have hp := foldl_wf (fun _ (c : Coach) => State.within_wf c.ident.id fun _ ht =>
    State.drain_wf (State.publish_wf 4 ht)) (s.coachesOf hl.id r.rake) h
  unfold State.saveRake
  dsimp only
  split <;> simp [hp]

@[simp] theorem State.tileOf_wf (h : Haul) (t : Ticket) (hm : Memory.wf s.mem = true) :
    Memory.wf (s.tileOf h t).1.mem = true := by
  unfold State.tileOf
  split <;> simp [hm]

@[simp] theorem layTiles_wf (hl : Haul) (l : List Ticket) (p : Pieces)
    (h : Memory.wf s.mem = true) :
    Memory.wf (layTiles hl l s p).1.mem = true := by
  induction l generalizing s p with
  | nil => exact h
  | cons a l ih =>
    unfold layTiles
    grind [State.tileOf_wf]

@[simp] theorem layCoach_wf (h : Haul) (v : SavedRake) (c : Coach) (p : Pieces)
    (hm : Memory.wf s.mem = true) :
    Memory.wf (layCoach h v c s p).1.mem = true := by
  simp [layCoach, hm]

@[simp] theorem layCoaches_wf (hl : Haul) (v : SavedRake) (l : List Coach) (p : Pieces)
    (h : Memory.wf s.mem = true) :
    Memory.wf (layCoaches hl v l s p).1.mem = true := by
  induction l generalizing s p with
  | nil => exact h
  | cons a l ih =>
    unfold layCoaches
    grind [layCoach_wf]

@[simp] theorem layRake_wf (h : Haul) (v : SavedRake) (p : Pieces) (hm : Memory.wf s.mem = true) :
    Memory.wf (layRake h v s p).1.mem = true := by
  simp [layRake, hm]

@[simp] theorem layRakes_wf (hl : Haul) (l : List SavedRake) (p : Pieces)
    (h : Memory.wf s.mem = true) :
    Memory.wf (layRakes hl l s p).1.mem = true := by
  induction l generalizing s p with
  | nil => exact h
  | cons a l ih =>
    unfold layRakes
    grind [layRake_wf]

@[simp] theorem State.savedImage_wf (h : Haul) (a : Nat) (hm : Memory.wf s.mem = true) :
    Memory.wf (s.savedImage h a).1.mem = true := by
  simp [State.savedImage, hm]

@[simp] theorem State.writePieces_wf (x : Ctx) (l : List (Nat × List Byte))
    (h : Memory.wf s.mem = true) :
    Memory.wf (State.writePieces x l s).1.mem = true := by
  induction l generalizing s with
  | nil => exact h
  | cons a l ih =>
    unfold State.writePieces
    grind [State.writeVa_wf]

@[simp] theorem State.writeSaved_mem (s : State) (h : Haul) : (s.writeSaved h).mem = s.mem := by
  simp [State.writeSaved]

@[simp] theorem State.withdraw_mem (s : State) (haul : Nat) : (s.withdraw haul).mem = s.mem := rfl

@[simp] theorem State.deliver_wf (c : Command) (h : Haul) (hm : Memory.wf s.mem = true) :
    Memory.wf (s.deliver c h).mem = true := by
  unfold State.deliver
  grind [State.savedImage_wf, State.endCommand_mem, State.withdraw_mem, State.writePieces_wf,
    State.stopHaul_mem, State.modHaul_mem]

@[simp] theorem State.tryDeliver_wf (c : Command) (h : Haul) (hm : Memory.wf s.mem = true) :
    Memory.wf (s.tryDeliver c h).mem = true := by
  unfold State.tryDeliver
  (repeat' split) <;> simp [hm]

/-! ### Machine/PageMove -/

@[simp] theorem State.rootIn_wf (vf : Nat) (asid : BitVec 16) (h : Memory.wf s.mem = true) :
    Memory.wf (s.rootIn vf asid).1.mem = true := by
  unfold State.rootIn
  extract_lets seek
  refine foldl_fst_wf_of_step ?_ _ h
  rintro r pasid _ rfl hr
  refine foldl_fst_wf_of_step ?_ _ hr
  rintro r qno _ rfl hr
  have hw := State.walkQueue_wf vf pasid qno hr
  unfold seek
  split
  · exact hr
  · split <;> exact wf_of_eq ‹_› hw

@[simp] theorem State.pieceHomes_wf (vf gpa k : Nat) (h : Memory.wf s.mem = true) :
    Memory.wf (State.pieceHomes vf gpa k s).1.mem = true := by
  induction k generalizing gpa s with
  | zero => exact h
  | succ k ih =>
    unfold State.pieceHomes
    grind [State.stage2_wf, State.refusePort_wf]

@[simp] theorem State.copyLine_wf (pieces : List (Nat × Nat)) (l : Nat)
    (h : Memory.wf s.mem = true) :
    Memory.wf (s.copyLine pieces l).mem = true := by
  unfold State.copyLine
  split <;> simp [Memory.putAll_wf, h]

@[simp] theorem State.copyLines_wf (id : Nat) (lines : List Nat) (pieces : List (Nat × Nat))
    (h : Memory.wf s.mem = true) :
    Memory.wf (s.copyLines id lines pieces).mem = true := by
  unfold State.copyLines
  grind [State.copyLine_wf, State.countRefused_wf, foldl_wf]

@[simp] theorem State.beginMove_wf (c : Command) (page bits gpa : Nat) (own : Option (Nat × Nat))
    (h : Memory.wf s.mem = true) :
    Memory.wf (s.beginMove c page bits gpa own).mem = true := by
  unfold State.beginMove
  grind [State.pieceHomes_wf, State.endCommand_mem, State.copyLines_wf, State.newId_mem]

@[simp] theorem State.dropMove_mem (s : State) (id : Nat) : (s.dropMove id).mem = s.mem := rfl

@[simp] theorem State.modMove_mem (s : State) (id : Nat) (f : Migration → Migration) :
    (s.modMove id f).mem = s.mem :=
  rfl

@[simp] theorem State.drainMove_wf (pieces : List (Nat × Nat)) (h : Memory.wf s.mem = true) :
    Memory.wf (s.drainMove pieces).mem = true := by
  unfold State.drainMove
  grind [State.flushOver_wf, State.fillPending_mem, foldl_wf]

@[simp] theorem State.rewriteLeaf_wf (l : Nat × Nat) (h : Memory.wf s.mem = true) :
    Memory.wf (s.rewriteLeaf l).mem = true := by
  simp [State.rewriteLeaf, State.wrNat_wf, h]

@[simp] theorem State.dropMovedTlb_mem (s : State) (m : Migration) : (s.dropMovedTlb m).mem = s.mem :=
  rfl

@[simp] theorem State.rehome_mem (s : State) (m : Migration) : (s.rehome m).mem = s.mem := rfl

/-! ### Machine/Virtual -/

@[simp] theorem State.atHomeOf_wf (a : Nat) (op : Ingress) (h : Memory.wf s.mem = true) :
    Memory.wf (s.atHomeOf a op).mem = true := by
  unfold State.atHomeOf
  split <;> simp [Memory.putAll_wf, h]

@[simp] theorem State.endBlackout_wf (vf status : Nat) (h : Memory.wf s.mem = true) :
    Memory.wf (s.endBlackout vf status).mem = true := by
  unfold State.endBlackout
  grind [State.endCommand_mem, State.withdraw_mem, State.modVf_mem, State.atHomeOf_wf, foldl_wf]

@[simp] theorem State.appendStub_wf (vf a : Nat) (op : Ingress) (h : Memory.wf s.mem = true) :
    Memory.wf (s.appendStub vf a op).mem = true := by
  unfold State.appendStub
  dsimp only
  split <;> simp [h]

@[simp] theorem State.peerAccess_wf (port a : Nat) (op : Ingress) (h : Memory.wf s.mem = true) :
    Memory.wf (s.peerAccess port a op).mem = true := by
  unfold State.peerAccess
  (repeat' split) <;> simp [h]

@[simp] theorem State.deviceAccess_wf (port a : Nat) (op : Ingress) (h : Memory.wf s.mem = true) :
    Memory.wf (s.deviceAccess port a op).mem = true := by
  unfold State.deviceAccess
  grind [State.countRefused_wf, State.atHomeOf_wf, State.peerAccess_wf]

@[simp] theorem State.windowAccess_wf (a : Nat) (op : Ingress) (h : Memory.wf s.mem = true) :
    Memory.wf (s.windowAccess a op).mem = true := by
  unfold State.windowAccess
  split <;> simp [h]

@[simp] theorem State.portAccess_wf (port a : Nat) (op : Ingress) (h : Memory.wf s.mem = true) :
    Memory.wf (s.portAccess port a op).mem = true := by
  unfold State.portAccess
  (repeat' split) <;> simp [h]

@[simp] theorem State.mailboxWrite_wf (fn off : Nat) (b : List Byte) (h : Memory.wf s.mem = true) :
    Memory.wf (s.mailboxWrite fn off b).mem = true := by
  unfold State.mailboxWrite
  extract_lets v o x
  clear_value v o x
  split
  · exact h
  · split
    · split
      · exact h
      · split
        · exact State.doorbell_wf _ _ h
        · exact h
    · refine foldl_wf_of_step ?_ _ h
      rintro t p _ rfl ht
      split
      · exact State.wr_wf _ _ ht
      · exact ht

/-! ### Machine/Lease -/

@[simp] theorem State.setLease_wf (epoch holder : Nat) (h : Memory.wf s.mem = true) :
    Memory.wf (s.setLease epoch holder).mem = true := by
  simp [State.setLease, State.wrNat_wf, h]

@[simp] theorem State.stopLeader_mem (s : State) : s.stopLeader.mem = s.mem := rfl

@[simp] theorem State.scanMailbox_wf (h : Memory.wf s.mem = true) :
    Memory.wf s.scanMailbox.mem = true := by
  unfold State.scanMailbox
  refine foldl_wf (fun _ v hv => foldl_wf (fun _ i hi => State.takeSlot_wf v i hi) _ hv) _ ?_
  refine foldl_wf (fun _ p hp => State.doorbell_wf p.1 p.2 hp) _ ?_
  exact h

@[simp] theorem State.releaseHeld_wf (h : Memory.wf s.mem = true) :
    Memory.wf s.releaseHeld.mem = true := by
  unfold State.releaseHeld
  exact foldl_wf (fun _ _ h => by simp [h]) _ h

@[simp] theorem State.rescanKicks_wf (h : Memory.wf s.mem = true) :
    Memory.wf s.rescanKicks.mem = true := by
  unfold State.rescanKicks
  refine foldl_wf (fun _ q hq => State.settleQueue_wf q.id hq) _ ?_
  refine foldl_wf_of_step ?_ _ (State.discover_wf _ h)
  rintro t d _ rfl ht
  exact foldl_wf (fun _ w hw => State.takeKicks_wf d w hw) _ ht

@[simp] theorem State.writeHeader_wf (h : Memory.wf s.mem = true) :
    Memory.wf s.writeHeader.mem = true := by
  simp [State.writeHeader, State.wrNat_wf, h]

@[simp] theorem State.serve_wf (epoch die : Nat) (h : Memory.wf s.mem = true) :
    Memory.wf (s.serve epoch die).mem = true := by
  unfold State.serve
  refine State.scanMailbox_wf (State.setMbState_wf 1 (State.rescanKicks_wf ?_))
  refine State.releaseHeld_wf ?_
  exact State.writeHeader_wf (by rwa [State.modDev_mem])

@[simp] theorem State.countUnread_wf (l : List JItem) (h : Memory.wf s.mem = true) :
    Memory.wf (s.countUnread l).mem = true := by
  unfold State.countUnread
  exact foldl_wf (fun _ _ h => by simp [h]) _ h

@[simp] theorem State.loseEntries_mem (s : State) (lost : List JItem) :
    (s.loseEntries lost).mem = s.mem :=
  foldl_mem (fun _ _ => State.stopHaul_mem ..) _

@[simp] theorem State.replayJournal_wf (epoch : Nat) (h : Memory.wf s.mem = true) :
    Memory.wf (s.replayJournal epoch).mem = true := by
  unfold State.replayJournal
  grind [State.countUnread_wf, State.loseEntries_mem, State.modVf_mem, State.modDev_mem, foldl_wf]

@[simp] theorem State.loseService_wf (h : Memory.wf s.mem = true) :
    Memory.wf s.loseService.mem = true := by
  unfold State.loseService
  grind [State.endBlackout_wf, State.modDev_mem, foldl_wf]

/-! ### Machine/Migrate -/

@[simp] theorem State.writeGpa_wf (l : List (Nat × Nat)) (b : List Byte)
    (h : Memory.wf s.mem = true) :
    Memory.wf (State.writeGpa l b s).1.mem = true := by
  induction l generalizing b s with
  | nil => exact h
  | cons a l ih =>
    unfold State.writeGpa
    grind [State.gpaHome_wf, State.wr_wf]

@[simp] theorem State.readGpas_wf (l : List (Nat × Nat)) (h : Memory.wf s.mem = true) :
    Memory.wf (State.readGpas l s).1.mem = true := by
  induction l generalizing s with
  | nil => exact h
  | cons p l ih =>
    have hp := State.gpaHome_wf 0 p.1 false h
    unfold State.readGpas
    split
    · exact wf_of_eq ‹_› hp
    · have hi := ih (wf_of_eq ‹_› hp)
      split
      · exact wf_of_eq ‹_› hi
      · exact hi

@[simp] theorem State.depart_wf (vf : Nat) (h : Memory.wf s.mem = true) :
    Memory.wf (s.depart vf).mem = true := by
  unfold State.depart
  exact foldl_wf (fun _ _ h => by simp [h]) _ h

@[simp] theorem State.sendVf_wf (c : Command) (h : Memory.wf s.mem = true) :
    Memory.wf (s.sendVf c).mem = true := by
  unfold State.sendVf
  grind [State.endBlackout_wf, State.countRefused_wf, State.writeGpa_wf, State.endCommand_mem,
    State.depart_wf, foldl_wf]

@[simp] theorem State.writeMine_mem (s : State) (vf : Nat) : (s.writeMine vf).mem = s.mem := by
  unfold State.writeMine
  exact foldl_mem (fun _ _ => by simp) _

@[simp] theorem State.trySend_wf (c : Command) (h : Memory.wf s.mem = true) :
    Memory.wf (s.trySend c).mem = true := by
  unfold State.trySend
  grind [State.sendVf_wf, State.stopHaul_mem, foldl_wf]

@[simp] theorem State.frameIn_wf (vf : Nat)
    (f : List Nat × List Nat × List (List Nat × List Byte)) (h : Memory.wf s.mem = true) :
    Memory.wf (State.frameIn vf s f).mem = true := by
  unfold State.frameIn
  grind [State.gpaHome_wf, State.poisonAll_mem, State.wr_wf, State.clear_wf, foldl_wf]

@[simp] theorem State.replay_wf (vf : Nat) (frames : List (List Nat)) (e : List Nat × List Byte)
    (h : Memory.wf s.mem = true) :
    Memory.wf (State.replay vf frames s e).mem = true := by
  unfold State.replay
  dsimp only
  split
  · simp [h]
  · split <;> simp [wf_of_eq ‹_› (State.gpaHome_wf _ _ _ h)]

@[simp] theorem State.queueIn_wf (vf : Nat) (q : List Nat × List (List Nat × List Byte))
    (h : Memory.wf s.mem = true) :
    Memory.wf (State.queueIn vf s q).mem = true := by
  unfold State.queueIn
  grind [State.walkQueue_wf, State.newId_mem, State.modVf_mem]

@[simp] theorem State.psetIn_wf (vf : Nat) (p : List Nat × List Nat) (h : Memory.wf s.mem = true) :
    Memory.wf (State.psetIn vf s p).mem = true := by
  unfold State.psetIn
  dsimp only
  split <;> simp [wf_of_eq ‹_› (State.gpaHome_wf _ _ _ h)]

@[simp] theorem State.taskIn_wf (vf : Nat) (l : List Nat) (h : Memory.wf s.mem = true) :
    Memory.wf (State.taskIn vf s l).1.mem = true := by
  unfold State.taskIn
  dsimp only
  split <;> simp [wf_of_eq ‹_› (State.translate_wf _ _ _ h)]

@[simp] theorem State.tasksIn_wf (vf : Nat) (l : List (List Nat)) (h : Memory.wf s.mem = true) :
    Memory.wf (State.tasksIn vf l s).1.mem = true := by
  induction l generalizing s with
  | nil => exact h
  | cons a l ih =>
    unfold State.tasksIn
    grind [State.taskIn_wf]

@[simp] theorem State.ticketsIn_mem (hl : Haul) (rake : Nat) (blob : List Byte) (l : List Ticket)
    (s : State) :
    (State.ticketsIn hl rake blob l s).1.mem = s.mem := by
  induction l generalizing s with
  | nil => rfl
  | cons a l ih =>
    unfold State.ticketsIn
    grind [State.newId_mem]

@[simp] theorem State.coachesIn_mem (hl : Haul) (rake : Nat) (blob : List Byte) (l : List Coach)
    (s : State) :
    (State.coachesIn hl rake blob l s).1.mem = s.mem := by
  induction l generalizing s with
  | nil => rfl
  | cons a l ih =>
    unfold State.coachesIn
    grind [State.ticketsIn_mem]

@[simp] theorem State.savedIn_mem (hl : Haul) (blob : List Byte) (l : List SavedRake) (s : State) :
    (State.savedIn hl blob l s).1.mem = s.mem := by
  induction l generalizing s with
  | nil => rfl
  | cons a l ih =>
    unfold State.savedIn
    grind [State.coachesIn_mem]

@[simp] theorem State.refuseHaul_wf (x : Source) (e : Nat) (h : Memory.wf s.mem = true) :
    Memory.wf (s.refuseHaul x e).mem = true := by
  unfold State.refuseHaul
  (repeat' split) <;> simp [h]

@[simp] theorem State.haulIn_wf (vf : Nat) (homes : List (Option Nat)) (q : HaulImage × Bool)
    (h : Memory.wf s.mem = true) :
    Memory.wf (State.haulIn vf homes s q).mem = true := by
  unfold State.haulIn
  grind [State.readImage_wf, bytesReader_keeps, State.refuseHaul_wf, State.savedIn_mem, foldl_mem,
    State.keepArea_mem, State.newId_mem]

@[simp] theorem State.arriveVf_wf (vf : Nat) (i : VfImage) (lost : List Bool)
    (h : Memory.wf s.mem = true) :
    Memory.wf (s.arriveVf vf i lost).mem = true := by
  unfold State.arriveVf
  grind [State.frameIn_wf, State.replay_wf, State.modVf_mem, State.psetIn_wf, State.tasksIn_wf,
    State.queueIn_wf, State.haulIn_wf, State.walkKick_wf, State.examine_wf, foldl_wf]

/-! ## The executions -/

/-- The next state of an outcome, when it has one, has a memory in canonical form. -/
def MemOkAfter (o : Host.Outcome State Fault Refusal) : Prop :=
  ∀ t, o = .next t → Memory.wf t.mem = true

@[simp] theorem memOkAfter_next : MemOkAfter (.next s) ↔ Memory.wf s.mem = true :=
  ⟨fun h => h s rfl, fun h _ e => Host.Outcome.next.inj e ▸ h⟩

@[simp] theorem word_memOk {f : State → State} (m : Bool) (hf : Memory.wf (f s).mem = true) :
    MemOkAfter (word m s f) :=
  memOkAfter_next.mpr (State.finishWord_wf m hf)

@[simp] theorem wordS_memOk {trap : State → Cause → State} {f : State → State} (i : Instr)
    (m : Bool) (ht : ∀ k, Memory.wf (trap s k).mem = true) (hf : Memory.wf (f s).mem = true) :
    MemOkAfter (wordS i m s trap f) :=
  word_memOk m (by split; exacts [ht _, hf])

@[simp] theorem matx_memOk {f : State → Word → State} (i : Instr) (m : Bool)
    (h : Memory.wf s.mem = true) (hf : ∀ w, Memory.wf (f s w).mem = true) :
    MemOkAfter (matx i m s f) :=
  word_memOk m (by split; exacts [h, hf _])

@[simp] theorem barWord_memOk {f : State → State} (i : Instr) (m : Bool)
    (h : Memory.wf s.mem = true) (hf : Memory.wf (f s).mem = true) :
    MemOkAfter (barWord i m s f) :=
  word_memOk m (by split; exacts [h, hf])

/-! ### Machine/Fetch -/

theorem execFetchFault_memOk (h : Memory.wf s.mem = true) : MemOkAfter (execFetchFault s) := by
  refine memOkAfter_next.mpr ?_
  split
  · simp [h]
  · split <;> simp [wf_of_eq ‹_› (State.fetchOffset_wf h)]

theorem execIllegalEncoding_memOk {w : BitVec 32} (h : Memory.wf s.mem = true) :
    MemOkAfter (execIllegalEncoding w s) := by
  simp only [execIllegalEncoding]
  (repeat' split) <;> simp [h]

/-! ### Machine/Control -/

theorem execModeg_memOk {m : Bool} {a : BitVec 6} (h : Memory.wf s.mem = true) :
    MemOkAfter (execModeg m a s) := by
  refine word_memOk m ?_
  dsimp only
  split <;> simp [h]

theorem execCall_memOk {m : Bool} {f : BitVec 3} {o : BitVec 22} (h : Memory.wf s.mem = true) :
    MemOkAfter (execCall m f o s) := by
  simp [execCall, h]

theorem execCalli_memOk {m : Bool} {f : BitVec 3} {a : BitVec 6} (h : Memory.wf s.mem = true) :
    MemOkAfter (execCalli m f a s) := by
  simp [execCalli, h]

theorem execRet_memOk {m : Bool} (h : Memory.wf s.mem = true) : MemOkAfter (execRet m s) := by
  simp [execRet, h]

theorem execRunLimit_memOk (h : Memory.wf s.mem = true) : MemOkAfter (execRunLimit s) := by
  simp only [execRunLimit]
  (repeat' split) <;> simp [h]

theorem execParkEnd_memOk (h : Memory.wf s.mem = true) : MemOkAfter (execParkEnd s) := by
  simp only [execParkEnd]
  (repeat' split) <;> simp [h]

theorem execTrapEntry_memOk {coach : Nat} (h : Memory.wf s.mem = true) :
    MemOkAfter (execTrapEntry coach s) := by
  refine memOkAfter_next.mpr (State.within_wf coach (fun t ht => ?_) h)
  split <;> simp [ht]

/-! ### Machine/MemoryOps -/

theorem execLd_memOk {m : Bool} {d a b : BitVec 6} {h : BitVec 2} {o x : BitVec 1} {z : BitVec 2}
    {f : BitVec 1} (hm : Memory.wf s.mem = true) :
    MemOkAfter (execLd m d a b h o x z f s) := by
  simp [execLd, hm]

theorem execGld_memOk {m : Bool} {d a : BitVec 6} {i : BitVec 13} (h : Memory.wf s.mem = true) :
    MemOkAfter (execGld m d a i s) := by
  refine word_memOk m ?_
  dsimp only
  split <;> simp [wf_of_eq ‹_› (State.accessNamed_wf _ _ _ h)]

theorem execGst_memOk {m : Bool} {d a : BitVec 6} {i : BitVec 13} (h : Memory.wf s.mem = true) :
    MemOkAfter (execGst m d a i s) := by
  refine word_memOk m ?_
  split <;> simp [wf_of_eq ‹_› (State.storeAccess_wf _ _ h)]

theorem execAfadd_memOk {m : Bool} {d a b : BitVec 6} (h : Memory.wf s.mem = true) :
    MemOkAfter (execAfadd m d a b s) := by
  refine word_memOk m (foldl_wf (fun t l ht => ?_) _ h)
  exact State.cellLane_wf _ _ _ (fun i k u x hu => State.wrNat_wf i 16 _ hu) l ht

theorem execAfxrd_memOk {m : Bool} {d a b : BitVec 6} (h : Memory.wf s.mem = true) :
    MemOkAfter (execAfxrd m d a b s) := by
  refine word_memOk m (foldl_wf (fun t l ht => ?_) _ h)
  refine State.cellLane_wf _ _ _ (fun i k u x hu => ?_) l ht
  exact hu

theorem execAfxclr_memOk {m : Bool} {d a b : BitVec 6} (h : Memory.wf s.mem = true) :
    MemOkAfter (execAfxclr m d a b s) := by
  refine word_memOk m (foldl_wf (fun t l ht => ?_) _ h)
  refine State.cellLane_wf _ _ _ (fun i k u x hu => ?_) l ht
  exact State.wrNat_wf i 16 _ hu

theorem execAfxflg_memOk {m : Bool} {d a b : BitVec 6} (h : Memory.wf s.mem = true) :
    MemOkAfter (execAfxflg m d a b s) := by
  refine word_memOk m (foldl_wf (fun t l ht => ?_) _ h)
  refine State.cellLane_wf _ _ _ (fun i k u x hu => ?_) l ht
  exact hu

/-! ### Machine/Engine -/

theorem execPublish_memOk {m : Bool} {a : BitVec 6} (h : Memory.wf s.mem = true) :
    MemOkAfter (execPublish m a s) := by
  simp [execPublish, h]

theorem execPpin_memOk {m : Bool} {a b : BitVec 6} (h : Memory.wf s.mem = true) :
    MemOkAfter (execPpin m a b s) := by
  simp [execPpin, h]

theorem execPunpin_memOk {m : Bool} {a b : BitVec 6} (h : Memory.wf s.mem = true) :
    MemOkAfter (execPunpin m a b s) := by
  simp [execPunpin, h]

/-! ### Machine/Dray -/

theorem execEventRecordPost_memOk {quad : Nat} (h : Memory.wf s.mem = true) :
    MemOkAfter (execEventRecordPost quad s) := by
  simp only [execEventRecordPost]
  (repeat' split) <;> simp [h]

theorem execEventQueueRead_memOk {quad : Nat} (h : Memory.wf s.mem = true) :
    MemOkAfter (execEventQueueRead quad s) := by
  simp only [execEventQueueRead]
  (repeat' split) <;> simp [h]

theorem execDrayEnqueue_memOk {quad chan : Nat} (h : Memory.wf s.mem = true) :
    MemOkAfter (execDrayEnqueue quad chan s) := by
  simp only [execDrayEnqueue]
  (repeat' split) <;> simp [h]

theorem execDrayCommandStart_memOk {quad chan : Nat} (h : Memory.wf s.mem = true) :
    MemOkAfter (execDrayCommandStart quad chan s) := by
  simp only [execDrayCommandStart]
  (repeat' split) <;> simp [h]

theorem execDrayComplete_memOk {quad chan : Nat} (h : Memory.wf s.mem = true) :
    MemOkAfter (execDrayComplete quad chan s) := by
  simp only [execDrayComplete]
  (repeat' split) <;> simp [h]

theorem execDwait_memOk {m : Bool} {a b : BitVec 6} (h : Memory.wf s.mem = true) :
    MemOkAfter (execDwait m a b s) := by
  refine word_memOk m ?_
  split <;> simp [wf_of_eq ‹_› (State.counterHome_wf _ h)]

theorem execDpoll_memOk {m : Bool} {d a : BitVec 6} (h : Memory.wf s.mem = true) :
    MemOkAfter (execDpoll m d a s) := by
  unfold execDpoll
  apply word_memOk
  grind [State.counterHome_wf, State.trapAll_mem, State.eccMask_mem, State.groupD_mem]

theorem execDwaitRelease_memOk {coach : Nat} (h : Memory.wf s.mem = true) :
    MemOkAfter (execDwaitRelease coach s) := by
  refine memOkAfter_next.mpr (State.within_wf coach (fun t ht => ?_) h)
  have hw := State.dwaitOf_wf ht
  split
  · exact ht
  · split
    · have hu := wf_of_eq ‹_› hw
      (repeat' split) <;> simp [hu]
    · exact wf_of_eq ‹_› hw

/-! ### Machine/FloatOps -/

theorem execRound_memOk {m : Bool} {d a : BitVec 6} (h : Memory.wf s.mem = true) :
    MemOkAfter (execRound m d a s) := by
  simp [execRound, h]

theorem execCvt_memOk {m : Bool} {d a b : BitVec 6} {sf : BitVec 1} {t : BitVec 4}
    (h : Memory.wf s.mem = true) :
    MemOkAfter (execCvt m d a b sf t s) := by
  unfold execCvt
  apply word_memOk
  grind [State.trapPlane_mem, State.laneD_mem, State.laneF_mem]

/-! ### Machine/System -/

theorem execHvc_memOk {m : Bool} {a : BitVec 6} (h : Memory.wf s.mem = true) :
    MemOkAfter (execHvc m a s) := by
  simp [execHvc, h]

theorem execTret_memOk {m : Bool} (h : Memory.wf s.mem = true) : MemOkAfter (execTret m s) := by
  simp [execTret, h]

theorem execSleepWake_memOk {coach : Nat} (h : Memory.wf s.mem = true) :
    MemOkAfter (execSleepWake coach s) := by
  refine memOkAfter_next.mpr (State.within_wf coach (fun t ht => ?_) h)
  have hw := State.sleepOf_wf ht
  split
  · exact ht
  · split
    · have hu := wf_of_eq ‹_› hw
      split <;> simp [hu]
    · exact wf_of_eq ‹_› hw

theorem execTlbi_memOk {m : Bool} {a b : BitVec 6} (h : Memory.wf s.mem = true) :
    MemOkAfter (execTlbi m a b s) := by
  unfold execTlbi
  apply word_memOk
  grind [State.trapAll_mem, State.dropTlb_wf]

/-! ### Machine/Matrix -/

theorem execArrayOperationComplete_memOk {core : Nat} (h : Memory.wf s.mem = true) :
    MemOkAfter (execArrayOperationComplete core s) := by
  simp only [execArrayOperationComplete]
  (repeat' split) <;> simp [h]

theorem execMallocGrant_memOk {core : Nat} (h : Memory.wf s.mem = true) :
    MemOkAfter (execMallocGrant core s) := by
  simp only [execMallocGrant]
  (repeat' split) <;> simp [Memory.clear_wf, h]

theorem execBankRelease_memOk {core bank : Nat} (h : Memory.wf s.mem = true) :
    MemOkAfter (execBankRelease core bank s) := by
  simp only [execBankRelease]
  (repeat' split) <;> simp [h]

theorem execMzero_memOk {m : Bool} {a b : BitVec 6} (h : Memory.wf s.mem = true) :
    MemOkAfter (execMzero m a b s) := by
  unfold execMzero
  apply word_memOk
  grind [State.trapAll_mem, State.rowOp_wf]

theorem execMrda_memOk {m : Bool} {d a : BitVec 6} (h : Memory.wf s.mem = true) :
    MemOkAfter (execMrda m d a s) := by
  unfold execMrda
  apply word_memOk
  grind [State.trapAll_mem, State.modCo_mem, State.newId_mem, State.rowOp_wf]

theorem execMwra_memOk {m : Bool} {d a : BitVec 6} (h : Memory.wf s.mem = true) :
    MemOkAfter (execMwra m d a s) := by
  unfold execMwra
  apply word_memOk
  grind [State.trapAll_mem, State.rowOp_wf]

theorem execMwait_memOk {m : Bool} (h : Memory.wf s.mem = true) : MemOkAfter (execMwait m s) := by
  simp only [execMwait]
  (repeat' split) <;> simp [h]

theorem execGang_memOk {m : Bool} {a : BitVec 6} (h : Memory.wf s.mem = true) :
    MemOkAfter (execGang m a s) := by
  simp [execGang, h]

theorem execGangRendezvous_memOk {core : Nat} (h : Memory.wf s.mem = true) :
    MemOkAfter (execGangRendezvous core s) := by
  simp only [execGangRendezvous]
  (repeat' split) <;> simp [h]

theorem execTokenGrant_memOk {core : Nat} (h : Memory.wf s.mem = true) :
    MemOkAfter (execTokenGrant core s) := by
  simp only [execTokenGrant]
  (repeat' split) <;> simp [h]

/-! ### Machine/Sync -/

theorem execPhase_memOk {m : Bool} {x : BitVec 3} (h : Memory.wf s.mem = true) :
    MemOkAfter (execPhase m x s) := by
  simp [execPhase, h]

theorem execPubl_memOk {m : Bool} {x : BitVec 3} (h : Memory.wf s.mem = true) :
    MemOkAfter (execPubl m x s) := by
  simp [execPubl, h]

theorem execRefr_memOk {m : Bool} {x : BitVec 3} (h : Memory.wf s.mem = true) :
    MemOkAfter (execRefr m x s) := by
  simp [execRefr, h]

theorem execHflush_memOk {m : Bool} (h : Memory.wf s.mem = true) : MemOkAfter (execHflush m s) := by
  simp [execHflush, h]

theorem execHinv_memOk {m : Bool} (h : Memory.wf s.mem = true) : MemOkAfter (execHinv m s) := by
  simp [execHinv, h]

theorem execEvwaitRelease_memOk {coach : Nat} (h : Memory.wf s.mem = true) :
    MemOkAfter (execEvwaitRelease coach s) := by
  refine memOkAfter_next.mpr (State.within_wf coach (fun t ht => ?_) h)
  have hw := State.evwaitOf_wf ht
  split
  · exact ht
  · split
    · have hu := wf_of_eq ‹_› hw
      split <;> simp [hu]
    · exact wf_of_eq ‹_› hw

theorem execWriteBufferAdvance_memOk {coach entry : Nat} (h : Memory.wf s.mem = true) :
    MemOkAfter (execWriteBufferAdvance coach entry s) := by
  refine memOkAfter_next.mpr (State.within_wf coach (fun t ht => ?_) h)
  dsimp only
  (repeat' split) <;> simp [ht]

theorem execSnapshotFill_memOk {coach addr : Nat} (h : Memory.wf s.mem = true) :
    MemOkAfter (execSnapshotFill coach addr s) := by
  refine memOkAfter_next.mpr (State.within_wf coach (fun t ht => ?_) h)
  dsimp only
  split <;> simp [ht]

theorem execBarrierGenerationComplete_memOk {coach : Nat} {x : BitVec 3}
    (h : Memory.wf s.mem = true) :
    MemOkAfter (execBarrierGenerationComplete coach x s) := by
  refine memOkAfter_next.mpr ?_
  split
  · exact h
  · split
    · exact h
    · refine foldl_wf (fun _ (k : Coach) =>
        State.within_wf k.ident.id fun _ => State.endBarrier_wf) _ ?_
      split <;> simp [h]

/-! ### Machine/Tasks -/

theorem execTaskDispatch_memOk {vf : Nat} (h : Memory.wf s.mem = true) :
    MemOkAfter (execTaskDispatch vf s) := by
  simp only [execTaskDispatch]
  (repeat' split) <;> simp [h]

theorem execTspawn_memOk {m : Bool} {a : BitVec 6} (h : Memory.wf s.mem = true) :
    MemOkAfter (execTspawn m a s) := by
  unfold execTspawn
  apply word_memOk
  grind [State.tcbAccess_wf, State.publish_wf, State.failTask_wf, State.hold_mem,
    State.makeReady_wf, State.tcbPut_wf]

theorem execTspec_memOk {m : Bool} {a : BitVec 6} (h : Memory.wf s.mem = true) :
    MemOkAfter (execTspec m a s) := by
  unfold execTspec
  apply word_memOk
  grind [State.tcbAccess_wf, State.publish_wf, State.failTask_wf, State.startTask_wf,
    State.hold_mem, State.unhold_mem]

theorem execTcommit_memOk {m : Bool} {a : BitVec 6} (h : Memory.wf s.mem = true) :
    MemOkAfter (execTcommit m a s) := by
  refine word_memOk m ?_
  have ha := State.tcbAccess_wf a h
  split
  · exact wf_of_eq ‹_› ha
  · have ht := wf_of_eq ‹_› ha
    dsimp only
    split
    · exact ht
    · split
      · simpa using ht
      · have hp {u : State} (vf : Nat) (l : List Nat) (hu : Memory.wf u.mem = true) :
            Memory.wf (l.foldl (fun s n => s.publishSet vf n) u).mem = true :=
          foldl_wf (fun _ n => State.publishSet_wf vf n) l hu
        split
        · refine State.releaseTask_wf _ _ _ ?_
          split <;> simp [hp, ht]
        · split <;> simp [hp, ht]

theorem execTdiscard_memOk {m : Bool} {a : BitVec 6} (h : Memory.wf s.mem = true) :
    MemOkAfter (execTdiscard m a s) := by
  unfold execTdiscard
  apply word_memOk
  grind [State.tcbAccess_wf, State.unhold_mem, State.tcbPut_wf, State.modHaul_mem,
    State.stopHaul_mem]

/-! ### Machine/Views -/

theorem execViewTraversalEnd_memOk {request : Nat} (h : Memory.wf s.mem = true) :
    MemOkAfter (execViewTraversalEnd request s) := by
  unfold execViewTraversalEnd
  rw [memOkAfter_next]
  grind [State.traceViews_wf, State.modView_mem]

theorem execViewRequestStart_memOk {quad lift : Nat} (h : Memory.wf s.mem = true) :
    MemOkAfter (execViewRequestStart quad lift s) := by
  simp only [execViewRequestStart]
  (repeat' split) <;> simp [h]

theorem execShadingLaunch_memOk {request shadingSlot coachSlot : Nat} (h : Memory.wf s.mem = true) :
    MemOkAfter (execShadingLaunch request shadingSlot coachSlot s) := by
  simp only [execShadingLaunch]
  (repeat' split) <;> simp [Memory.clear_wf, h]

theorem execView_memOk {m : Bool} {d a : BitVec 6} (h : Memory.wf s.mem = true) :
    MemOkAfter (execView m d a s) := by
  simp [execView, h]

theorem execViewl_memOk {m : Bool} {d a b : BitVec 6} (h : Memory.wf s.mem = true) :
    MemOkAfter (execViewl m d a b s) := by
  unfold execViewl
  apply word_memOk
  split <;> simp [h]

theorem execVwait_memOk {m : Bool} {d a : BitVec 6} (h : Memory.wf s.mem = true) :
    MemOkAfter (execVwait m d a s) := by
  refine word_memOk m ?_
  dsimp only
  split <;> simp [h]

theorem execTicketCommit_memOk {coach : Nat} (h : Memory.wf s.mem = true) :
    MemOkAfter (execTicketCommit coach s) := by
  refine memOkAfter_next.mpr (State.within_wf coach (fun t ht => ?_) h)
  have hc := State.commitOldest_wf ht
  have hw := State.vwaitOf_wf ht
  split
  · exact ht
  · split
    · split
      · exact ht
      · split
        · exact State.viewResume_wf _ _ _ (wf_of_eq ‹_› hc)
        · exact wf_of_eq ‹_› hc
    · split
      · exact State.commitFor_wf _ _ (wf_of_eq ‹_› hw)
      · exact wf_of_eq ‹_› hw

theorem execVhit_memOk {m : Bool} {d : BitVec 6} {sel : BitVec 4} (h : Memory.wf s.mem = true) :
    MemOkAfter (execVhit m d sel s) := by
  unfold execVhit
  apply word_memOk
  split <;> simp [h]

theorem execVlvl_memOk {m : Bool} {d l : BitVec 6} (h : Memory.wf s.mem = true) :
    MemOkAfter (execVlvl m d l s) := by
  unfold execVlvl
  apply word_memOk
  split <;> simp [h]

/-! ### Machine/Retire -/

theorem execWatchdogExpiry_memOk {haul : Nat} (h : Memory.wf s.mem = true) :
    MemOkAfter (execWatchdogExpiry haul s) := by
  simp only [execWatchdogExpiry]
  (repeat' split) <;> simp [h]

theorem execCoachRetire_memOk {coach : Nat} (h : Memory.wf s.mem = true) :
    MemOkAfter (execCoachRetire coach s) := by
  refine memOkAfter_next.mpr (State.within_wf coach (fun t ht => ?_) h)
  split
  · exact ht
  · dsimp only
    split <;> simp [ht]

theorem execHaulRetire_memOk {haul : Nat} (h : Memory.wf s.mem = true) :
    MemOkAfter (execHaulRetire haul s) := by
  unfold execHaulRetire
  rw [memOkAfter_next]
  grind [State.finishReset_wf, State.retireHaul_wf, State.tearDown_wf]

/-! ### Machine/Place -/

theorem execCoachSelect_memOk {core port : Nat} (h : Memory.wf s.mem = true) :
    MemOkAfter (execCoachSelect core port s) := by
  simp only [execCoachSelect]
  (repeat' split) <;> simp [h]

theorem execSwapInPromote_memOk {haul rake : Nat} (h : Memory.wf s.mem = true) :
    MemOkAfter (execSwapInPromote haul rake s) := by
  simp only [execSwapInPromote]
  (repeat' split) <;> simp [h]

theorem execRakePlace_memOk {haul rake quad rot : Nat} {slots : List Nat}
    (h : Memory.wf s.mem = true) :
    MemOkAfter (execRakePlace haul rake quad rot slots s) := by
  simp only [execRakePlace]
  (repeat' split) <;> simp [h]

theorem execPreemptionDeadline_memOk {haul rake : Nat} (h : Memory.wf s.mem = true) :
    MemOkAfter (execPreemptionDeadline haul rake s) := by
  simp only [execPreemptionDeadline]
  (repeat' split) <;> simp [h]

theorem execPreemptionRequest_memOk {haul rake : Nat} (h : Memory.wf s.mem = true) :
    MemOkAfter (execPreemptionRequest haul rake s) := by
  simp only [execPreemptionRequest]
  (repeat' split) <;> simp [h]

theorem execTimeSlice_memOk {quad : Nat} (h : Memory.wf s.mem = true) :
    MemOkAfter (execTimeSlice quad s) := by
  simp only [execTimeSlice]
  (repeat' split) <;> simp [h]

theorem execVfSliceSwitch_memOk {quad : Nat} (h : Memory.wf s.mem = true) :
    MemOkAfter (execVfSliceSwitch quad s) := by
  simp only [execVfSliceSwitch]
  (repeat' split) <;> simp [h]

theorem execQuadHaulChange_memOk {quad : Nat} (h : Memory.wf s.mem = true) :
    MemOkAfter (execQuadHaulChange quad s) := by
  simp only [execQuadHaulChange]
  (repeat' split) <;> simp [h]

/-! ### Machine/Power -/

theorem execClockChange_memOk {quad mhz : Nat} (h : Memory.wf s.mem = true) :
    MemOkAfter (execClockChange quad mhz s) := by
  simp only [execClockChange]
  (repeat' split) <;> simp [h]

theorem execClockStable_memOk {quad : Nat} (h : Memory.wf s.mem = true) :
    MemOkAfter (execClockStable quad s) := by
  simp [execClockStable, h]

theorem execPowerLimitCrossed_memOk {mhz : Nat} (h : Memory.wf s.mem = true) :
    MemOkAfter (execPowerLimitCrossed mhz s) := by
  refine memOkAfter_next.mpr ?_
  split
  · rwa [foldl_mem (fun _ _ => State.modQuad_mem ..)]
  · exact h

theorem execRicWrite_memOk {core cadence : Nat} (h : Memory.wf s.mem = true) :
    MemOkAfter (execRicWrite core cadence s) := by
  simp only [execRicWrite]
  (repeat' split) <;> simp [h]

theorem execBandGate_memOk {core band : Nat} (h : Memory.wf s.mem = true) :
    MemOkAfter (execBandGate core band s) := by
  simp only [execBandGate]
  (repeat' split) <;> simp [h]

theorem execBandWake_memOk {core band : Nat} (h : Memory.wf s.mem = true) :
    MemOkAfter (execBandWake core band s) := by
  simp only [execBandWake]
  (repeat' split) <;> simp [h]

theorem execQuadIdle_memOk {quad : Nat} (h : Memory.wf s.mem = true) :
    MemOkAfter (execQuadIdle quad s) := by
  simp only [execQuadIdle]
  (repeat' split) <;> simp [h]

theorem execQuadGate_memOk {quad : Nat} (h : Memory.wf s.mem = true) :
    MemOkAfter (execQuadGate quad s) := by
  simp only [execQuadGate]
  (repeat' split) <;> simp [h]

theorem execGatingComplete_memOk {quad : Nat} (h : Memory.wf s.mem = true) :
    MemOkAfter (execGatingComplete quad s) := by
  simp [execGatingComplete, h]

theorem execQuadWake_memOk {quad : Nat} (h : Memory.wf s.mem = true) :
    MemOkAfter (execQuadWake quad s) := by
  simp only [execQuadWake]
  (repeat' split) <;> simp [h]

theorem execWakeChainEnd_memOk (h : Memory.wf s.mem = true) : MemOkAfter (execWakeChainEnd s) := by
  simp only [execWakeChainEnd]
  (repeat' split) <;> simp [h]

theorem execFlitRetry_memOk {die unit index : Nat} (h : Memory.wf s.mem = true) :
    MemOkAfter (execFlitRetry die unit index s) := by
  simp only [execFlitRetry]
  (repeat' split) <;> simp [h]

theorem execLinkRetrain_memOk {die unit index : Nat} {ok : Bool} (h : Memory.wf s.mem = true) :
    MemOkAfter (execLinkRetrain die unit index ok s) := by
  simp only [execLinkRetrain]
  (repeat' split) <;> simp [h]

theorem execUncorrectableError_memOk {die unit index addr : Nat} (h : Memory.wf s.mem = true) :
    MemOkAfter (execUncorrectableError die unit index addr s) := by
  simp only [execUncorrectableError]
  (repeat' split) <;> simp [h]

theorem execScrub_memOk {die unit index addr : Nat} {correctable : Bool}
    (h : Memory.wf s.mem = true) :
    MemOkAfter (execScrub die unit index addr correctable s) := by
  simp only [execScrub]
  (repeat' split) <;> simp [h]

/-! ### Machine/Queues -/

theorem execKick_memOk {vf : Nat} {w : BitVec 32} {pasid : Option (BitVec 20)}
    (h : Memory.wf s.mem = true) :
    MemOkAfter (execKick vf w pasid s) := by
  simp only [execKick]
  (repeat' split) <;> simp [h]

theorem execKickRewalk_memOk {vf entry : Nat} (h : Memory.wf s.mem = true) :
    MemOkAfter (execKickRewalk vf entry s) := by
  refine memOkAfter_next.mpr ?_
  split
  · exact h
  · exact foldl_wf (fun _ k ht => State.walkKick_wf vf k.2.1 k.2.2 ht) _
      (State.settleEntry_wf entry h)

theorem execPendingKickTake_memOk {die word : Nat} (h : Memory.wf s.mem = true) :
    MemOkAfter (execPendingKickTake die word s) := by
  simp only [execPendingKickTake]
  (repeat' split) <;> simp [h]

theorem execPacketFetch_memOk {queue : Nat} (h : Memory.wf s.mem = true) :
    MemOkAfter (execPacketFetch queue s) := by
  simp only [execPacketFetch]
  (repeat' split) <;> simp [h]

theorem execNopPacket_memOk {queue index : Nat} (h : Memory.wf s.mem = true) :
    MemOkAfter (execNopPacket queue index s) := by
  simp only [execNopPacket]
  (repeat' split) <;> simp [h]

theorem execLaunchPacket_memOk {queue index : Nat} (h : Memory.wf s.mem = true) :
    MemOkAfter (execLaunchPacket queue index s) := by
  unfold execLaunchPacket
  rw [memOkAfter_next]
  grind [State.tried_wf, State.startPacket_mem, State.launch_wf, State.recordAndSignal_wf,
    State.endPacket_wf]

theorem execSignalPacket_memOk {queue index : Nat} (h : Memory.wf s.mem = true) :
    MemOkAfter (execSignalPacket queue index s) := by
  simp only [execSignalPacket]
  (repeat' split) <;> simp [h]

theorem execWaitPacket_memOk {queue index : Nat} (h : Memory.wf s.mem = true) :
    MemOkAfter (execWaitPacket queue index s) := by
  simp only [execWaitPacket]
  (repeat' split) <;> simp [h]

theorem execWaitPoll_memOk {queue index : Nat} (h : Memory.wf s.mem = true) :
    MemOkAfter (execWaitPoll queue index s) := by
  unfold execWaitPoll
  rw [memOkAfter_next]
  grind [State.tried_wf, State.failPacket_wf, State.translate_wf, State.packetDone_wf]

theorem execWaitTimeout_memOk {queue index : Nat} (h : Memory.wf s.mem = true) :
    MemOkAfter (execWaitTimeout queue index s) := by
  simp only [execWaitTimeout]
  (repeat' split) <;> simp [h]

theorem execFencePacket_memOk {queue index : Nat} (h : Memory.wf s.mem = true) :
    MemOkAfter (execFencePacket queue index s) := by
  refine memOkAfter_next.mpr ?_
  split
  · simp [h]
  · refine State.packetDone_wf _ _ ?_
    split
    · exact foldl_wf (fun _ o ho => State.flushHost_wf o ho) _ (by simp [h])
    · simp [h]

theorem execMarkerPacket_memOk {queue index : Nat} (h : Memory.wf s.mem = true) :
    MemOkAfter (execMarkerPacket queue index s) := by
  unfold execMarkerPacket
  rw [memOkAfter_next]
  grind [State.tried_wf, State.startPacket_mem, State.writeVa_wf, State.endPacket_wf]

theorem execDcopyPacket_memOk {queue index : Nat} (h : Memory.wf s.mem = true) :
    MemOkAfter (execDcopyPacket queue index s) := by
  simp only [execDcopyPacket]
  (repeat' split) <;> simp [h]

theorem execDcopyPacketComplete_memOk {queue index : Nat} (h : Memory.wf s.mem = true) :
    MemOkAfter (execDcopyPacketComplete queue index s) := by
  refine memOkAfter_next.mpr ?_
  dsimp only
  split
  · simp [h]
  · split <;> simp [wf_of_eq ‹_› (State.copyBytes_wf _ _ _ _ h)]

/-! ### Machine/Mailbox -/

theorem execMailboxDoorbell_memOk {block : Nat} {value : BitVec 32} (h : Memory.wf s.mem = true) :
    MemOkAfter (execMailboxDoorbell block value s) := by
  simp only [execMailboxDoorbell]
  (repeat' split) <;> simp [h]

theorem execMailboxCompletion_memOk {block slot : Nat} (h : Memory.wf s.mem = true) :
    MemOkAfter (execMailboxCompletion block slot s) := by
  unfold execMailboxCompletion
  rw [memOkAfter_next]
  grind [State.wrNat_wf, State.wr_wf, State.doneSignal_wf]

theorem execDestroyq_memOk {block slot : Nat} (h : Memory.wf s.mem = true) :
    MemOkAfter (execDestroyq block slot s) := by
  refine memOkAfter_next.mpr (State.onCommand_wf _ _ _ (fun t c ht => ?_) h)
  have hw := State.walkQueue_wf c.vf (c.arg 0) (c.arg 1) ht
  split
  · have hu := wf_of_eq ‹_› hw
    dsimp only
    split
    · simp [hu]
    · split <;> simp [hu]
  · simpa using wf_of_eq ‹_› hw

theorem execAbort_memOk {block slot : Nat} (h : Memory.wf s.mem = true) :
    MemOkAfter (execAbort block slot s) := by
  refine memOkAfter_next.mpr (State.onCommand_wf _ _ _ (fun t c ht => ?_) h)
  split <;> simp [ht]

theorem execStubret_memOk {block slot : Nat} (h : Memory.wf s.mem = true) :
    MemOkAfter (execStubret block slot s) :=
  memOkAfter_next.mpr (State.onCommand_wf _ _ _ (fun t c ht => by simp [ht]) h)

theorem execPstable_memOk {block slot : Nat} (h : Memory.wf s.mem = true) :
    MemOkAfter (execPstable block slot s) :=
  memOkAfter_next.mpr (State.onCommand_wf _ _ _ (fun t c ht => by simp [ht]) h)

theorem execPsreg_memOk {block slot : Nat} (h : Memory.wf s.mem = true) :
    MemOkAfter (execPsreg block slot s) := by
  refine memOkAfter_next.mpr (State.onCommand_wf _ _ _ (fun t c ht => ?_) h)
  dsimp only
  (repeat' split) <;> simp [ht]

theorem execPrring_memOk {block slot : Nat} (h : Memory.wf s.mem = true) :
    MemOkAfter (execPrring block slot s) := by
  refine memOkAfter_next.mpr (State.onCommand_wf _ _ _ (fun t c ht => ?_) h)
  dsimp only
  split <;> simp [ht]

theorem execPageRequestPost_memOk {vf asid : Nat} (h : Memory.wf s.mem = true) :
    MemOkAfter (execPageRequestPost vf asid s) := by
  simp only [execPageRequestPost]
  (repeat' split) <;> simp [h]

theorem execPageRequestCompletion_memOk {vf asid : Nat} (h : Memory.wf s.mem = true) :
    MemOkAfter (execPageRequestCompletion vf asid s) := by
  unfold execPageRequestCompletion
  rw [memOkAfter_next]
  grind [State.ringIndices_wf, State.readGpa_wf, State.completePage_mem, State.wrNat_wf]

theorem execErrcnt_memOk {block slot : Nat} (h : Memory.wf s.mem = true) :
    MemOkAfter (execErrcnt block slot s) := by
  refine memOkAfter_next.mpr (State.onCommand_wf _ _ _ (fun t c ht => ?_) h)
  split <;> simp [ht]

theorem execCompat_memOk {block slot : Nat} (h : Memory.wf s.mem = true) :
    MemOkAfter (execCompat block slot s) :=
  memOkAfter_next.mpr (State.onCommand_wf _ _ _ (fun t c ht => by simp [ht]) h)

/-! ### Machine/Save -/

theorem execRakeSave_memOk {haul rake : Nat} (h : Memory.wf s.mem = true) :
    MemOkAfter (execRakeSave haul rake s) := by
  simp only [execRakeSave]
  (repeat' split) <;> simp [h]

theorem execSave_memOk {block slot : Nat} (h : Memory.wf s.mem = true) :
    MemOkAfter (execSave block slot s) := by
  refine memOkAfter_next.mpr (State.onCommand_wf _ _ _ (fun t c ht => ?_) h)
  dsimp only
  (repeat' split) <;> simp [ht]

/-! ### Machine/PageMove -/

theorem execPgmig_memOk {block slot : Nat} (h : Memory.wf s.mem = true) :
    MemOkAfter (execPgmig block slot s) := by
  refine memOkAfter_next.mpr (State.onCommand_wf _ _ _ (fun t c ht => ?_) h)
  have hr := State.rootIn_wf c.vf (BitVec.ofNat 16 (c.arg 0)) ht
  dsimp only
  split
  · exact ht
  · split
    · simpa using wf_of_eq ‹_› hr
    · have hu := wf_of_eq ‹_› hr
      split
      · simpa using hu
      · split
        · simpa using wf_of_eq ‹_› (walk1_wf _ _ _ _ _ hu)
        · have hv := wf_of_eq ‹_› (walk1_wf _ _ _ _ _ hu)
          split <;> simp [hv]

theorem execPageMigrationRound_memOk {migration : Nat} (h : Memory.wf s.mem = true) :
    MemOkAfter (execPageMigrationRound migration s) := by
  simp only [execPageMigrationRound]
  (repeat' split) <;> simp [h]

theorem execPageMigrationFreeze_memOk {migration : Nat} (h : Memory.wf s.mem = true) :
    MemOkAfter (execPageMigrationFreeze migration s) := by
  refine memOkAfter_next.mpr ?_
  split
  · exact h
  · next m _ =>
    split
    · simp [h]
    · have hd := foldl_wf (fun _ c => State.within_wf c.ident.id fun _ =>
        State.drainMove_wf m.pieces) s.allCoaches h
      simp only [State.endCommand_mem, State.rehome_mem, State.dropMovedTlb_mem]
      refine foldl_wf (fun _ l => State.rewriteLeaf_wf l) _ ?_
      rw [State.dropMove_mem]
      exact State.copyLines_wf _ _ _ hd

/-! ### Machine/Virtual -/

theorem execFunctionLevelReset_memOk {vf : Nat} (h : Memory.wf s.mem = true) :
    MemOkAfter (execFunctionLevelReset vf s) := by
  simp only [execFunctionLevelReset]
  (repeat' split) <;> simp [h]

theorem execTdispLockInterface_memOk {vf : Nat} {sessionKey : BitVec 64}
    (h : Memory.wf s.mem = true) :
    MemOkAfter (execTdispLockInterface vf sessionKey s) := by
  simp only [execTdispLockInterface]
  (repeat' split) <;> simp [h]

theorem execInterfaceError_memOk {vf : Nat} (h : Memory.wf s.mem = true) :
    MemOkAfter (execInterfaceError vf s) := by
  simp only [execInterfaceError]
  (repeat' split) <;> simp [h]

theorem execStubAppend_memOk {vf addr : Nat} {op : PeerAccess} (h : Memory.wf s.mem = true) :
    MemOkAfter (execStubAppend vf addr op s) := by
  simp only [execStubAppend]
  (repeat' split) <;> simp [h]

theorem execIngressAccess_memOk {port addr : Nat} {op : Ingress} (h : Memory.wf s.mem = true) :
    MemOkAfter (execIngressAccess port addr op s) := by
  simp only [execIngressAccess]
  (repeat' split) <;> simp [Memory.putAll_wf, h]

theorem execDeviceReset_memOk (h : Memory.wf s.mem = true) : MemOkAfter (execDeviceReset s) := by
  simp [execDeviceReset, Memory.clear_wf, h]

/-! ### Machine/Lease -/

theorem execLeaseRenew_memOk (h : Memory.wf s.mem = true) : MemOkAfter (execLeaseRenew s) := by
  simp only [execLeaseRenew]
  (repeat' split) <;> simp [h]

theorem execLeaseTakeover_memOk {die : Nat} (h : Memory.wf s.mem = true) :
    MemOkAfter (execLeaseTakeover die s) := by
  unfold execLeaseTakeover
  rw [memOkAfter_next]
  grind [State.modDev_mem, State.serve_wf, State.replayJournal_wf, State.setLease_wf]

theorem execLeaseFallback_memOk {die : Nat} (h : Memory.wf s.mem = true) :
    MemOkAfter (execLeaseFallback die s) := by
  simp only [execLeaseFallback]
  (repeat' split) <;> simp [h]

theorem execFirmwareLoad_memOk {level : BitVec 32} {verified : Bool} (h : Memory.wf s.mem = true) :
    MemOkAfter (execFirmwareLoad level verified s) := by
  refine memOkAfter_next.mpr ?_
  split
  · have hl := State.loseService_wf (s := s.endAll 7 0) (by simp [h])
    have hw := State.setMbState_wf 2 (State.wrNat_wf leaseHome 8 0 hl)
    dsimp only
    split
    · refine State.serve_wf _ _ (State.setLease_wf _ _ (State.writeHeader_wf ?_))
      rw [State.modDev_mem]
      exact hw
    · refine State.writeHeader_wf ?_
      rw [State.modDev_mem]
      exact hw
  · refine foldl_wf (fun _ n hn => State.toError_wf n hn) _ ?_
    have hz : Memory.wf s.stopLeader.mem = true := by simp [h]
    exact State.setMbState_wf 0 (State.wrNat_wf leaseHome 8 0 hz)

/-! ### Machine/Migrate -/

theorem execMigout_memOk {block slot : Nat} (h : Memory.wf s.mem = true) :
    MemOkAfter (execMigout block slot s) := by
  refine memOkAfter_next.mpr (State.onCommand_wf _ _ _ (fun t c ht => ?_) h)
  (repeat' split) <;> simp [ht]

theorem execMigin_memOk {block slot : Nat} (h : Memory.wf s.mem = true) :
    MemOkAfter (execMigin block slot s) := by
  refine memOkAfter_next.mpr (State.onCommand_wf _ _ _ (fun t c ht => ?_) h)
  have hr := State.readGpas_wf (spans (c.arg 1) (c.arg 2)) ht
  split
  · simpa using wf_of_eq ‹_› hr
  · have hu := wf_of_eq ‹_› hr
    (repeat' split) <;> simp [hu]

/-! ## Every execution, every step -/

theorem State.drayIssue_wf {op : Nat} {a : BitVec 6} (h : Memory.wf s.mem = true) :
    Memory.wf (s.drayIssue op a).mem = true := by
  rwa [State.drayIssue_mem]

theorem State.special_wf {i : Instr} {d a : BitVec 6} {f : BitVec 2 → Nat → Nat → Nat × Flags}
    (h : Memory.wf s.mem = true) :
    Memory.wf (s.special i d a f).mem = true := by
  rwa [State.special_mem]

theorem exec_memOk (i : Instr) (h : Memory.wf s.mem = true) : MemOkAfter (exec i s) := by
  unfold exec
  cases i with
  | fetchFault => exact execFetchFault_memOk h
  | illegalEncoding => exact execIllegalEncoding_memOk h
  | zeroWordTrap | nop | exit | yield | moder | exms | exmg | exma | psw | pswi | plq | laneid
  | br | brn | jmp | ji | brz | brnz | dbnz | and | or | xor | andn | not | shl | shr | sar | rotl
  | clz | popc | brev | bfx | bfi | mov | andi | ori | xori | shi | movi | movhi | sel | pfetch
  | packe | unpke | fflgr | fflgc | shfli | shflu | shfld | shflx | bcast | rdln | first | pand
  | por | pxor | pandn | pnot | pmov | pseta | pclr | kfromg | ballot | popck | vany | vall
  | gkand | gkor | gknot | gadd | gsub | gmul | gmulhu | gand | gor | gxor | gandn | gshl | gshr
  | gsar | gmin | gmax | gminu | gmaxu | gpopc | gclz | gmov | gdivu | gremu | gaddi | gmovi
  | gmovhi | gori | gshi | gcmp | sysc | bkpt | sleep | ifence | evwait => exact word_memOk _ h
  | mode | ids => exact word_memOk _ (by split <;> exact h)
  | modeg => exact execModeg_memOk h
  | call => exact execCall_memOk h
  | calli => exact execCalli_memOk h
  | ret => exact execRet_memOk h
  | runLimit => exact execRunLimit_memOk h
  | parkEnd => exact execParkEnd_memOk h
  | trapEntry => exact execTrapEntry_memOk h
  | add | sub | mul | mulh | min | max | abs | neg | div | rem | mad | madn | addi =>
    exact word_memOk _ (State.typed_wf h h)
  | cmp => exact word_memOk _ (by split; exacts [h, State.typed_wf h (by split <;> exact h)])
  | cmpi | fldexp => exact word_memOk _ (by split; exacts [h, State.typed_wf h h])
  | ld => exact execLd_memOk h
  | st | sld | sst | qld | qst | atom | atomn =>
    exact word_memOk _ (foldl_wf (fun _ _ ht => by simp [ht]) _ h)
  | gld => exact execGld_memOk h
  | gst => exact execGst_memOk h
  | afadd => exact execAfadd_memOk h
  | afxrd => exact execAfxrd_memOk h
  | afxclr => exact execAfxclr_memOk h
  | afxflg => exact execAfxflg_memOk h
  | pgreq => exact word_memOk _ (foldl_fst_wf (fun _ l hr => State.pgLane_wf _ _ l hr) _ h)
  | resq => exact word_memOk _ (foldl_fst_wf (fun _ l hr => State.resLane_wf _ _ l hr) _ h)
  | publish => exact execPublish_memOk h
  | ppin => exact execPpin_memOk h
  | punpin => exact execPunpin_memOk h
  | eventRecordPost => exact execEventRecordPost_memOk h
  | eventQueueRead => exact execEventQueueRead_memOk h
  | dcopy | dcopyt | dcvt | dgath | dscat | dfill => exact word_memOk _ (State.drayIssue_wf h)
  | drayEnqueue => exact execDrayEnqueue_memOk h
  | drayCommandStart => exact execDrayCommandStart_memOk h
  | drayComplete => exact execDrayComplete_memOk h
  | dwait => exact execDwait_memOk h
  | dpoll => exact execDpoll_memOk h
  | dwaitRelease => exact execDwaitRelease_memOk h
  | frcp | frsq | fsqrt | fex2 | flg2 | fsint | fcost | fclass =>
    exact word_memOk _ (State.special_wf h)
  | round => exact execRound_memOk h
  | cvt => exact execCvt_memOk h
  | hvc => exact execHvc_memOk h
  | tret => exact execTret_memOk h
  | sleepWake => exact execSleepWake_memOk h
  | tlbi => exact execTlbi_memOk h
  | phint | srr | srw | srrl | srwl | mcfg | malloc | mfree | tdone | vpoll | vout =>
    refine word_memOk _ ?_
    dsimp only
    split
    · simp [h]
    · split <;> simp [h]
  | arrayOperationComplete => exact execArrayOperationComplete_memOk h
  | mallocGrant => exact execMallocGrant_memOk h
  | bankRelease => exact execBankRelease_memOk h
  | mzero => exact execMzero_memOk h
  | mrda => exact execMrda_memOk h
  | mwra => exact execMwra_memOk h
  | mwait => exact execMwait_memOk h
  | gang => exact execGang_memOk h
  | mldw | mldwt | mswap | mtok | mstream | mstra | mgather =>
    exact matx_memOk _ _ h (fun _ => by simp [h])
  | gangRendezvous => exact execGangRendezvous_memOk h
  | tokenGrant => exact execTokenGrant_memOk h
  | phase => exact execPhase_memOk h
  | publ => exact execPubl_memOk h
  | refr => exact execRefr_memOk h
  | hflush => exact execHflush_memOk h
  | hinv => exact execHinv_memOk h
  | evwaitRelease => exact execEvwaitRelease_memOk h
  | writeBufferAdvance => exact execWriteBufferAdvance_memOk h
  | snapshotFill => exact execSnapshotFill_memOk h
  | barrierGenerationComplete => exact execBarrierGenerationComplete_memOk h
  | bar | bara | barw => exact barWord_memOk _ _ h (by split <;> simp [h])
  | taskDispatch => exact execTaskDispatch_memOk h
  | tspawn => exact execTspawn_memOk h
  | tspec => exact execTspec_memOk h
  | tcommit => exact execTcommit_memOk h
  | tdiscard => exact execTdiscard_memOk h
  | viewTraversalEnd => exact execViewTraversalEnd_memOk h
  | viewRequestStart => exact execViewRequestStart_memOk h
  | shadingLaunch => exact execShadingLaunch_memOk h
  | view => exact execView_memOk h
  | viewl => exact execViewl_memOk h
  | vwait => exact execVwait_memOk h
  | ticketCommit => exact execTicketCommit_memOk h
  | vhit => exact execVhit_memOk h
  | vlvl => exact execVlvl_memOk h
  | watchdogExpiry => exact execWatchdogExpiry_memOk h
  | coachRetire => exact execCoachRetire_memOk h
  | haulRetire => exact execHaulRetire_memOk h
  | coachSelect => exact execCoachSelect_memOk h
  | swapInPromote => exact execSwapInPromote_memOk h
  | rakePlace => exact execRakePlace_memOk h
  | preemptionDeadline => exact execPreemptionDeadline_memOk h
  | preemptionRequest => exact execPreemptionRequest_memOk h
  | timeSlice => exact execTimeSlice_memOk h
  | vfSliceSwitch => exact execVfSliceSwitch_memOk h
  | quadHaulChange => exact execQuadHaulChange_memOk h
  | clockChange => exact execClockChange_memOk h
  | clockStable => exact execClockStable_memOk h
  | powerLimitCrossed => exact execPowerLimitCrossed_memOk h
  | ricWrite => exact execRicWrite_memOk h
  | bandGate => exact execBandGate_memOk h
  | bandWake => exact execBandWake_memOk h
  | quadIdle => exact execQuadIdle_memOk h
  | quadGate => exact execQuadGate_memOk h
  | gatingComplete => exact execGatingComplete_memOk h
  | quadWake => exact execQuadWake_memOk h
  | wakeChainEnd => exact execWakeChainEnd_memOk h
  | flitRetry => exact execFlitRetry_memOk h
  | linkRetrain => exact execLinkRetrain_memOk h
  | uncorrectableError => exact execUncorrectableError_memOk h
  | scrub => exact execScrub_memOk h
  | kick => exact execKick_memOk h
  | kickRewalk => exact execKickRewalk_memOk h
  | pendingKickTake => exact execPendingKickTake_memOk h
  | packetFetch => exact execPacketFetch_memOk h
  | nopPacket => exact execNopPacket_memOk h
  | launchPacket => exact execLaunchPacket_memOk h
  | signalPacket => exact execSignalPacket_memOk h
  | waitPacket => exact execWaitPacket_memOk h
  | waitPoll => exact execWaitPoll_memOk h
  | waitTimeout => exact execWaitTimeout_memOk h
  | fencePacket => exact execFencePacket_memOk h
  | markerPacket => exact execMarkerPacket_memOk h
  | dcopyPacket => exact execDcopyPacket_memOk h
  | dcopyPacketComplete => exact execDcopyPacketComplete_memOk h
  | mailboxDoorbell => exact execMailboxDoorbell_memOk h
  | mailboxCompletion => exact execMailboxCompletion_memOk h
  | destroyq => exact execDestroyq_memOk h
  | abort => exact execAbort_memOk h
  | stubret => exact execStubret_memOk h
  | pstable => exact execPstable_memOk h
  | psreg => exact execPsreg_memOk h
  | prring => exact execPrring_memOk h
  | pageRequestPost => exact execPageRequestPost_memOk h
  | pageRequestCompletion => exact execPageRequestCompletion_memOk h
  | errcnt => exact execErrcnt_memOk h
  | compat => exact execCompat_memOk h
  | rakeSave => exact execRakeSave_memOk h
  | save => exact execSave_memOk h
  | pgmig => exact execPgmig_memOk h
  | pageMigrationRound => exact execPageMigrationRound_memOk h
  | pageMigrationFreeze => exact execPageMigrationFreeze_memOk h
  | functionLevelReset => exact execFunctionLevelReset_memOk h
  | tdispLockInterface => exact execTdispLockInterface_memOk h
  | interfaceError => exact execInterfaceError_memOk h
  | stubAppend => exact execStubAppend_memOk h
  | ingressAccess => exact execIngressAccess_memOk h
  | deviceReset => exact execDeviceReset_memOk h
  | leaseRenew => exact execLeaseRenew_memOk h
  | leaseTakeover => exact execLeaseTakeover_memOk h
  | leaseFallback => exact execLeaseFallback_memOk h
  | firmwareLoad => exact execFirmwareLoad_memOk h
  | migout => exact execMigout_memOk h
  | migin => exact execMigin_memOk h

theorem step_memOk (h : Memory.wf s.mem = true) : MemOkAfter (step s) := by
  have ht (l : List Turn) : Memory.wf (State.tick { s with schedule := l }).mem = true := by
    rwa [State.tick_mem]
  have ha : Memory.wf s.tick.auto.2.mem = true := State.auto_wf (by rwa [State.tick_mem])
  unfold step
  split
  · dsimp only
    split
    · exact memOkAfter_next.mpr (ht _)
    · exact exec_memOk _ (ht _)
  · exact memOkAfter_next.mpr (by rw [State.stopLeader_mem]; exact ht _)
  · exact memOkAfter_next.mpr (by rw [State.focus_mem]; exact ht _)
  · split <;> rename_i e <;> rw [e] at ha
    · exact exec_memOk _ ha
    · exact memOkAfter_next.mpr ha

/-- Settles O5: whatever a step runs, it writes the memory by functions that keep the form. -/
theorem memOkKept : Obligations.MemOkKept := fun _ t h e => step_memOk h t e

end Sys2Proof.Machine
end

section
/-! # O55: errors (R14 to R16, R374, R380, R381, R383)

Each step on an error counts it for its unit; the count's table is read back by `countOf`. An
uncorrectable error of a memory then poisons the codeword's granules, and one of a crossbar or a
Coupler fails the loads in flight. -/

namespace Sys2Proof.Machine
variable {s : State} {die unit index : Nat}

/-! ## The error counts -/

/-- The counts of a unit in a table of error counts, as `State.errorsOf` reads them. -/
def countOf (l : List (Nat × Nat × Nat × Nat × Nat × Bool)) (die unit index : Nat) : Nat × Nat × Bool :=
  ((l.find? fun e => e.1 == die && e.2.1 == unit && e.2.2.1 == index).map (·.2.2.2)).getD (0, 0, false)

theorem State.errorsOf_eq (s : State) (die unit index : Nat) :
    s.errorsOf die unit index = countOf s.dev.errors die unit index :=
  rfl

theorem countOf_cons (e : Nat × Nat × Nat × Nat × Nat × Bool)
    (l : List (Nat × Nat × Nat × Nat × Nat × Bool)) (die unit index : Nat) :
    countOf (e :: l) die unit index =
      if e.1 = die ∧ e.2.1 = unit ∧ e.2.2.1 = index then e.2.2.2 else countOf l die unit index := by
  by_cases h : e.1 = die ∧ e.2.1 = unit ∧ e.2.2.1 = index
  · simp [countOf, h]
  · have hb : (e.1 == die && e.2.1 == unit && e.2.2.1 == index) = false := by
      simpa [and_assoc] using h
    simp [countOf, h, hb]

/-- `countIn` changes the entry of its own unit and no other. -/
theorem countOf_countIn (f : Nat × Nat × Bool → Nat × Nat × Bool)
    (l : List (Nat × Nat × Nat × Nat × Nat × Bool)) (die unit index d u i : Nat) :
    countOf (countIn die unit index f l) d u i =
      if (d, u, i) = (die, unit, index) then f (countOf l d u i) else countOf l d u i := by
  induction l with
  | nil =>
    rw [countIn, countOf_cons]
    by_cases h : (d, u, i) = (die, unit, index)
    · cases h
      simp [countOf]
    · have h' : ¬ (die = d ∧ unit = u ∧ index = i) := by
        rintro ⟨rfl, rfl, rfl⟩
        exact h rfl
      simp [h, h']
  | cons e l ih =>
    obtain ⟨d', u', i', x⟩ := e
    rw [countIn]
    by_cases he : d' = die ∧ u' = unit ∧ i' = index
    · obtain ⟨rfl, rfl, rfl⟩ := he
      rw [if_pos ⟨rfl, rfl, rfl⟩, countOf_cons, countOf_cons]
      by_cases h : (d, u, i) = (d', u', i')
      · cases h
        simp
      · have h' : ¬ (d' = d ∧ u' = u ∧ i' = i) := by
          rintro ⟨rfl, rfl, rfl⟩
          exact h rfl
        simp only [h, h', if_false]
    · rw [if_neg he, countOf_cons, countOf_cons, ih]
      by_cases h : d' = d ∧ u' = u ∧ i' = i
      · obtain ⟨rfl, rfl, rfl⟩ := h
        have h' : (d', u', i') ≠ (die, unit, index) := by simpa using he
        simp [h']
      · simp only [h, if_false]

theorem State.errorsOf_corrected (s : State) (die unit index d u i : Nat) :
    (s.corrected die unit index).errorsOf d u i =
      let e := s.errorsOf d u i
      if (d, u, i) = (die, unit, index) then (e.1 + 1, e.2.1, e.2.2 || Config.degrades s.fresh) else e :=
  countOf_countIn ..

theorem State.errorsOf_uncorrected (s : State) (die unit index d u i : Nat) :
    (s.uncorrected die unit index).errorsOf d u i =
      let e := s.errorsOf d u i
      if (d, u, i) = (die, unit, index) then (e.1, e.2.1 + 1, e.2.2) else e :=
  countOf_countIn ..

/-- From s to t one corrected error of a unit is counted, and nothing else changes; whether the
unit counts as degraded is free, once degraded it stays so (R380, R383; log 21). -/
def CountsCorrected (s t : State) (d u i : Nat) : Prop :=
  (∃ g, t.errorsOf d u i = ((s.errorsOf d u i).1 + 1, (s.errorsOf d u i).2.1, g) ∧
    ((s.errorsOf d u i).2.2 = true → g = true)) ∧
  t = { s with dev := { s.dev with errors := t.dev.errors } } ∧
  ∀ k : Nat × Nat × Nat, k ≠ (d, u, i) → t.errorsOf k.1 k.2.1 k.2.2 = s.errorsOf k.1 k.2.1 k.2.2

/-- From s to t one uncorrectable error of a unit is counted, and no byte of memory changes (R383). -/
def CountsLost (s t : State) (d u i : Nat) : Prop :=
  t.errorsOf d u i = ((s.errorsOf d u i).1, (s.errorsOf d u i).2.1 + 1, (s.errorsOf d u i).2.2) ∧
  t.mem = s.mem ∧
  ∀ k : Nat × Nat × Nat, k ≠ (d, u, i) → t.errorsOf k.1 k.2.1 k.2.2 = s.errorsOf k.1 k.2.1 k.2.2

theorem State.corrected_counts (s : State) (d u i : Nat) : CountsCorrected s (s.corrected d u i) d u i := by
  refine ⟨⟨(s.errorsOf d u i).2.2 || Config.degrades s.fresh, ?_, ?_⟩, rfl, ?_⟩
  · simp [State.errorsOf_corrected]
  · intro h
    simp [h]
  · intro k hk
    rw [State.errorsOf_corrected, if_neg hk]

/-- What counts an error and then leaves the counts and the memory alone loses nothing more. -/
theorem State.uncorrected_counts {t : State} {d u i : Nat}
    (he : t.dev.errors = (s.uncorrected d u i).dev.errors) (hm : t.mem = s.mem) :
    CountsLost s t d u i := by
  have ht (a b c : Nat) : t.errorsOf a b c = (s.uncorrected d u i).errorsOf a b c := by
    rw [State.errorsOf_eq, he, State.errorsOf_eq]
  refine ⟨?_, hm, ?_⟩
  · rw [ht, State.errorsOf_uncorrected, if_pos rfl]
  · intro k hk
    rw [ht, State.errorsOf_uncorrected, if_neg hk]

/-! ## Which unit holds an address (R14 to R16) -/

theorem unitHolds_pool {a : Nat} (hd : die < 4) (hi : index < 64) :
    unitHolds die 4 index a = true ↔
      (homeScr (64 * die + index) 0 ≤ a ∧ a < homeScr (64 * die + index) 4194304) ∨
        (homeAcc (64 * die + index) 0 ≤ a ∧ a < homeAcc (64 * die + index) 0 + 2 ^ 52) := by
  simp only [unitHolds, isScr, Bool.or_eq_true, Bool.and_eq_true, beq_iff_eq, decide_eq_true_eq]
  simp only [homeScr, homeAcc, homeSpan, poolBytes]
  omega

theorem unitHolds_quad {a : Nat} :
    unitHolds die 5 index a = true ↔
      homeQm (16 * die + index) 0 ≤ a ∧ a < homeQm (16 * die + index) 0 + 2 ^ 52 := by
  simp only [unitHolds, homeQm, homeSpan, beq_iff_eq]
  omega

theorem unitHolds_die {a : Nat} : unitHolds die 7 index a = true ↔ a < devBytes ∧ groupOf a / 16 = die := by
  simp [unitHolds]

theorem unitHolds_stack {a : Nat} :
    unitHolds die 8 index a = true ↔ a < devBytes ∧ groupOf a / 8 = 2 * die + index := by
  simp [unitHolds]

/-- Only the units with a memory hold some addresses and not others. -/
theorem unitHolds_of_no_memory {a : Nat} (h : unit < 4) : unitHolds die unit index a = true := by
  interval_cases unit <;> rfl

theorem unitOk_of_lt (hd : die < 4) (hi : index < unitsOf unit) : unitOk die unit index = true :=
  decide_eq_true ⟨hd, hi⟩

/-- There are no units of a kind above 8. -/
theorem unit_le_of_lt_unitsOf (h : index < unitsOf unit) : unit ≤ 8 := by
  unfold unitsOf at h
  split at h <;> omega

/-! ## Poison (R15, R381) -/

/-- The granules of the codeword that holds an address. -/
def codewordGranules (n a : Nat) : List Nat := (List.range (n / 4)).map fun j => a / n * n + 4 * j

/-- A coach whose register words in given granules of the pool hold an error, as `State.poison`
leaves it. -/
def Coach.spoil (gs : List Nat) (c : Coach) : Coach :=
  let rs := if c.present then c.regsAt gs else []
  if rs = [] then c
  else { c with regs := { c.regs with bad := c.regs.bad ++ rs.filter fun r => !c.regs.bad.contains r } }

theorem State.poison_eq (s : State) (unit a : Nat) :
    s.poison unit a =
      { s with
        co := s.co.spoil (codewordGranules (codeword unit) a)
        coaches := s.coaches.map (Coach.spoil (codewordGranules (codeword unit) a)) }.poisonAll
        ((codewordGranules (codeword unit) a).filter fun g => !s.allCoaches.any fun c => c.regsAt [g] != []) :=
  rfl

/-- A coach without the record of its erroneous register words. -/
def Coach.clean (c : Coach) : Coach := { c with regs := { c.regs with bad := [] } }

theorem Coach.clean_spoil (gs : List Nat) (c : Coach) : (c.spoil gs).clean = c.clean := by
  unfold Coach.spoil
  dsimp only
  generalize (if c.present then c.regsAt gs else []) = rs
  split <;> rfl

theorem Coach.mem_bad_spoil (gs : List Nat) (c : Coach) (w : Nat × Nat) :
    w ∈ (c.spoil gs).regs.bad ↔ w ∈ c.regs.bad ∨ (c.present = true ∧ w ∈ c.regsAt gs) := by
  by_cases hp : c.present = true
  · by_cases hr : c.regsAt gs = []
    · simp [Coach.spoil, hp, hr]
    · by_cases hw : w ∈ c.regs.bad <;> simp [Coach.spoil, hp, hr, hw]
  · simp [Coach.spoil, hp]

/-- From s to t the granules of n bytes around an address are poisoned, or the register words of
the coaches that lie there; apart from the error counts nothing else changes (R15, R381). -/
def Spoils (s : State) (n a : Nat) (t : State) : Prop :=
  t = { s with co := t.co, coaches := t.coaches, dev := { s.dev with errors := t.dev.errors, poison := t.dev.poison } } ∧
  (t.co :: t.coaches).map Coach.clean = (s.co :: s.coaches).map Coach.clean ∧
  (∀ p ∈ (s.co :: s.coaches).zip (t.co :: t.coaches), ∀ w, w ∈ p.2.regs.bad ↔
    w ∈ p.1.regs.bad ∨ (p.1.present = true ∧ w ∈ p.1.regsAt (codewordGranules n a))) ∧
  ∀ g, g ∈ t.dev.poison ↔
    g ∈ s.dev.poison ∨ (g ∈ codewordGranules n a ∧ ∀ c ∈ s.allCoaches, c.regsAt [g] = [])

theorem State.poison_spoils (s : State) (d u i a : Nat) :
    Spoils s (codeword u) a ((s.uncorrected d u i).poison u a) := by
  have hcs : ∀ t, t = (s.uncorrected d u i).poison u a →
      t.co :: t.coaches = (s.co :: s.coaches).map (Coach.spoil (codewordGranules (codeword u) a)) := by
    rintro _ rfl
    rfl
  refine ⟨rfl, ?_, ?_, ?_⟩
  · rw [hcs _ rfl, List.map_map]
    exact List.map_congr_left fun c _ => Coach.clean_spoil _ c
  · rw [hcs _ rfl]
    intro p hp w
    rw [← List.map_prod_left_eq_zip] at hp
    obtain ⟨c, -, rfl⟩ := List.mem_map.mp hp
    exact Coach.mem_bad_spoil _ c w
  · intro g
    have hreg : ((!s.allCoaches.any fun c => c.regsAt [g] != []) = true) ↔
        ∀ c ∈ s.allCoaches, c.regsAt [g] = [] := by
      simp only [Bool.not_eq_true', List.any_eq_false, bne_iff_ne, ne_eq, not_not]
    rw [State.poison_eq, State.mem_poisonAll, List.mem_filter]
    exact or_congr_right (and_congr_right fun _ => hreg)

theorem State.poison_counts (s : State) (d u i a : Nat) :
    CountsLost s ((s.uncorrected d u i).poison u a) d u i :=
  State.uncorrected_counts rfl rfl

/-! ## An access that fails (R380, R381) -/

theorem State.modCoach_dev (s : State) (id : Nat) (f : Coach → Coach) : (s.modCoach id f).dev = s.dev := by
  unfold State.modCoach
  split <;> rfl

theorem Coach.errLanes_regs (c : Coach) (m : LaneMask) (k : Cause) : (c.errLanes m k).regs = c.regs := rfl

theorem Coach.failLoads_regs (c : Coach) (g : Nat) : (c.failLoads g).regs = c.regs := by
  have h (l : List Deferred) (k : Coach) : (l.foldl (fun c d => match d with
      | .load dest _ _ k => if d.needs g then c.errLanes dest.lanes k else c
      | _ => c) k).regs = k.regs := by
    induction l generalizing k with
    | nil => rfl
    | cons d l ih =>
      rw [List.foldl_cons, ih]
      split
      · split <;> rfl
      · rfl
  exact h ..

/-- The loads that needed the granule are gone. -/
theorem Coach.failLoads_needs (c : Coach) (g : Nat) :
    ∀ x ∈ (c.failLoads g).issue.deferred, x.needs g = false := by
  intro x hx
  simpa using (List.mem_filter.mp hx).2

theorem State.failAccess_dev (s : State) (g : Nat) :
    (s.failAccess g).dev =
      { s.dev with lost := (g, s.fresh + 1) :: s.dev.lost.filter fun p => decide (s.fresh < p.2) } := by
  simp only [State.failAccess]
  split
  · rfl
  · rw [State.modCoach_dev]
    rfl

/-- The coach in focus is the first that a failed access may meet. -/
theorem State.failAccess_co {g : Nat} (hp : s.co.present = true)
    (hx : ∃ x ∈ s.co.issue.deferred, x.needs g = true) : (s.failAccess g).co = s.co.failLoads g := by
  have hf (t : State) (ht : t.co = s.co) :
      (t.allCoaches.find? fun c => c.issue.deferred.any fun d => d.needs g) = some s.co := by
    have ha : (s.co.issue.deferred.any fun d => d.needs g) = true := List.any_eq_true.mpr hx
    simp [State.allCoaches, ht, hp, ha]
  unfold State.failAccess
  dsimp only
  rw [hf _ (State.modDev_co ..)]
  simp [State.modCoach]

/-! ## A link that fails ends every haul (R374, R380) -/

theorem State.stopHaul_dev (s : State) (haul status : Nat) (detail : Word) (faddr : Dword) :
    (s.stopHaul haul status detail faddr).dev = s.dev :=
  rfl

theorem State.stopHaul_hauls (s : State) (haul status : Nat) (detail : Word) (faddr : Dword) :
    (s.stopHaul haul status detail faddr).hauls = s.hauls.map fun h =>
      if h.id = haul then { h with ended := some (h.ended.getD (status, detail, faddr)) } else h :=
  rfl

theorem State.endAll_dev (s : State) (status : Nat) (detail : Word) : (s.endAll status detail).dev = s.dev := by
  unfold State.endAll
  generalize s.hauls.filter _ = l
  induction l generalizing s with
  | nil => rfl
  | cons h l ih => rw [List.foldl_cons, ih, State.stopHaul_dev]

/-- Stopping the hauls of a list ends each haul whose number one of them bears, and keeps what has
ended so. -/
theorem stopEach_ends (status : Nat) (detail : Word) (l : List Haul)
    (hl : ∀ h ∈ s.hauls, h.retired = false → h.ended = none → h.id ∈ l.map (·.id)) :
    ∀ h ∈ (l.foldl (fun s h => s.stopHaul h.id status detail 0) s).hauls,
      h.retired = false → h.ended.isSome = true := by
  induction l generalizing s with
  | nil =>
    intro h hh hr
    cases he : h.ended with
    | some e => rfl
    | none => exact absurd (hl h hh hr he) (by simp)
  | cons k l ih =>
    rw [List.foldl_cons]
    refine ih fun h hh hr he => ?_
    rw [State.stopHaul_hauls] at hh
    obtain ⟨j, hj, rfl⟩ := List.mem_map.mp hh
    by_cases hid : j.id = k.id
    · rw [if_pos hid] at he
      exact absurd he (by simp)
    · rw [if_neg hid] at hr he ⊢
      simpa [hid] using hl j hj hr he

theorem State.endAll_ends (s : State) (status : Nat) (detail : Word) :
    ∀ h ∈ (s.endAll status detail).hauls, h.retired = false → h.ended.isSome = true := by
  refine stopEach_ends status detail _ fun h hh hr he => ?_
  exact List.mem_map.mpr ⟨h, List.mem_filter.mpr ⟨hh, by simp [hr, he]⟩, rfl⟩

/-! ## The steps -/

section steps
variable (hd : die < 4) (hi : index < unitsOf unit)
include hd hi

theorem exec_flitRetry (hu : unit = 1 ∨ unit = 2) :
    exec (.flitRetry die unit index) s = .next (s.corrected die unit index) := by
  simp [exec, execFlitRetry, unitOk_of_lt hd hi, hu]

theorem exec_linkRetrain_fails (hu : unit = 1 ∨ unit = 2) :
    exec (.linkRetrain die unit index false) s =
      .next (if unit = 1 then (s.uncorrected die unit index).endAll 9 1 else s.uncorrected die unit index) := by
  have hn : ¬ (unit ≠ 1 ∧ unit ≠ 2) := by omega
  simp [exec, execLinkRetrain, unitOk_of_lt hd hi, hn]

theorem exec_linkRetrain_counts (hu : unit = 1 ∨ unit = 2) :
    ∃ t, exec (.linkRetrain die unit index false) s = .next t ∧ CountsLost s t die unit index ∧
      (unit = 1 → ∀ h ∈ t.hauls, h.retired = false → h.ended.isSome = true) := by
  refine ⟨_, exec_linkRetrain_fails hd hi hu, ?_, ?_⟩
  · split
    · exact State.uncorrected_counts (by rw [State.endAll_dev]) (State.endAll_mem ..)
    · exact State.uncorrected_counts rfl rfl
  · intro h1
    rw [if_pos h1]
    exact State.endAll_ends _ 9 1

theorem exec_uncorrectableError_memory {a : Nat} (hu : 4 ≤ unit) :
    if unitHolds die unit index a = true then
      ∃ t, exec (.uncorrectableError die unit index a) s = .next t ∧ CountsLost s t die unit index ∧
        Spoils s (codeword unit) a t
    else exec (.uncorrectableError die unit index a) s = .next s := by
  have h1 : unit ≠ 1 := by omega
  have h23 : ¬ (unit = 2 ∨ unit = 3) := by omega
  split
  · rename_i hh
    refine ⟨_, ?_, State.poison_counts s die unit index a, State.poison_spoils s die unit index a⟩
    simp [exec, execUncorrectableError, unitOk_of_lt hd hi, h1, h23, hh]
  · rename_i hh
    simp [exec, execUncorrectableError, hh]

theorem exec_uncorrectableError_access {a : Nat} (hu : unit = 2 ∨ unit = 3) :
    exec (.uncorrectableError die unit index a) s =
      .next ((s.uncorrected die unit index).failAccess (granule a)) := by
  have h1 : unit ≠ 1 := by omega
  have hh : unitHolds die unit index a = true := unitHolds_of_no_memory (by omega)
  simp [exec, execUncorrectableError, unitOk_of_lt hd hi, h1, hu, hh]

theorem exec_scrub_corrects {a : Nat} (hu : 4 ≤ unit) (hh : unitHolds die unit index a = true) :
    exec (.scrub die unit index a true) s = .next (s.corrected die unit index) := by
  have h4 : ¬ unit < 4 := by omega
  simp [exec, execScrub, unitOk_of_lt hd hi, h4, hh]

theorem exec_scrub_poisons {a : Nat} (hu : unit = 5 ∨ unit = 7 ∨ unit = 8)
    (hh : unitHolds die unit index a = true) :
    exec (.scrub die unit index a false) s = .next ((s.uncorrected die unit index).poison unit a) := by
  have h4 : ¬ unit < 4 := by omega
  have h46 : ¬ (unit = 4 ∨ unit = 6) := by omega
  simp [exec, execScrub, unitOk_of_lt hd hi, h4, h46, hh]

end steps

theorem exec_linkRetrain_ok : exec (.linkRetrain die unit index true) s = .next s := by
  simp [exec, execLinkRetrain]

/-- An SRAM pool and an L1 have no scrubber that finds what it cannot correct (R380). -/
theorem exec_scrub_no_scrubber {a : Nat} (hu : unit = 4 ∨ unit = 6) :
    exec (.scrub die unit index a false) s = .next s := by
  simp [exec, execScrub, hu]

theorem exec_scrub_elsewhere {a : Nat} {b : Bool} (hh : unitHolds die unit index a ≠ true) :
    exec (.scrub die unit index a b) s = .next s := by
  simp [exec, execScrub, hh]

/-- A failed access of a crossbar or a Coupler is counted, is lost in the next step, and fails the
loads of the coach in focus that wait for its granule. -/
theorem State.failAccess_fails (s : State) (d u i g : Nat) :
    let t := (s.uncorrected d u i).failAccess g
    CountsLost s t d u i ∧ t.dev.poison = s.dev.poison ∧ (g, s.fresh + 1) ∈ t.dev.lost ∧
      (s.co.present = true → (∃ x ∈ s.co.issue.deferred, x.needs g = true) →
        (∀ x ∈ t.co.issue.deferred, x.needs g = false) ∧ t.co.regs = s.co.regs) := by
  intro t
  have hdev : t.dev = _ := State.failAccess_dev ..
  refine ⟨State.uncorrected_counts (by rw [hdev]) (State.failAccess_mem ..), by rw [hdev]; rfl, ?_, ?_⟩
  · rw [hdev]
    exact List.mem_cons_self
  · intro hp hx
    have hco : t.co = s.co.failLoads g := State.failAccess_co (s := s.uncorrected d u i) hp hx
    rw [hco]
    exact ⟨Coach.failLoads_needs _ _, Coach.failLoads_regs _ _⟩

/-- Which addresses a unit of each kind holds. -/
theorem unitHolds_iff {a : Nat} (hd : die < 4) (hi : index < unitsOf unit) :
    unitHolds die unit index a = true ↔
      (unit = 4 → (homeScr (64 * die + index) 0 ≤ a ∧ a < homeScr (64 * die + index) 4194304) ∨
        (homeAcc (64 * die + index) 0 ≤ a ∧ a < homeAcc (64 * die + index) 0 + 2 ^ 52)) ∧
      (unit = 5 → homeQm (16 * die + index) 0 ≤ a ∧ a < homeQm (16 * die + index) 0 + 2 ^ 52) ∧
      (unit = 6 → isGlobal a = true) ∧
      (unit = 7 → a < devBytes ∧ groupOf a / 16 = die) ∧
      (unit = 8 → a < devBytes ∧ groupOf a / 8 = 2 * die + index) := by
  have hle := unit_le_of_lt_unitsOf hi
  obtain h | rfl | rfl | rfl | rfl | rfl :
      unit < 4 ∨ unit = 4 ∨ unit = 5 ∨ unit = 6 ∨ unit = 7 ∨ unit = 8 := by omega
  · refine iff_of_true (unitHolds_of_no_memory h) ⟨?_, ?_, ?_, ?_, ?_⟩ <;> intro e <;> omega
  · simpa using unitHolds_pool hd hi
  · simpa using unitHolds_quad
  · simp [unitHolds]
  · simpa using unitHolds_die
  · simpa using unitHolds_stack

/-- Settles O55: every error is counted for its unit; what it does beside that is `Spoils`,
`State.failAccess_fails` or `State.endAll_ends`. -/
theorem errorSteps : Obligations.ErrorSteps := by
  intro d u i s hd hi e fixed lost n spoilt
  refine ⟨?links, fun a => unitHolds_iff hd hi, ?memories, ?accesses, ?scrubber⟩
  case links =>
    intro hu
    exact ⟨⟨_, exec_flitRetry hd hi hu, s.corrected_counts d u i⟩, exec_linkRetrain_ok,
      exec_linkRetrain_counts hd hi hu⟩
  case memories => exact fun a hu => exec_uncorrectableError_memory hd hi hu
  case accesses =>
    intro a hu
    exact ⟨_, exec_uncorrectableError_access hd hi hu, s.failAccess_fails d u i (granule a)⟩
  case scrubber =>
    intro a hu
    split
    · rename_i hh
      exact ⟨⟨_, exec_scrub_corrects hd hi hu hh, s.corrected_counts d u i⟩, exec_scrub_no_scrubber,
        fun h => ⟨_, exec_scrub_poisons hd hi h hh, s.poison_counts d u i a, s.poison_spoils d u i a⟩⟩
    · exact fun b => exec_scrub_elsewhere ‹_›

end Sys2Proof.Machine
end

section
/-! # O52: TDONE's releases and the dispatch of tasks (R20, R44, R79 to R84, R320; logs 18, 79)

A translation changes nothing but memory and what follows a write (`State.Accesses`), so a port that
reaches a TCB before one reaches it after. With that a TCB's fields read back what was written. -/

namespace Sys2Proof.Machine
variable {s t : State}

/-! ## What reading through the tables leaves alone -/

/-- From s to t memory has been accessed: its bytes, the marks of pages in migration, the TLBs and
the poisoned granules may have changed, and nothing else. -/
def State.Accesses (s t : State) : Prop :=
  ∃ mem migrations tlb poison, t =
    { s with mem := mem, migrations := migrations, tlb := tlb, dev := { s.dev with poison := poison } }

namespace State.Accesses

theorem refl (s : State) : s.Accesses s := ⟨_, _, _, _, rfl⟩

theorem co (h : s.Accesses t) : t.co = s.co := by obtain ⟨_, _, _, _, rfl⟩ := h; rfl
theorem hauls (h : s.Accesses t) : t.hauls = s.hauls := by obtain ⟨_, _, _, _, rfl⟩ := h; rfl
theorem quads (h : s.Accesses t) : t.quads = s.quads := by obtain ⟨_, _, _, _, rfl⟩ := h; rfl
theorem vf (h : s.Accesses t) (n : Nat) : t.vf n = s.vf n := by obtain ⟨_, _, _, _, rfl⟩ := h; rfl
theorem cmxrow (h : s.Accesses t) : t.dev.cmxrow = s.dev.cmxrow := by obtain ⟨_, _, _, _, rfl⟩ := h; rfl

/-- The state that a call returned with a value. -/
theorem of_eq {α : Type} {r : State × α} {a : α} (e : r = (t, a)) (h : s.Accesses r.1) : s.Accesses t := by
  subst e
  exact h

theorem wr (h : s.Accesses t) (a : Nat) (b : List Byte) : s.Accesses (t.wr a b) := by
  obtain ⟨_, _, _, _, rfl⟩ := h
  exact ⟨_, _, _, _, rfl⟩

theorem keepArea (h : s.Accesses t) (haul rake : Nat) : s.Accesses (t.keepArea haul rake) := by
  obtain ⟨_, _, _, _, rfl⟩ := h
  exact ⟨_, _, _, _, rfl⟩

theorem tlbTake (h : s.Accesses t) (e : TlbEntry) : s.Accesses (t.tlbTake e) := by
  obtain ⟨_, _, _, _, rfl⟩ := h
  exact ⟨_, _, _, _, rfl⟩

theorem setEntryBit (h : s.Accesses t) (pa bit : Nat) : s.Accesses (t.setEntryBit pa bit) := by
  unfold State.setEntryBit
  dsimp only
  split
  · exact h
  · exact h.wr ..

theorem refusePort (h : s.Accesses t) (port a : Nat) : s.Accesses (t.refusePort port a) := by
  unfold State.refusePort
  split
  · exact h
  · exact h.wr ..

theorem walk2 (h : s.Accesses t) (port vf gpa : Nat) (l : List (Nat × Nat × Nat)) (table : Nat) :
    s.Accesses (Machine.walk2 port vf gpa l table t).1 := by
  induction l generalizing table t with
  | nil => exact h
  | cons a l ih =>
    unfold Machine.walk2
    grind [State.Accesses.refusePort, State.Accesses.setEntryBit]

theorem stage2 (h : s.Accesses t) (port vf gpa : Nat) : s.Accesses (t.stage2 port vf gpa).1 := by
  unfold State.stage2
  grind [State.Accesses.walk2]

theorem walk1 (h : s.Accesses t) (port vf va : Nat) (l : List (Nat × Nat × Nat)) (table : Nat) :
    s.Accesses (Machine.walk1 port vf va l table t).1 := by
  induction l generalizing table t with
  | nil => exact h
  | cons a l ih =>
    unfold Machine.walk1
    grind [State.Accesses.refusePort, State.Accesses.setEntryBit, State.Accesses.stage2]

theorem markDirty (h : s.Accesses t) (acc : Acc) (e : Dword) (pa pa2 : Nat) (s2 : Option (Dword × Nat)) :
    s.Accesses (t.markDirty acc e pa pa2 s2) := by
  unfold State.markDirty
  grind [State.Accesses.setEntryBit]

theorem frameOf (h : s.Accesses t) (x : Ctx) (acc : Acc) (va : Nat) (e : Dword) (bits : Nat) :
    s.Accesses (t.frameOf x acc va e bits).1 := by
  unfold State.frameOf
  grind [State.Accesses.stage2, State.Accesses.refusePort]

theorem coreTakes (h : s.Accesses t) (x : Ctx) (e : TlbEntry) : s.Accesses (t.coreTakes x e) := by
  unfold State.coreTakes
  split
  · exact h
  · exact h.tlbTake _

theorem resolve (h : s.Accesses t) (x : Ctx) (acc : Acc) (va : Nat) (e : Dword) (bits pa pa2 : Nat) :
    s.Accesses (t.resolve x acc va e bits pa pa2).1 := by
  unfold State.resolve
  grind [State.Accesses.frameOf, State.Accesses.coreTakes, State.Accesses.tlbTake, State.Accesses.markDirty]

theorem translateWalk (h : s.Accesses t) (x : Ctx) (acc : Acc) (va : Nat) :
    s.Accesses (t.translateWalk x acc va).1 := by
  unfold State.translateWalk
  grind [State.Accesses.walk1, State.Accesses.resolve]

theorem translateHit (h : s.Accesses t) (x : Ctx) (acc : Acc) (va : Nat) (e : TlbEntry) :
    s.Accesses (t.translateHit x acc va e).1 := by
  unfold State.translateHit
  grind [State.Accesses.refusePort, State.Accesses.frameOf, State.Accesses.markDirty]

theorem translate (h : s.Accesses t) (x : Ctx) (acc : Acc) (va : Nat) : s.Accesses (t.translate x acc va).1 := by
  unfold State.translate
  grind [State.Accesses.coreTakes, State.Accesses.translateHit, State.Accesses.translateWalk]

theorem readSpans (h : s.Accesses t) (x : Ctx) (l : List (Nat × Nat)) :
    s.Accesses (State.readSpans x l t).1 := by
  induction l generalizing t with
  | nil => exact h
  | cons a l ih =>
    unfold State.readSpans
    grind [State.Accesses.translate]

end State.Accesses

/-! ## Reading an image (R34) -/

/-- What a reader of an image may change: it accesses memory. -/
def Reader.OnlyAccesses (rd : Reader) : Prop :=
  ∀ ⦃s t : State⦄ (a n : Nat), s.Accesses t → s.Accesses (rd t a n).1

theorem launchReader_accesses (x : Ctx) : (launchReader x).OnlyAccesses := by
  intro s t a n h
  unfold launchReader State.readVa
  grind [State.Accesses.readSpans]

section reader
variable {rd : Reader} (hr : rd.OnlyAccesses)
include hr

theorem imageReads_accesses (l : List (Nat × Nat)) (h : s.Accesses t) : s.Accesses (imageReads rd l t).1 := by
  induction l generalizing t with
  | nil => exact h
  | cons p l ih =>
    have hp := hr p.1 p.2 h
    unfold imageReads
    split
    · exact .of_eq ‹_› hp
    · have hl := ih (.of_eq ‹_› hp)
      split
      · exact .of_eq ‹_› hl
      · exact hl

theorem softReads_accesses (l : List (Nat × Nat)) (h : s.Accesses t) : s.Accesses (softReads rd l t).1 := by
  induction l generalizing t with
  | nil => exact h
  | cons p l ih => exact ih (hr _ _ h)

theorem readAside_accesses (hd : Header) (records : Nat) (recs : List (List Byte)) (h : s.Accesses t) :
    s.Accesses (t.readAside rd hd records recs).1 :=
  softReads_accesses hr _ h

theorem readRake_accesses (hd : Header) (a : Nat) (h : s.Accesses t) : s.Accesses (t.readRake rd hd a).1 := by
  have hrec := hr a 192 h
  unfold State.readRake
  split
  · exact .of_eq ‹_› hrec
  · have hcs := fun l => imageReads_accesses hr l (.of_eq ‹_› hrec)
    split
    · exact .of_eq ‹_› hrec
    · split
      · exact .of_eq ‹_› (hcs _)
      · have hdata := fun l => imageReads_accesses hr l (.of_eq ‹_› (hcs _))
        split
        · exact .of_eq ‹_› (hcs _)
        · dsimp only
          split
          · exact .of_eq ‹_› (hdata _)
          · exact readAside_accesses hr _ _ _ (.of_eq ‹_› (hdata _))

theorem readRakes_accesses (hd : Header) (l : List Nat) (h : s.Accesses t) :
    s.Accesses (State.readRakes rd hd l t).1 := by
  induction l generalizing t with
  | nil => exact h
  | cons a l ih =>
    unfold State.readRakes
    grind [readRake_accesses]

theorem readLifts_accesses (hd : Header) (h : s.Accesses t) : s.Accesses (t.readLifts rd hd).1 := by
  unfold State.readLifts
  grind [Reader.OnlyAccesses]

theorem readImage_accesses (a : Nat) (h : s.Accesses t) : s.Accesses (t.readImage rd a).1 := by
  unfold State.readImage
  grind [Reader.OnlyAccesses, readLifts_accesses, readRakes_accesses]

end reader

/-! ## What a port reaches (R357) -/

/-- Whether a port reaches a home is a matter of its row, the quads and what the VFs own. -/
theorem State.portSees_congr (hc : t.dev.cmxrow = s.dev.cmxrow) (hq : t.quads = s.quads)
    (hv : ∀ n, (t.vf n).memp = (s.vf n).memp) (port a : Nat) : t.portSees port a = s.portSees port a := by
  simp only [State.portSees, State.portAllows, State.quad, hc, hq, hv]

theorem State.Accesses.portSees (h : s.Accesses t) (port a : Nat) : t.portSees port a = s.portSees port a :=
  State.portSees_congr h.cmxrow h.quads (fun n => by rw [h.vf]) port a

theorem State.portSees_of_le {port a : Nat} (h : homeSpan ≤ a) : s.portSees port a = true := by
  simp [State.portSees, h]

theorem State.portSees_of_not_refused {port a : Nat} (h : ¬ (!s.portAllows port a) = true) :
    s.portSees port a = true := by
  simp only [Bool.not_eq_true', Bool.not_eq_false] at h
  simp [State.portSees, h]

/-- The home that a leaf leads to is one that the requester's port reaches. -/
theorem State.frameOf_portSees {x : Ctx} {acc : Acc} {va : Nat} {e : Dword} {bits home : Nat}
    {s2 : Option (Dword × Nat × Nat)} (h : s.frameOf x acc va e bits = (t, .ok (home, s2))) :
    t.portSees x.port home = true := by
  have hhost (pasid a : Nat) : homeSpan ≤ homeHost pasid a := by unfold homeHost homeSpan; omega
  have hpod (d a : Nat) : homeSpan ≤ homePod d a := by unfold homePod homeSpan; omega
  unfold State.frameOf at h
  dsimp only at h
  split at h
  case h_1 =>
    split at h
    · cases h
      exact State.portSees_of_le (hhost ..)
    · cases h
  case h_2 =>
    cases h
    exact State.portSees_of_le (hpod ..)
  case h_3 =>
    split at h
    · cases h
    · split at h
      · cases h
      · split at h
        · cases h
        · split at h
          · cases h
          · cases h
            exact State.portSees_of_not_refused ‹_›

theorem walk2_ne_found {port vf gpa : Nat} {l : List (Nat × Nat × Nat)} {table home b : Nat} {e : Dword} :
    (walk2 port vf gpa l table s).2 ≠ .error (.found home e b) := by
  induction l generalizing table s with
  | nil => simp [walk2]
  | cons a l ih =>
    unfold walk2
    grind

theorem State.stage2_ne_found {port vf gpa home b : Nat} {e : Dword} :
    (s.stage2 port vf gpa).2 ≠ .error (.found home e b) := by
  unfold State.stage2
  grind [walk2_ne_found]

theorem walk1_ne_found {port vf va : Nat} {l : List (Nat × Nat × Nat)} {table home b : Nat} {e : Dword} :
    (walk1 port vf va l table s).2 ≠ .error (.found home e b) := by
  induction l generalizing table s with
  | nil => simp [walk1]
  | cons a l ih =>
    unfold walk1
    grind [State.stage2_ne_found]

/-- A frame that is refused is not found. -/
theorem State.frameOf_ne_found {x : Ctx} {acc : Acc} {va : Nat} {e l : Dword} {bits home b : Nat} :
    (s.frameOf x acc va e bits).2 ≠ .error (.found home l b) := by
  unfold State.frameOf
  grind [State.stage2_ne_found]

theorem State.resolve_portSees {x : Ctx} {acc : Acc} {va : Nat} {e l : Dword} {bits pa pa2 home b : Nat}
    (h : s.resolve x acc va e bits pa pa2 = (t, .found home l b)) : t.portSees x.port home = true := by
  unfold State.resolve at h
  split at h
  · rename_i u r hf
    cases h
    exact absurd (congrArg Prod.snd hf) State.frameOf_ne_found
  · rename_i u home' s2 hf
    have hu := State.frameOf_portSees hf
    dsimp only at h
    split at h
    · cases h
    · cases h
      exact (((((State.Accesses.refl u).markDirty ..).tlbTake _).coreTakes x _).portSees ..).trans hu

theorem State.translateWalk_portSees {x : Ctx} {acc : Acc} {va home b : Nat} {l : Dword}
    (h : s.translateWalk x acc va = (t, .found home l b)) : t.portSees x.port home = true := by
  unfold State.translateWalk at h
  split at h
  · rename_i hw
    cases h
    exact absurd (congrArg Prod.snd hw) walk1_ne_found
  · split at h
    · cases h
    · split at h
      · split at h <;> cases h
      · exact State.resolve_portSees h

theorem State.translateHit_portSees {x : Ctx} {acc : Acc} {va home b : Nat} {l : Dword} {e : TlbEntry}
    (h : s.translateHit x acc va e = (t, .found home l b)) : t.portSees x.port home = true := by
  unfold State.translateHit at h
  split at h
  · cases h
  · split at h
    · dsimp only at h
      split at h
      · cases h
      · split at h
        · cases h
        · split at h
          · cases h
          · cases h
            exact State.portSees_of_not_refused ‹_›
    · split at h
      · rename_i hf
        cases h
        exact absurd (congrArg Prod.snd hf) State.frameOf_ne_found
      · rename_i u home' s2 hf
        have hu := State.frameOf_portSees hf
        split at h
        · cases h
        · cases h
          exact (((State.Accesses.refl u).markDirty ..).portSees ..).trans hu

/-- The home that a translation finds is one that the requester's port reaches (R357). -/
theorem State.translate_portSees {x : Ctx} {acc : Acc} {va home b : Nat} {l : Dword}
    (h : s.translate x acc va = (t, .found home l b)) : t.portSees x.port home = true := by
  unfold State.translate at h
  split at h
  · cases h
  · split at h
    · split at h
      · cases h
      · split at h
        · cases h
        · obtain ⟨-, hx⟩ := Prod.mk.inj h
          rw [← (Xl.found.inj hx).1]
          exact State.portSees_of_le (Nat.le_add_right ..)
    · split at h
      · exact State.translateHit_portSees h
      · exact State.translateWalk_portSees h

/-! ## Numbers in memory -/

theorem leNat_leBytes (n x : Nat) : leNat (leBytes n x) = x % 256 ^ n := by
  induction n generalizing x with
  | zero => simp [leBytes, leNat, Nat.mod_one]
  | succ n ih =>
    have hx : (BitVec.ofNat 8 x).toNat = x % 256 := by simp
    rw [leBytes, leNat, ih, hx, Nat.pow_succ', Nat.mod_mul]

theorem leBytes_length (n x : Nat) : (leBytes n x).length = n := by
  induction n generalizing x with
  | zero => rfl
  | succ n ih => simp [leBytes, ih]

theorem leNat_lt (b : List Byte) : leNat b < 256 ^ b.length := by
  induction b with
  | nil => simp [leNat]
  | cons x b ih =>
    have hx : x.toNat < 256 := x.isLt
    rw [leNat, List.length_cons, Nat.pow_succ']
    omega

theorem State.rdNat_lt (s : State) (a n : Nat) : s.rdNat a n < 256 ^ n := by
  simpa [State.rdNat, State.rd, Memory.getAll_length] using leNat_lt (s.rd a n)

/-- The bytes of a range are those at its addresses. -/
theorem Memory.getAll_congr {m m' : List Host.Cell} {a n : Nat}
    (h : ∀ i < n, Memory.get m (a + i) = Memory.get m' (a + i)) : Memory.getAll m a n = Memory.getAll m' a n := by
  refine List.ext_getElem? fun i => ?_
  by_cases hi : i < n
  · rw [Memory.getAll_getElem? _ _ _ _ hi, Memory.getAll_getElem? _ _ _ _ hi, h i hi]
  · rw [List.getElem?_eq_none (by rw [Memory.getAll_length]; omega),
      List.getElem?_eq_none (by rw [Memory.getAll_length]; omega)]

theorem State.rd_wr_same (hm : Memory.wf s.mem = true) (a : Nat) (b : List Byte) :
    (s.wr a b).rd a b.length = b := by
  refine List.ext_getElem? fun i => ?_
  by_cases hi : i < b.length
  · have hr : a ≤ a + i ∧ a + i < a + b.length := by omega
    rw [State.rd, Memory.getAll_getElem? _ _ _ _ hi, State.wr, Memory.get_putAll _ _ _ hm, if_pos hr]
    simp [hi]
  · rw [List.getElem?_eq_none (by rw [State.rd, Memory.getAll_length]; omega),
      List.getElem?_eq_none (by omega)]

theorem State.rd_wr_of_disjoint (hm : Memory.wf s.mem = true) {a c n : Nat} {b : List Byte}
    (h : c + n ≤ a ∨ a + b.length ≤ c) : (s.wr a b).rd c n = s.rd c n := by
  refine Memory.getAll_congr fun i hi => ?_
  rw [State.wr, Memory.get_putAll _ _ _ hm, if_neg (by omega)]

theorem State.rdNat_wr_same (hm : Memory.wf s.mem = true) (a n v : Nat) :
    (s.wr a (leBytes n v)).rdNat a n = v % 256 ^ n := by
  have h := State.rd_wr_same hm a (leBytes n v)
  rw [leBytes_length] at h
  rw [State.rdNat, h, leNat_leBytes]

theorem State.rdNat_wr_of_disjoint (hm : Memory.wf s.mem = true) {a n v c k : Nat}
    (h : c + k ≤ a ∨ a + n ≤ c) : (s.wr a (leBytes n v)).rdNat c k = s.rdNat c k := by
  rw [State.rdNat, State.rd_wr_of_disjoint hm (by rwa [leBytes_length]), State.rdNat]

/-! ## The fields of a TCB in memory of the device (R43) -/

/-- A TCB whose bytes lie at a home that is not the host's. -/
def OffHost (p : Nat) : Prop := ∀ x, x < 64 → isHost (p + x) = false

theorem State.peekNat_eq_rdNat {p x : Nat} (ho : OffHost p) (hx : x < 64) (n : Nat) :
    s.peekNat (p + x) n = s.rdNat (p + x) n := by
  simp [State.peekNat, State.peek, ho x hx, State.rdNat]

theorem State.tstatus_eq {p : Nat} (ho : OffHost p) : s.tstatus p = s.rdNat p 1 :=
  State.peekNat_eq_rdNat (x := 0) ho (by omega) 1

theorem State.tpred_eq {p : Nat} (ho : OffHost p) : s.tpred p = s.rdNat (p + 4) 4 :=
  State.peekNat_eq_rdNat ho (by omega) 4

/-- Where the writer's port reaches the TCB, a field put is bytes written. -/
theorem State.tcbPut_eq {x : Ctx} {p off : Nat} (hp : s.portSees x.port p = true) (ho : OffHost p)
    (hx : off < 64) (n v : Nat) : s.tcbPut x p off n v = s.wr (p + off) (leBytes n v) := by
  simp [State.tcbPut, State.atPort, hp, State.poke, ho off hx]

theorem State.tcbPut_accesses {x : Ctx} {p off : Nat} (hp : s.portSees x.port p = true) (ho : OffHost p)
    (hx : off < 64) (n v : Nat) : s.Accesses (s.tcbPut x p off n v) := by
  rw [State.tcbPut_eq hp ho hx]
  exact (State.Accesses.refl s).wr ..

theorem State.rdNat_tcbPut_same (hm : Memory.wf s.mem = true) {x : Ctx} {p off : Nat}
    (hp : s.portSees x.port p = true) (ho : OffHost p) (hx : off < 64) (n v : Nat) :
    (s.tcbPut x p off n v).rdNat (p + off) n = v % 256 ^ n := by
  rw [State.tcbPut_eq hp ho hx, State.rdNat_wr_same hm]

theorem State.rdNat_tcbPut_of_disjoint (hm : Memory.wf s.mem = true) {x : Ctx} {p off n v c k : Nat}
    (hp : s.portSees x.port p = true) (ho : OffHost p) (hx : off < 64)
    (h : c + k ≤ p + off ∨ p + off + n ≤ c) : (s.tcbPut x p off n v).rdNat c k = s.rdNat c k := by
  rw [State.tcbPut_eq hp ho hx, State.rdNat_wr_of_disjoint hm h]

/-! ## Held tasks and ready lists (R79, R320) -/

theorem State.vf_modVf (s : State) (n : Nat) (f : Vf → Vf) (k : Nat) :
    (s.modVf n f).vf k = if k = n then f (s.vf n) else s.vf k := by
  by_cases h : k = n
  · subst h
    simp [State.vf, State.modVf, tget_tset]
  · simp [State.vf, State.modVf, tget_tset, h]

/-- Changing what a VF holds of tasks moves no port's reach. -/
theorem State.portSees_modVf {n : Nat} {f : Vf → Vf} (hf : ∀ v, (f v).memp = v.memp) (port a : Nat) :
    (s.modVf n f).portSees port a = s.portSees port a := by
  refine State.portSees_congr (s := s) (t := s.modVf n f) rfl rfl (fun k => ?_) port a
  rw [State.vf_modVf]
  split
  · rw [hf, ‹k = n›]
  · rfl

theorem State.held?_tcb {vf p : Nat} {h : Held} (hh : s.held? vf p = some h) : h.tcb = p := by
  simpa using List.find?_some hh

theorem State.held?_unhold (s : State) (vf p : Nat) : (s.unhold vf p).held? vf p = none := by
  rw [State.held?, State.unhold, State.vf_modVf, if_pos rfl, List.find?_eq_none]
  intro h hh
  simpa using (List.mem_filter.mp hh).2

theorem State.not_mem_ready_unhold (s : State) (vf p k : Nat) : (p, k) ∉ ((s.unhold vf p).vf vf).ready := by
  rw [State.unhold, State.vf_modVf, if_pos rfl]
  intro hk
  simpa using (List.mem_filter.mp hk).2

theorem State.held?_hold (s : State) (vf : Nat) (h : Held) : ((s.hold vf h).held? vf h.tcb).isSome = true := by
  unfold State.hold
  split
  · assumption
  · rw [State.held?, State.vf_modVf, if_pos rfl, List.find?_isSome]
    exact ⟨h, List.mem_append_right _ List.mem_cons_self, beq_self_eq_true _⟩

theorem State.portSees_hold (s : State) (vf : Nat) (h : Held) (port a : Nat) :
    (s.hold vf h).portSees port a = s.portSees port a := by
  unfold State.hold
  split
  · rfl
  · exact State.portSees_modVf (f := fun v => { v with tasks := v.tasks ++ [h] }) (fun _ => rfl) port a

theorem mem_joinReady (l : List (Nat × Nat)) (p prio : Nat) : (p, prio) ∈ joinReady l p prio :=
  List.mem_append_right _ List.mem_cons_self

/-- A task made ready stands on its VF's ready list, still held, with STATUS READY. -/
theorem State.makeReady_ready (hm : Memory.wf s.mem = true) {vf : Nat} {x : Ctx} {p : Nat}
    (hp : s.portSees x.port p = true) (ho : OffHost p) :
    let u := s.makeReady vf x p
    (∃ k, (p, k) ∈ (u.vf vf).ready) ∧ u.held? vf p = s.held? vf p ∧ u.rdNat p 1 = 1 ∧
      u.rdNat (p + 4) 4 = s.rdNat (p + 4) 4 := by
  have hacc : s.Accesses (s.tcbPut x p 0 1 tReady) := State.tcbPut_accesses hp ho (by omega) ..
  refine ⟨⟨s.taskPrio x p, ?_⟩, ?_, ?_, ?_⟩
  · rw [State.makeReady, State.vf_modVf, if_pos rfl]
    exact mem_joinReady ..
  · rw [State.makeReady, State.held?, State.vf_modVf, if_pos rfl, State.held?, hacc.vf]
  · exact State.rdNat_tcbPut_same hm hp ho (off := 0) (by omega) 1 tReady
  · exact State.rdNat_tcbPut_of_disjoint hm hp ho (by omega) (by omega)

/-! ## A release (R80, R81) -/

/-- A waiting successor with several predecessors left has one fewer. -/
theorem State.releaseStep_counts {h : Haul} {quad va p : Nat} {l : Dword} {b : Nat} (ha : va % 64 = 0)
    (hx : s.translate (s.releaseCtx h quad) .store va = (t, .found p l b)) (hc : t.poisoned p 64 = false)
    (hst : t.tstatus p = 0) (hn : 1 < t.tpred p) :
    s.releaseStep h quad va = (t.tcbPut (s.releaseCtx h quad) p 4 4 (t.tpred p - 1), 2, t.tpred p - 1) := by
  simp [State.releaseStep, ha, hx, hc, hst, hn, tWaiting]

/-- How a task that nobody spawned is held as its releaser makes it ready (log 18). -/
def Haul.holdFor (h : Haul) (p va : Nat) : Held :=
  { tcb := p, pasid := h.pasid, asid := h.asid, ptroot := h.ptroot, vaddr := va, spec := false, committed := false }

/-- The address space that a held task runs in; of one that is not held, its releaser's (R79; log 18). -/
def State.readyCtx (s : State) (h : Haul) (p : Nat) : Ctx :=
  match s.held? h.vf p with
  | some r => s.heldCtx h.vf r
  | none => s.haulCtx h

/-- One that waits for the last predecessor alone is held and made ready. -/
theorem State.releaseStep_readies {h : Haul} {quad va p : Nat} {l : Dword} {b : Nat} (ha : va % 64 = 0)
    (hx : s.translate (s.releaseCtx h quad) .store va = (t, .found p l b)) (hc : t.poisoned p 64 = false)
    (hst : t.tstatus p = 0) (hn : t.tpred p = 1) :
    let u := (t.tcbPut (s.releaseCtx h quad) p 4 4 0).hold h.vf (h.holdFor p va)
    s.releaseStep h quad va = (u.makeReady h.vf { u.readyCtx h p with port := quad } p, 3, 0) := by
  simp [State.releaseStep, ha, hx, hc, hst, hn, tWaiting, tRunning]
  rfl

/-- One that neither waits nor runs is passed by. -/
theorem State.releaseStep_passes {h : Haul} {quad va p : Nat} {l : Dword} {b : Nat} (ha : va % 64 = 0)
    (hx : s.translate (s.releaseCtx h quad) .store va = (t, .found p l b)) (hc : t.poisoned p 64 = false)
    (h0 : t.tstatus p ≠ 0) (h2 : t.tstatus p ≠ 2) : s.releaseStep h quad va = (t, 4, 0) := by
  simp [State.releaseStep, ha, hx, hc, h0, h2, tWaiting, tRunning]

theorem Quad.post_records (q : Quad) (e : EventRec) :
    (q.post e).events ++ (q.post e).held = q.events ++ q.held ++ [e] := by
  unfold Quad.post
  generalize hq : ({ q with idleFrom := none, power := if q.power = Power.idle then Power.on else q.power } : Quad) = k
  have hev : k.events = q.events := by rw [← hq]
  have hhe : k.held = q.held := by rw [← hq]
  rw [← hev, ← hhe]
  dsimp only
  split
  · rename_i hr
    have hh : k.held = [] := by
      simp only [Quad.eventRoom, Bool.and_eq_true, List.isEmpty_iff] at hr
      exact hr.1
    simp [hh]
  · simp

/-- The event record of one successor's release: KIND and COUNT as the step gives them (R81, R82). -/
def releaseRecord (src : Byte) (va : Nat) (q : State × Nat × Nat) : EventRec where
  kind := BitVec.ofNat 8 q.2.1
  status := 0
  src := src
  chan := 0
  count := BitVec.ofNat 32 q.2.2
  addr := BitVec.ofNat 64 va

/-- From x to y one successor is released, its event record posted to the releasing quad (R81, R82). -/
def ReleasesOne (h : Haul) (quad : Nat) (src : Byte) (x : State) (va : Nat) (y : State) : Prop :=
  let q := x.releaseStep h quad va
  ∃ e : EventRec, e.kind = BitVec.ofNat 8 q.2.1 ∧ e.count = BitVec.ofNat 32 q.2.2 ∧ e.addr = BitVec.ofNat 64 va ∧
    e.src = src ∧ y = { q.1 with quads := y.quads } ∧
    (y.quad quad).events ++ (y.quad quad).held = (q.1.quad quad).events ++ (q.1.quad quad).held ++ [e]

theorem State.quad_modQuad_same (s : State) (n : Nat) (f : Quad → Quad) : (s.modQuad n f).quad n = f (s.quad n) := by
  simp [State.quad, State.modQuad, tget_tset]

theorem State.releaseEach_chain (h : Haul) (quad : Nat) (src : Byte) (l : List Nat) :
    Chain (ReleasesOne h quad src) l s (State.releaseEach h quad src l s) := by
  induction l generalizing s with
  | nil => rfl
  | cons va l ih =>
    refine ⟨_, ⟨releaseRecord src va (s.releaseStep h quad va), rfl, rfl, rfl, rfl, rfl, ?_⟩, ih⟩
    rw [State.quad_modQuad_same]
    exact Quad.post_records ..

/-- A haul marked as having released. -/
def Haul.release (h : Haul) : Haul := { h with released := true, heldRelease := false }

section release
variable {h : Haul} {quad : Nat} {src : Byte} {p : Nat}

theorem State.releaseTask_done (hd : h.tcb = none ∨ h.released = true) : s.releaseTask h quad src = s := by
  unfold State.releaseTask
  split
  · rfl
  · rename_i hs
    have hr : h.released = true := hd.resolve_left (by simp [hs])
    rw [if_pos hr]

theorem State.releaseTask_speculative (ht : h.tcb = some p) (hr : h.released = false) (hs : h.spec = true)
    (hc : h.committed = false) :
    s.releaseTask h quad src = s.modHaul h.id fun h => { h with heldRelease := true } := by
  simp [State.releaseTask, ht, hr, hs, hc]

variable (ht : h.tcb = some p) (hr : h.released = false) (hs : h.spec = false ∨ h.committed = true)
include ht hr hs

/-- A TCB that the quad's port does not reach: the release is done, and no successor is stepped. -/
theorem State.releaseTask_unseen (hp : (s.modHaul h.id Haul.release).portSees quad p = false) (hq : quad < 64) :
    s.releaseTask h quad src = s.modHaul h.id Haul.release := by
  have hsc : ¬ (h.spec = true ∧ h.committed = false) := by grind
  unfold Haul.release at hp ⊢
  simp [State.releaseTask, ht, hr, hsc, hp, State.refusePort, hq]

theorem State.releaseTask_each {w : State} {b : List Byte}
    (hp : (s.modHaul h.id Haul.release).portSees quad p = true) :
    let v := s.modHaul h.id Haul.release
    v.readVa (v.releaseCtx h quad) (v.peekNat (p + 8) 8) (8 * v.peekNat (p + 0x10) 4) = (w, .ok b) →
    s.releaseTask h quad src = State.releaseEach h quad src (dwordsOf (v.peekNat (p + 0x10) 4) b) w := by
  intro v hv
  have hsc : ¬ (h.spec = true ∧ h.committed = false) := by grind
  have hv' : v = s.modHaul h.id fun h => { h with released := true, heldRelease := false } := rfl
  rw [hv'] at hv ⊢
  unfold Haul.release at hp
  simp [State.releaseTask, ht, hr, hsc, hp, hv]

end release

/-- A task whose last predecessor is gone is READY, held and on the ready list. -/
theorem State.makeReady_hold (hm : Memory.wf s.mem = true) {x : Ctx} {h : Haul} {va p : Nat}
    (hp : s.portSees x.port p = true) (ho : OffHost p) {y : Ctx} (hy : y.port = x.port) :
    let u := ((s.tcbPut x p 4 4 0).hold h.vf (h.holdFor p va)).makeReady h.vf y p
    u.rdNat (p + 4) 4 = 0 ∧ u.rdNat p 1 = 1 ∧ (∃ k, (p, k) ∈ (u.vf h.vf).ready) ∧
      (u.held? h.vf p).isSome = true := by
  generalize hw : (s.tcbPut x p 4 4 0).hold h.vf (h.holdFor p va) = w
  have hmem : w.mem = (s.tcbPut x p 4 4 0).mem := by rw [← hw, State.hold_mem]
  have hmw : Memory.wf w.mem = true := by
    rw [hmem]
    exact State.tcbPut_wf _ _ _ _ _ hm
  have hpw : w.portSees y.port p = true := by
    rw [← hw, State.portSees_hold, hy, (State.tcbPut_accesses hp ho (by omega) 4 0).portSees, hp]
  obtain ⟨hready, hheld, hstat, hpred⟩ := State.makeReady_ready hmw (vf := h.vf) hpw ho
  refine ⟨?_, hstat, hready, ?_⟩
  · rw [hpred, State.rdNat, State.rd, hmem]
    exact State.rdNat_tcbPut_same hm hp ho (by omega) 4 0
  · rw [hheld, ← hw]
    exact State.held?_hold _ _ (h.holdFor p va)

/-- What a release makes of a TCB that it reaches (R81). -/
theorem State.releaseStep_reached (hm : Memory.wf s.mem = true) {h : Haul} {quad va p : Nat} {l : Dword} {b : Nat}
    (ha : va % 64 = 0) (hx : s.translate (s.releaseCtx h quad) .store va = (t, .found p l b))
    (hc : t.poisoned p 64 = false) (ho : OffHost p) :
    let q := s.releaseStep h quad va
    let n := t.rdNat (p + 4) 4
    (t.rdNat p 1 = 0 → 1 < n → q.2 = (2, n - 1) ∧ q.1.rdNat (p + 4) 4 = n - 1 ∧ q.1.rdNat p 1 = 0) ∧
    (t.rdNat p 1 = 0 → n = 1 → q.2 = (3, 0) ∧ q.1.rdNat (p + 4) 4 = 0 ∧ q.1.rdNat p 1 = 1 ∧
      (∃ k, (p, k) ∈ (q.1.vf h.vf).ready) ∧ (q.1.held? h.vf p).isSome = true) ∧
    (t.rdNat p 1 = 1 ∨ 3 ≤ t.rdNat p 1 → q = (t, 4, 0)) := by
  intro q n
  have hmt : Memory.wf t.mem = true := wf_of_eq hx (State.translate_wf _ _ _ hm)
  have hp : t.portSees (s.releaseCtx h quad).port p = true := State.translate_portSees hx
  have hst : t.tstatus p = t.rdNat p 1 := State.tstatus_eq ho
  have hn : t.tpred p = n := State.tpred_eq ho
  refine ⟨?counts, ?readies, ?passes⟩
  case counts =>
    intro h0 h1
    have hlt : n - 1 < 256 ^ 4 := lt_of_le_of_lt (Nat.sub_le ..) (State.rdNat_lt ..)
    have hq : q = _ := State.releaseStep_counts ha hx hc (hst.trans h0) (hn ▸ h1)
    rw [hq, hn]
    refine ⟨rfl, ?_, ?_⟩
    · rw [State.rdNat_tcbPut_same hmt hp ho (by omega), Nat.mod_eq_of_lt hlt]
    · rw [State.rdNat_tcbPut_of_disjoint hmt hp ho (by omega) (by omega), h0]
  case readies =>
    intro h0 h1
    have hq : q = _ := State.releaseStep_readies ha hx hc (hst.trans h0) (hn.trans h1)
    obtain ⟨hpred, hstat, hready, hheld⟩ := State.makeReady_hold hmt hp ho (h := h) (va := va)
      (y := { State.readyCtx _ h p with port := quad }) rfl
    rw [hq]
    exact ⟨rfl, hpred, hstat, hready, hheld⟩
  case passes =>
    intro h13
    exact State.releaseStep_passes ha hx hc (by omega) (by omega)

/-! ## TDONE (R80, R83, R320) -/

/-- What each step of a fold leaves alone, the fold does. -/
theorem foldl_frame {α β : Type} {f : State → α → State} {g : State → β}
    (hf : ∀ s a, g (f s a) = g s) (l : List α) (s : State) : g (l.foldl f s) = g s := by
  induction l generalizing s with
  | nil => rfl
  | cons a l ih => rw [List.foldl_cons, ih, hf]

@[simp] theorem State.wrHostCopy_co (s : State) (o : Nat × BitVec 16) (a : Nat) (b : List Byte) :
    (s.wrHostCopy o a b).co = s.co := by
  unfold State.wrHostCopy State.healed
  refine foldl_frame (g := State.co) ?_ _ s
  exact fun _ _ => rfl

@[simp] theorem State.wrHostCopy_hauls (s : State) (o : Nat × BitVec 16) (a : Nat) (b : List Byte) :
    (s.wrHostCopy o a b).hauls = s.hauls := by
  unfold State.wrHostCopy State.healed
  refine foldl_frame (g := State.hauls) ?_ _ s
  exact fun _ _ => rfl

theorem State.arrive_co (s : State) (a : Nat) (b : List Byte) : (s.arrive a b).co = s.co := by
  unfold State.arrive
  split
  · exact State.wrHostCopy_co ..
  · rfl

theorem State.arrive_hauls (s : State) (a : Nat) (b : List Byte) : (s.arrive a b).hauls = s.hauls := by
  unfold State.arrive
  split
  · exact State.wrHostCopy_hauls ..
  · rfl

theorem State.carryEnd_ident (s : State) (e : WEntry) : (s.carryEnd e).co.ident = s.co.ident :=
  (congrArg Coach.ident (s.arrive_co e.addr e.bytes) : (s.arrive e.addr e.bytes).co.ident = s.co.ident)

theorem State.carryEnd_hauls (s : State) (e : WEntry) : (s.carryEnd e).hauls = s.hauls :=
  s.arrive_hauls e.addr e.bytes

theorem State.carryCore_ident (s : State) (e : WEntry) : (s.carryCore e).co.ident = s.co.ident := by
  unfold State.carryCore
  split <;> rfl

theorem State.carryCore_hauls (s : State) (e : WEntry) : (s.carryCore e).hauls = s.hauls := by
  unfold State.carryCore
  split <;> rfl

theorem State.publish_ident (s : State) (scope : Nat) : (s.publish scope).co.ident = s.co.ident := by
  unfold State.publish
  refine foldl_frame (g := fun t => t.co.ident) (fun s e => ?_) _ s
  split
  · rfl
  · exact s.carryCore_ident e
  · exact s.carryEnd_ident e

theorem State.publish_hauls (s : State) (scope : Nat) : (s.publish scope).hauls = s.hauls := by
  unfold State.publish
  refine foldl_frame (g := State.hauls) (fun s e => ?_) _ s
  split
  · rfl
  · exact s.carryCore_hauls e
  · exact s.carryEnd_hauls e

theorem State.publish_haul? (s : State) (scope : Nat) :
    (s.publish scope).haul? (s.publish scope).co.ident.haul = s.haul? s.co.ident.haul := by
  rw [State.haul?, s.publish_hauls, s.publish_ident, State.haul?]

/-- What TDONE does once its publish is made: nothing without a haul; otherwise the task's release,
with which the run ends where a record of the coach is held. -/
theorem exec_tdone (m : Bool) (s : State) :
    let u := s.publish 4
    ∃ r : State, exec (.tdone m) s = .next (r.finishWord m) ∧
      (s.haul? s.co.ident.haul = none → r = u) ∧
      ∀ h w, s.haul? s.co.ident.haul = some h → u.releaseTask h (s.co.ident.core / 4) s.co.src = w →
        if w.holdsEvent w.co then EndsRun w r .tdone else r = w := by
  have hu := s.publish_haul? 4
  have hi : (s.publish 4).co.ident = s.co.ident := s.publish_ident 4
  refine ⟨_, rfl, ?_, ?_⟩
  · intro hn
    dsimp only
    rw [hu, hn]
  · rintro h _ hh rfl
    dsimp only
    rw [hu, hh]
    simp only [Coach.src, hi]
    split
    · rfl
    · rfl

/-! ## Accepting a task's image (R34, R79, R318) -/

/-- A haul without its saved rakes, whose barriers an acceptance may complete. -/
def Haul.bare (h : Haul) : Haul := { h with saved := [] }

/-- From s to t barrier generations have completed: coaches have their PDONE bits set, resident ones
and those saved out, and nothing else changes (R317, R318). -/
structure State.Completes (s t : State) : Prop where
  co : t.co = { s.co with pdone := t.co.pdone }
  hauls : t.hauls.map Haul.bare = s.hauls.map Haul.bare
  vfs : t.vfs = s.vfs
  quads : t.quads = s.quads
  dev : t.dev = s.dev

theorem State.Completes.refl (s : State) : s.Completes s := ⟨rfl, rfl, rfl, rfl, rfl⟩

theorem State.Completes.completeBarrier (hc : s.Completes t) (h : Haul) (x : BitVec 3) (c : Coach) :
    s.Completes (t.completeBarrier h x c) := by
  have hco : (t.completeBarrier h x c).co =
      if h.takesPart x c t.co then { t.co with pdone := t.co.pdone ||| scopeBit x } else t.co := rfl
  refine ⟨?_, ?_, hc.vfs, hc.quads, hc.dev⟩
  · rw [hco]
    split
    · rw [hc.co]
    · exact hc.co
  · rw [← hc.hauls, State.completeBarrier, State.modHaul, List.map_map]
    refine List.map_congr_left fun k _ => ?_
    dsimp only [Function.comp]
    split <;> rfl

theorem State.Completes.completeSaved (hc : s.Completes t) (haul : Nat) : s.Completes (t.completeSaved haul) := by
  unfold State.completeSaved
  refine List.foldlRecOn (motive := s.Completes) _ _ hc fun t ht c _ => ?_
  refine List.foldlRecOn (motive := s.Completes) _ _ ht fun t ht x _ => ?_
  split
  · exact ht
  · split
    · exact ht.completeBarrier ..
    · exact ht

theorem State.Completes.vf (h : s.Completes t) (n : Nat) : t.vf n = s.vf n := by
  rw [State.vf, h.vfs, State.vf]

theorem State.Completes.portSees (h : s.Completes t) (port a : Nat) : t.portSees port a = s.portSees port a :=
  State.portSees_congr (by rw [h.dev]) h.quads (fun n => by rw [h.vf]) port a

/-- The context a launch reads its image in. -/
def Source.ctx (x : Source) (s : State) : Ctx := s.ctrlCtx x.vf x.pasid x.asid x.root

/-- The image that a launch reads, and the state its reading leaves. -/
def State.launchImage (s : State) (x : Source) : State × Except Nat (Header × List LiftDesc × List SavedRake) :=
  s.readImage (launchReader (x.ctx s)) x.image

theorem State.launchImage_accesses (s : State) (x : Source) : s.Accesses (s.launchImage x).1 :=
  readImage_accesses (launchReader_accesses _) _ (.refl s)

theorem State.launch_refused {x : Source} {e : Nat} (h : (s.launchImage x).2 = .error e) :
    s.launch x = ((s.launchImage x).1, .error e) := by
  unfold State.launchImage Source.ctx at h ⊢
  unfold State.launch
  split
  · rename_i hi
    rw [hi] at h ⊢
    cases h
    rfl
  · rename_i hi
    rw [hi] at h
    cases h

/-- From s to t an image is accepted as haul k: apart from memory the VF's launch number, the hauls
and the barriers of saved rakes change (R34, R131, R318). -/
structure Accepts (s t : State) (k : Haul) : Prop where
  co : t.co = { s.co with pdone := t.co.pdone }
  hauls : t.hauls.map Haul.bare = s.hauls.map Haul.bare ++ [k.bare]
  ready : ∀ n, (t.vf n).ready = (s.vf n).ready
  portSees : ∀ port a, t.portSees port a = s.portSees port a

/-- The saved areas of an accepted image count as written. -/
theorem keepAreas_accesses (h : s.Accesses t) (id : Nat) (rs : List SavedRake) :
    s.Accesses (rs.foldl (fun s r => s.keepArea id r.rake) t) :=
  List.foldlRecOn (motive := s.Accesses) _ _ h fun _ ht _ _ => ht.keepArea ..

theorem State.launch_accepts {x : Source} {hd : Header} {ls : List LiftDesc} {rs : List SavedRake}
    (h : (s.launchImage x).2 = .ok (hd, ls, rs)) :
    ∃ t id no now, s.launch x = (t, .ok id) ∧ Accepts s t (x.haul id no now hd ls rs) := by
  obtain ⟨u, hu⟩ : ∃ u, s.launchImage x = (u, .ok (hd, ls, rs)) := ⟨_, Prod.ext rfl h⟩
  have hsu : s.Accesses u := .of_eq hu (s.launchImage_accesses x)
  let v : State := (u.newId).modVf x.vf fun v => { v with launches := (u.vf x.vf).launches + 1 }
  let w : State := rs.foldl (fun s r => s.keepArea u.nextId r.rake) v
  let k := x.haul u.nextId ((u.vf x.vf).launches + 1) w.dev.time hd ls rs
  let z : State := { w with hauls := w.hauls ++ [k] }
  have hl : s.launch x = (z.completeSaved u.nextId, .ok u.nextId) := by
    unfold State.launchImage Source.ctx at hu
    rw [State.launch, hu]
  have hvw : v.Accesses w := keepAreas_accesses (.refl v) _ rs
  have hzt : z.Completes (z.completeSaved u.nextId) := (State.Completes.refl z).completeSaved _
  have hzco : z.co = s.co := hvw.co.trans hsu.co
  refine ⟨_, _, (u.vf x.vf).launches + 1, w.dev.time, hl, ?_, ?_, fun n => ?_, fun port a => ?_⟩
  · rw [hzt.co, hzco]
  · have hw : w.hauls = s.hauls := hvw.hauls.trans hsu.hauls
    rw [hzt.hauls, show z.hauls = s.hauls ++ [k] from by rw [← hw], List.map_append]
    rfl
  · rw [hzt.vf, ← hsu.vf]
    refine (congrArg Vf.ready (hvw.vf n)).trans ?_
    rw [State.vf_modVf]
    split
    · rw [‹n = x.vf›]
      rfl
    · rfl
  · rw [hzt.portSees, ← hsu.portSees]
    refine (hvw.portSees port a).trans ?_
    exact State.portSees_modVf (s := u.newId)
      (f := fun v => { v with launches := (u.vf x.vf).launches + 1 }) (fun _ => rfl) port a

/-! ## Dispatch (R44, R79, R84) -/

/-- From s to t the task at p is FAILED with status e, HWERR with the unit code 8 as its detail: it
is no longer held nor ready, and no haul changes (R44, R79, R383). -/
def Fails (s t : State) (vf p e : Nat) : Prop :=
  t.rdNat p 1 = 5 ∧ t.rdNat (p + 0x28) 8 = (e + if e = 9 then 8 * 2 ^ 32 else 0) % 2 ^ 64 ∧
    t.held? vf p = none ∧ t.hauls = s.hauls ∧ ∀ k, (p, k) ∉ (t.vf vf).ready

theorem resultOf_refusal (e : Nat) : resultOf e (refusalDetail e) = e + if e = 9 then 8 * 2 ^ 32 else 0 := by
  unfold resultOf refusalDetail
  split <;> simp

/-- Failing a task once memory has been read: from the state before the reading on. -/
theorem State.failTask_fails {u : State} (hsu : s.Accesses u) (hm : Memory.wf u.mem = true) {vf : Nat} {x : Ctx}
    {p : Nat} (e : Nat) (hp : s.portSees x.port p = true) (ho : OffHost p) :
    let t := u.failTask vf x p e
    Fails s t vf p e ∧ t.co = { s.co with pdone := t.co.pdone } := by
  have hpu : u.portSees x.port p = true := (hsu.portSees ..).trans hp
  generalize hv : u.tcbPut x p 0 1 tFailed = v
  have huv : u.Accesses v := hv ▸ State.tcbPut_accesses hpu ho (by omega) ..
  have hmv : Memory.wf v.mem = true := hv ▸ State.tcbPut_wf _ _ _ _ _ hm
  have hpv : v.portSees x.port p = true := (huv.portSees ..).trans hpu
  have hstat : v.rdNat p 1 = 5 := hv ▸ State.rdNat_tcbPut_same hm hpu ho (off := 0) (by omega) 1 5
  generalize hw : v.tcbPut x p 0x28 8 (resultOf e (refusalDetail e)) = w
  have hvw : v.Accesses w := hw ▸ State.tcbPut_accesses hpv ho (by omega) ..
  have hres : w.rdNat (p + 0x28) 8 = resultOf e (refusalDetail e) % 256 ^ 8 :=
    hw ▸ State.rdNat_tcbPut_same hmv hpv ho (by omega) 8 _
  have hkeep : w.rdNat p 1 = v.rdNat p 1 :=
    hw ▸ State.rdNat_tcbPut_of_disjoint hmv hpv ho (by omega) (by omega)
  have hco : w.co = s.co := hvw.co.trans (huv.co.trans hsu.co)
  have hf : u.failTask vf x p e = w.unhold vf p := by rw [State.failTask, hv, hw]
  rw [hf]
  refine ⟨⟨hkeep.trans hstat, ?_, State.held?_unhold .., hvw.hauls.trans (huv.hauls.trans hsu.hauls),
    fun k => State.not_mem_ready_unhold w vf p k⟩, ?_⟩
  · rw [← resultOf_refusal]
    exact hres
  · rw [show (w.unhold vf p).co = s.co from hco]

/-- From s to t the leader starts the held task h of a VF: given up where its port does not reach
the TCB, FAILED where the TCB or its image is refused, and RUNNING as a new haul otherwise. -/
def Starts (s t : State) (vf : Nat) (h : Held) : Prop :=
  let p := h.tcb
  let x := s.heldCtx vf h
  if s.portSees x.port p = false then t.held? vf p = none ∧ t.hauls = s.hauls
  else if s.poisoned p 64 then Fails s t vf p 9
  else if s.tcbBad p then Fails s t vf p 1
  else match (s.readImage (launchReader x) (s.peekNat (p + 0x18) 8)).2 with
    | .error e => Fails s t vf p e
    | .ok (hd, ls, _) => t.rdNat p 1 = 2 ∧ (t.vf vf).ready = (s.vf vf).ready ∧
      ∃ k : Haul, t.hauls.map Haul.bare = s.hauls.map Haul.bare ++ [k.bare] ∧ k.tcb = some p ∧ k.vf = vf ∧
        k.asid = h.asid ∧ k.hdr = hd ∧ k.lifts = ls ∧ k.spec = false ∧ k.ended = none

section start
variable {vf : Nat} {h : Held}

theorem State.startTask_unseen (hp : s.portSees (s.heldCtx vf h).port h.tcb = false) :
    s.startTask vf h false = (s.refusePort (s.heldCtx vf h).port h.tcb).unhold vf h.tcb := by
  simp [State.startTask, hp]

variable (hp : s.portSees (s.heldCtx vf h).port h.tcb = true)
include hp

theorem State.startTask_poisoned (hc : s.poisoned h.tcb 64 = true) :
    s.startTask vf h false = s.failTask vf (s.heldCtx vf h) h.tcb 9 := by
  simp [State.startTask, hp, hc]

variable (hc : ¬ s.poisoned h.tcb 64 = true)
include hc

theorem State.startTask_bad (hb : s.tcbBad h.tcb = true) :
    s.startTask vf h false = s.failTask vf (s.heldCtx vf h) h.tcb 1 := by
  simp [State.startTask, hp, hc, hb]

variable (hb : ¬ s.tcbBad h.tcb = true)
include hb

theorem State.startTask_refused {u : State} {e : Nat} (hl : s.launch (s.taskSource vf h false) = (u, .error e)) :
    s.startTask vf h false = u.failTask vf (s.heldCtx vf h) h.tcb e := by
  simp [State.startTask, hp, hc, hb, hl]

theorem State.startTask_launched {u : State} {id : Nat} (hl : s.launch (s.taskSource vf h false) = (u, .ok id)) :
    s.startTask vf h false = u.tcbPut (s.heldCtx vf h) h.tcb 0 1 tRunning := by
  simp [State.startTask, hp, hc, hb, hl]

end start

theorem State.startTask_starts (hm : Memory.wf s.mem = true) (vf : Nat) {h : Held} (ho : OffHost h.tcb) :
    let t := s.startTask vf h false
    Starts s t vf h ∧ t.co = { s.co with pdone := t.co.pdone } := by
  unfold Starts
  dsimp only
  by_cases hp : s.portSees (s.heldCtx vf h).port h.tcb = false
  · have hr := (State.Accesses.refl s).refusePort (s.heldCtx vf h).port h.tcb
    rw [if_pos hp, State.startTask_unseen hp]
    exact ⟨⟨State.held?_unhold .., hr.hauls⟩, by rw [show (State.unhold _ vf h.tcb).co = s.co from hr.co]⟩
  rw [if_neg hp]
  rw [Bool.not_eq_false] at hp
  by_cases hc : s.poisoned h.tcb 64 = true
  · rw [if_pos hc, State.startTask_poisoned hp hc]
    exact State.failTask_fails (.refl s) hm 9 hp ho
  rw [if_neg hc]
  by_cases hb : s.tcbBad h.tcb = true
  · rw [if_pos hb, State.startTask_bad hp hc hb]
    exact State.failTask_fails (.refl s) hm 1 hp ho
  rw [if_neg hb]
  have hml : Memory.wf (s.launch (s.taskSource vf h false)).1.mem = true := State.launch_wf _ hm
  split
  · rename_i e hi
    have hl := State.launch_refused (x := s.taskSource vf h false) hi
    rw [hl] at hml
    rw [State.startTask_refused hp hc hb hl]
    exact State.failTask_fails (s.launchImage_accesses _) hml e hp ho
  · rename_i hd ls rs hi
    obtain ⟨u, id, no, now, hl, hacc⟩ := State.launch_accepts (x := s.taskSource vf h false) hi
    rw [hl] at hml
    have hpu : u.portSees (s.heldCtx vf h).port h.tcb = true := (hacc.portSees ..).trans hp
    have hut := State.tcbPut_accesses hpu ho (off := 0) (by omega) 1 tRunning
    rw [State.startTask_launched hp hc hb hl]
    refine ⟨⟨State.rdNat_tcbPut_same hml hpu ho (off := 0) (by omega) 1 2, ?_,
      (s.taskSource vf h false).haul id no now hd ls rs, ?_, rfl, rfl, rfl, rfl, rfl, rfl, rfl⟩, ?_⟩
    · rw [hut.vf, hacc.ready]
    · rw [hut.hauls]
      exact hacc.hauls
    · rw [hut.co]
      exact hacc.co

/-- The leader takes the head off the ready list of a VF that may run and starts it, if it is held. -/
theorem exec_taskDispatch {vf p n : Nat} {rest : List (Nat × Nat)} {h : Held}
    (hr : (s.vf vf).ready = (p, n) :: rest) (hl : s.leads = true) (hb : (s.vf vf).blackout = none)
    (hf : (s.vf vf).flrb = false) (hh : s.held? vf p = some h) :
    exec (.taskDispatch vf) s =
      .next ((s.modVf vf fun v => { v with ready := rest }).startTask vf h false) := by
  have hu : (s.modVf vf fun v => { v with ready := rest }).held? vf p = some h := by
    rw [State.held?, State.vf_modVf, if_pos rfl]
    exact hh
  simp only [exec, execTaskDispatch, hr, hl, hb, hf, hu]
  rfl

theorem State.taskDispatch_starts (hm : s.memOk) {vf p n : Nat} {rest : List (Nat × Nat)} {h : Held}
    (hr : (s.vf vf).ready = (p, n) :: rest) (hl : s.leads = true) (hb : (s.vf vf).blackout = none)
    (hf : (s.vf vf).flrb = false) (hh : s.held? vf p = some h) (ho : OffHost p) :
    let u := s.modVf vf fun v => { v with ready := rest }
    ∃ t, exec (.taskDispatch vf) s = .next t ∧ t.co = { s.co with pdone := t.co.pdone } ∧ Starts u t vf h := by
  intro u
  have htcb : h.tcb = p := State.held?_tcb hh
  obtain ⟨hs, hco⟩ := State.startTask_starts (s := u) hm vf (h := h) (htcb ▸ ho)
  exact ⟨_, exec_taskDispatch hr hl hb hf hh, hco, hs⟩

/-- Settles O52: TDONE runs `State.releaseTask`, a chain of `State.releaseStep`s, and the leader's
dispatch runs `State.startTask`. -/
theorem taskReleases : Obligations.TaskReleases := by
  refine ⟨?tdone, ?release, ?dispatch⟩
  case tdone =>
    intro m s u quad
    obtain ⟨r, hr, hnone, hsome⟩ := exec_tdone m s
    refine ⟨r, hr, hnone, fun h hh hev => ?_⟩
    have idle (w : State) (hq : w.quads = u.quads) (hc : w.co = u.co)
        (hrel : u.releaseTask h quad s.co.src = w) : r = w := by
      have hwev : w.holdsEvent w.co = false := by
        rw [← hev, State.holdsEvent, State.quad, hq, hc, State.holdsEvent, State.quad]
      simpa [hwev] using hsome h w hh hrel
    refine ⟨fun hd => idle u rfl rfl (State.releaseTask_done hd), fun p ht hnr =>
      ⟨fun hsp hnc => ?_, fun hsc => ?_⟩⟩
    · have hrw := idle (u.modHaul h.id fun h => { h with heldRelease := true }) rfl rfl
        (State.releaseTask_speculative ht hnr hsp hnc)
      refine ⟨by rw [hrw]; rfl, fun k hk hid => ?_⟩
      rw [hrw, State.modHaul_hauls] at hk
      obtain ⟨j, -, rfl⟩ := List.mem_map.mp hk
      by_cases hj : j.id = h.id
      · rw [if_pos hj]
      · rw [if_neg hj] at hid
        exact absurd hid hj
    · intro v
      refine ⟨fun hp hq => idle v rfl rfl (State.releaseTask_unseen ht hnr hsc hp hq), fun w b hp hv => ?_⟩
      exact ⟨_, State.releaseEach_chain h quad s.co.src _,
        hsome h _ hh (State.releaseTask_each ht hnr hsc hp hv)⟩
  case release =>
    intro s h quad va t p l b hm ha hx hc ho
    exact State.releaseStep_reached hm ha hx hc ho
  case dispatch =>
    intro vf s p n rest h hr hl hb hf hh ho hm u x bare
    obtain ⟨t, ht, hco, hs⟩ := State.taskDispatch_starts hm hr hl hb hf hh ho
    obtain rfl : h.tcb = p := State.held?_tcb hh
    have hsees : u.portSees x.port h.tcb = s.portSees x.port h.tcb := 
      State.portSees_modVf (f := fun v => { v with ready := rest }) (fun _ => rfl) ..
    have hrest : (u.vf vf).ready = rest := by rw [State.vf_modVf, if_pos rfl]
    refine ⟨t, ht, hco, ?_⟩
    unfold Starts at hs
    dsimp only at hs
    rw [hsees, hrest] at hs
    exact hs

end Sys2Proof.Machine
end

section
/-! # O51: TSPAWN, TSPEC, TCOMMIT and TDISCARD (R44, R79, R84, R319 to R321, R381; logs 18, 79, 80)

A publish carries the coach's buffer and changes nothing else of the device (`State.Carries`), and a
field put into a TCB changes those bytes alone (`State.Marks`). -/

namespace Sys2Proof.Machine
variable {s t u : State}

/-! ## What carrying buffered entries leaves alone (R296 to R299) -/

/-- From s to t entries of the coach in focus have travelled: its buffer and snapshot, memory, the
core points, the host copies, the marks of pages in migration and the poisoned granules may have
changed, and nothing else. -/
def State.Carries (s t : State) : Prop :=
  ∃ wbuf snap mem migrations corePts hostCopies poison, t =
    { s with
      co := { s.co with wbuf := wbuf, snap := snap }
      mem := mem, migrations := migrations, corePts := corePts, hostCopies := hostCopies
      dev := { s.dev with poison := poison } }

namespace State.Carries

theorem refl (s : State) : s.Carries s := ⟨_, _, _, _, _, _, _, rfl⟩

theorem co (h : s.Carries t) : t.co = { s.co with wbuf := t.co.wbuf, snap := t.co.snap } := by
  obtain ⟨_, _, _, _, _, _, _, rfl⟩ := h; rfl
theorem hauls (h : s.Carries t) : t.hauls = s.hauls := by obtain ⟨_, _, _, _, _, _, _, rfl⟩ := h; rfl
theorem vfs (h : s.Carries t) : t.vfs = s.vfs := by obtain ⟨_, _, _, _, _, _, _, rfl⟩ := h; rfl
theorem quads (h : s.Carries t) : t.quads = s.quads := by obtain ⟨_, _, _, _, _, _, _, rfl⟩ := h; rfl
theorem dev (h : s.Carries t) : t.dev = { s.dev with poison := t.dev.poison } := by
  obtain ⟨_, _, _, _, _, _, _, rfl⟩ := h; rfl
theorem ctx (h : s.Carries t) : t.ctx = s.ctx := by obtain ⟨_, _, _, _, _, _, _, rfl⟩ := h; rfl

theorem portSees (h : s.Carries t) (port a : Nat) : t.portSees port a = s.portSees port a :=
  State.portSees_congr (by rw [h.dev]) h.quads (fun n => by simp only [State.vf, h.vfs]) port a

theorem wr (h : s.Carries t) (a : Nat) (b : List Byte) : s.Carries (t.wr a b) := by
  obtain ⟨_, _, _, _, _, _, _, rfl⟩ := h
  exact ⟨_, _, _, _, _, _, _, rfl⟩

theorem wrHostCopy (h : s.Carries t) (o : Nat × BitVec 16) (a : Nat) (b : List Byte) :
    s.Carries (t.wrHostCopy o a b) := by
  have hc : s.Carries ((granules a b.length).foldl
      (fun s g => s.ownCopy o g (overlay g (s.homeWord g) a b) true) t) :=
    List.foldlRecOn (motive := s.Carries) _ _ h fun v hv _ _ => by
      obtain ⟨_, _, _, _, _, _, _, rfl⟩ := hv
      exact ⟨_, _, _, _, _, _, _, rfl⟩
  obtain ⟨_, _, _, _, _, _, _, he⟩ := hc
  exact ⟨_, _, _, _, _, _, _, by rw [State.wrHostCopy, he]; rfl⟩

theorem arrive (h : s.Carries t) (a : Nat) (b : List Byte) : s.Carries (t.arrive a b) := by
  unfold State.arrive
  split
  · exact h.wrHostCopy ..
  · exact h.wr ..

theorem carryEnd (h : s.Carries t) (e : WEntry) : s.Carries (t.carryEnd e) := by
  obtain ⟨_, _, _, _, _, _, _, he⟩ := h.arrive e.addr e.bytes
  exact ⟨_, _, _, _, _, _, _, by rw [State.carryEnd, he]; rfl⟩

theorem carryCore (h : s.Carries t) (e : WEntry) : s.Carries (t.carryCore e) := by
  unfold State.carryCore
  split
  · exact h
  · obtain ⟨_, _, _, _, _, _, _, rfl⟩ := h
    exact ⟨_, _, _, _, _, _, _, rfl⟩

theorem publish (h : s.Carries t) (scope : Nat) : s.Carries (t.publish scope) :=
  List.foldlRecOn (motive := s.Carries) _ _ h fun v hv e _ => by
    split
    · exact hv
    · exact hv.carryCore e
    · exact hv.carryEnd e

theorem drain (h : s.Carries t) : s.Carries t.drain :=
  List.foldlRecOn (motive := s.Carries) _ _ h fun _ hv e _ => hv.carryEnd e

end State.Carries

/-! ## What a word's marks in a TCB leave alone (R43, R79) -/

/-- From s to t the device has marked the TCB at p and what the VFs hold of tasks: beside the 64
bytes at p no memory, no coach, no haul and no port's reach changes. -/
structure State.Marks (p : Nat) (s t : State) : Prop where
  co : t.co = s.co
  hauls : t.hauls = s.hauls
  outside : ∀ x, x < p ∨ p + 64 ≤ x → Memory.get t.mem x = Memory.get s.mem x
  portSees : ∀ port a, t.portSees port a = s.portSees port a
  wf : Memory.wf t.mem = true

theorem Memory.get_wr_outside {s : State} (hm : Memory.wf s.mem = true) {a x : Nat} {b : List Byte}
    (h : x < a ∨ a + b.length ≤ x) : Memory.get (s.wr a b).mem x = Memory.get s.mem x := by
  rw [State.wr_mem, Memory.get_putAll _ _ _ hm, if_neg (by omega)]

namespace State.Marks
variable {p : Nat}

theorem refl (hm : Memory.wf s.mem = true) : State.Marks p s s :=
  ⟨rfl, rfl, fun _ _ => rfl, fun _ _ => rfl, hm⟩

theorem tcbPut (h : State.Marks p s t) {x : Ctx} {off n v : Nat} (hp : s.portSees x.port p = true)
    (ho : OffHost p) (hx : off + n ≤ 64) (hn : 0 < n) : State.Marks p s (t.tcbPut x p off n v) := by
  have hpt : t.portSees x.port p = true := (h.portSees ..).trans hp
  have ha := State.tcbPut_accesses hpt ho (by omega : off < 64) n v
  refine ⟨ha.co.trans h.co, ha.hauls.trans h.hauls, fun y hy => ?_,
    fun port a => (ha.portSees port a).trans (h.portSees port a), State.tcbPut_wf _ _ _ _ _ h.wf⟩
  rw [State.tcbPut_eq hpt ho (by omega), Memory.get_wr_outside h.wf (by rw [leBytes_length]; omega)]
  exact h.outside y hy

theorem modVf (h : State.Marks p s t) (n : Nat) {f : Vf → Vf} (hf : ∀ v, (f v).memp = v.memp) :
    State.Marks p s (t.modVf n f) :=
  ⟨h.co, h.hauls, h.outside, fun port a => (State.portSees_modVf hf port a).trans (h.portSees port a), h.wf⟩

theorem unhold (h : State.Marks p s t) (vf q : Nat) : State.Marks p s (t.unhold vf q) :=
  h.modVf vf fun _ => rfl

theorem hold (h : State.Marks p s t) (vf : Nat) (r : Held) : State.Marks p s (t.hold vf r) := by
  unfold State.hold
  split
  · exact h
  · exact h.modVf vf (f := fun v => { v with tasks := v.tasks ++ [r] }) fun _ => rfl

theorem makeReady (h : State.Marks p s t) (vf : Nat) {x : Ctx} (hp : s.portSees x.port p = true)
    (ho : OffHost p) : State.Marks p s (t.makeReady vf x p) :=
  (h.tcbPut hp ho (off := 0) (n := 1) (by omega) (by omega)).modVf vf
    (f := fun v => { v with ready := joinReady v.ready p (t.taskPrio x p) }) fun _ => rfl

theorem failTask (h : State.Marks p s t) (vf : Nat) {x : Ctx} (e : Nat) (hp : s.portSees x.port p = true)
    (ho : OffHost p) : State.Marks p s (t.failTask vf x p e) :=
  ((h.tcbPut hp ho (off := 0) (n := 1) (by omega) (by omega)).tcbPut hp ho (off := 0x28) (n := 8)
    (by omega) (by omega)).unhold vf p

end State.Marks

theorem State.held?_congr {vf p : Nat} (h : (t.vf vf).tasks = (s.vf vf).tasks) : t.held? vf p = s.held? vf p := by
  rw [State.held?, h, State.held?]

theorem State.held?_hold_new {vf : Nat} {h : Held} (hn : s.held? vf h.tcb = none) :
    (s.hold vf h).held? vf h.tcb = some h := by
  have hf := hn
  rw [State.held?] at hf
  rw [State.hold, hn]
  simp [State.held?, State.vf_modVf, hf]

/-! ## The checks of the words that name a TCB (R319, R321, R381) -/

theorem State.ctx_congr (hco : t.co = s.co) (hh : t.hauls = s.hauls) : t.ctx = s.ctx := by
  simp only [State.ctx, State.haul?, hco, hh]

/-- The context in which a word reaches a TCB: the issuer's, its own stores not confined (R319). -/
def State.tcbCtx (s : State) : Ctx := { s.ctx with spec := none }

theorem State.tcbAccess_found {a : BitVec 6} {p : Nat} (h : s.tcbAccess a = (t, some p)) :
    s.Accesses t ∧ t.portSees s.ctx.port p = true := by
  have hacc := (State.Accesses.refl s).translate s.tcbCtx .store (s.co.greg a).toNat
  unfold State.tcbAccess at h
  unfold State.tcbCtx at hacc
  dsimp only at h
  split at h
  · cases h
  · split at h
    · rename_i hx
      split at h
      · cases h
      · split at h
        · cases h
        · cases h
          rw [hx] at hacc
          have hp := State.translate_portSees hx
          exact ⟨hacc, hp⟩
    all_goals cases h

/-- The causes that the checks record: what is checked, in order (R319, R321, R381). -/
def State.tcbRefuses (s : State) (x : Nat) (k : Cause) : Prop :=
  (x % 64 ≠ 0 ∧ k = causeAddr cMisal x) ∨
  (x % 64 = 0 ∧ (s.translate s.tcbCtx .store x).2 = .prot ∧ k = causeAddr cProt x) ∨
  (x % 64 = 0 ∧ (∃ l b, (s.translate s.tcbCtx .store x).2 = .absent l b) ∧ k = causeAddr cNres x) ∨
  (x % 64 = 0 ∧ (s.translate s.tcbCtx .store x).2 = .ecc ∧ k = causeAddr cEcc x) ∨
  (x % 64 = 0 ∧ (∃ h l b, (s.translate s.tcbCtx .store x).2 = .found h l b) ∧ s.ctx.spec.isSome = true ∧
    k = causeAddr cSpecw x)

theorem State.tcbAccess_refused {a : BitVec 6} {k : Cause} (h : s.tcbRefuses (s.co.greg a).toNat k) :
    ∃ v, s.Accesses v ∧ s.tcbAccess a = (v.trapAll k, none) := by
  unfold State.tcbAccess
  unfold State.tcbRefuses at h
  have hacc := (State.Accesses.refl s).translate s.tcbCtx .store (s.co.greg a).toNat
  unfold State.tcbCtx at h hacc
  dsimp only at h hacc ⊢
  generalize s.translate { s.ctx with spec := none } .store (s.co.greg a).toNat = r at h hacc ⊢
  obtain ⟨v, x⟩ := r
  rcases h with ⟨hx, rfl⟩ | ⟨hx, h, rfl⟩ | ⟨hx, ⟨_, _, h⟩, rfl⟩ | ⟨hx, h, rfl⟩ | ⟨hx, ⟨_, _, _, h⟩, hs, rfl⟩
  · exact ⟨s, .refl s, if_pos hx⟩
  · subst h
    exact ⟨v, hacc, if_neg (by simp [hx])⟩
  · subst h
    exact ⟨v, hacc, if_neg (by simp [hx])⟩
  · subst h
    exact ⟨v, hacc, if_neg (by simp [hx])⟩
  · subst h
    exact ⟨s, .refl s, by rw [if_neg (by simp [hx])]; exact if_pos hs⟩

theorem exec_tcbWord_refused {m : Bool} {a : BitVec 6} {v : State} (h : s.tcbAccess a = (v, none)) :
    ∀ i ∈ ([.tspawn m a, .tspec m a, .tcommit m a, .tdiscard m a] : List Instr),
      exec i s = .next (v.finishWord m) := by
  simp [exec, execTspawn, execTspec, execTcommit, execTdiscard, word, h]

/-! ## TSPAWN (R44, R79, R320) -/

/-- What TSPAWN makes of a TCB it has reached, once the issuer has published. -/
def State.spawnTcb (u : State) (p va : Nat) : State :=
  let vf := u.ctx.vf
  let h := u.newHeld p va false
  let x := { u.heldCtx vf h with port := u.ctx.port }
  if (u.held? vf p).isSome then u
  else if u.tcbBad p then u.failTask vf x p 1
  else
    let w := u.hold vf h
    if w.tpred p = 0 then w.makeReady vf x p else w.tcbPut x p 0 1 tWaiting

theorem exec_tspawn_found {m : Bool} {a : BitVec 6} {p : Nat} (h : s.tcbAccess a = (t, some p)) :
    exec (.tspawn m a) s =
      .next (((t.publish 4).spawnTcb p ((t.publish 4).co.greg a).toNat).finishWord m) := by
  simp only [exec, execTspawn, word, h]
  rfl

/-- What TSPAWN leaves at a TCB that its port reaches: FAILED, READY on the ready list, or WAITING. -/
theorem State.spawnTcb_spec (hm : Memory.wf u.mem = true) {p : Nat} (va : Nat)
    (hp : u.portSees u.ctx.port p = true) (ho : OffHost p) :
    let r := u.spawnTcb p va
    let vf := u.ctx.vf
    State.Marks p u r ∧
      if (u.held? vf p).isSome then r = u
      else if u.tcbBad p then r.rdNat p 1 = 5 ∧ r.rdNat (p + 0x28) 8 = 1 ∧ r.held? vf p = none
      else r.held? vf p = some (u.newHeld p va false) ∧
        if u.rdNat (p + 4) 4 = 0 then r.rdNat p 1 = 1 ∧ ∃ n, (p, n) ∈ (r.vf vf).ready else r.rdNat p 1 = 0 := by
  intro r vf
  have hu : State.Marks p u u := .refl hm
  let h := u.newHeld p va false
  let x := { u.heldCtx vf h with port := u.ctx.port }
  by_cases hheld : (u.held? vf p).isSome = true
  · have hr : r = u := if_pos hheld
    rw [if_pos hheld, hr]
    exact ⟨hu, rfl⟩
  rw [if_neg hheld]
  by_cases hb : u.tcbBad p = true
  · have hr : r = u.failTask vf x p 1 := (if_neg hheld).trans (if_pos hb)
    rw [if_pos hb, hr]
    obtain ⟨⟨hstat, hres, hnone, -, -⟩, -⟩ := State.failTask_fails (.refl u) hm (vf := vf) (x := x) 1 hp ho
    exact ⟨hu.failTask vf 1 hp ho, hstat, hres, hnone⟩
  rw [if_neg hb]
  have hnone : u.held? vf p = none := by simpa using hheld
  have hw : State.Marks p u (u.hold vf h) := hu.hold vf h
  have hpw : (u.hold vf h).portSees x.port p = true := (hw.portSees ..).trans hp
  have hmem : (u.hold vf h).mem = u.mem := State.hold_mem ..
  have hmw : Memory.wf (u.hold vf h).mem = true := hw.wf
  have hrd : (u.hold vf h).rdNat (p + 4) 4 = u.rdNat (p + 4) 4 := by
    rw [State.rdNat, State.rd, hmem, State.rdNat, State.rd]
  have hheldw : (u.hold vf h).held? vf p = some h := State.held?_hold_new hnone
  by_cases hpred : u.rdNat (p + 4) 4 = 0
  · have hr : r = (u.hold vf h).makeReady vf x p :=
      (if_neg hheld).trans ((if_neg hb).trans (if_pos (by rw [State.tpred_eq ho, hrd, hpred])))
    obtain ⟨hready, hkept, hstat, -⟩ := State.makeReady_ready hmw (vf := vf) (x := x) hpw ho
    rw [if_pos hpred, hr]
    exact ⟨hw.makeReady vf hp ho, hkept.trans hheldw, hstat, hready⟩
  · have hr : r = (u.hold vf h).tcbPut x p 0 1 tWaiting :=
      (if_neg hheld).trans ((if_neg hb).trans (if_neg (by rw [State.tpred_eq ho, hrd]; exact hpred)))
    have hacc := State.tcbPut_accesses hpw ho (off := 0) (by omega) 1 tWaiting
    rw [if_neg hpred, hr]
    exact ⟨hw.tcbPut hp ho (by omega) (by omega),
      (State.held?_congr (by rw [hacc.vf])).trans hheldw,
      State.rdNat_tcbPut_same hmw hpw ho (off := 0) (by omega) 1 tWaiting⟩

/-! ## TSPEC (R34, R44, R84, R320) -/

theorem SavedRake.within_haul {r : SavedRake} {haul : Nat} : ∀ c ∈ (r.within haul).coaches, c.ident.haul = haul := by
  simp [SavedRake.within]

/-- Completing the barriers of a haul's saved coaches touches no coach of another haul. -/
theorem State.completeSaved_co {haul : Nat} (hs : ∀ h, s.haul? haul = some h → ∀ c ∈ h.savedCoaches, c.ident.haul = haul)
    (hne : s.co.ident.haul ≠ haul) : (s.completeSaved haul).co = s.co := by
  have hl : ∀ c ∈ ((s.haul? haul).map Haul.savedCoaches).getD [], c.ident.haul = haul := by
    cases hh : s.haul? haul with
    | none => simp
    | some h => simpa using hs h hh
  unfold State.completeSaved
  refine List.foldlRecOn (motive := fun v : State => v.co = s.co) _ _ rfl fun v hv c hc => ?_
  refine List.foldlRecOn (motive := fun v : State => v.co = s.co) _ _ hv fun v hv x _ => ?_
  split
  · exact hv
  · split
    · rename_i k _ _
      have hno : k.takesPart x c v.co = false := by
        simp only [Haul.takesPart, hv, hl c hc]
        simp [hne]
      show (if k.takesPart x c v.co = true then _ else v.co) = s.co
      rw [if_neg (by simp [hno]), hv]
    · exact hv

theorem State.Accesses.nextId (h : s.Accesses t) : t.nextId = s.nextId := by obtain ⟨_, _, _, _, rfl⟩ := h; rfl

/-- The state in which an accepted image has its haul, before its barriers complete. -/
def State.accepted (u : State) (x : Source) (i : Header × List LiftDesc × List SavedRake) : State :=
  let v := (u.newId).modVf x.vf fun v => { v with launches := (u.vf x.vf).launches + 1 }
  let w := i.2.2.foldl (fun s r => s.keepArea u.nextId r.rake) v
  { w with hauls := w.hauls ++
      [x.haul u.nextId ((u.vf x.vf).launches + 1) w.dev.time i.1 i.2.1 i.2.2] }

theorem State.launch_read {x : Source} {i : Header × List LiftDesc × List SavedRake}
    (h : s.launchImage x = (u, .ok i)) :
    s.launch x = ((u.accepted x i).completeSaved u.nextId, .ok u.nextId) := by
  obtain ⟨hd, ls, rs⟩ := i
  unfold State.launchImage Source.ctx at h
  rw [State.launch, h]
  rfl

theorem State.accepted_frame (u : State) (x : Source) (i : Header × List LiftDesc × List SavedRake) :
    (u.accepted x i).co = u.co ∧ (∃ k, (u.accepted x i).hauls = u.hauls ++ [k] ∧ k.id = u.nextId ∧
      ∀ c ∈ k.savedCoaches, c.ident.haul = u.nextId) ∧
    ∀ n, ((u.accepted x i).vf n).tasks = (u.vf n).tasks := by
  obtain ⟨hd, ls, rs⟩ := i
  have hw := keepAreas_accesses (.refl
    ((u.newId).modVf x.vf fun v => { v with launches := (u.vf x.vf).launches + 1 })) u.nextId rs
  refine ⟨hw.co, ⟨_, congrArg (· ++ [_]) hw.hauls, rfl, ?_⟩, fun n => ?_⟩
  · intro c hc
    obtain ⟨r, hr, hc⟩ := List.mem_flatMap.mp hc
    obtain ⟨q, -, rfl⟩ := List.mem_map.mp hr
    exact SavedRake.within_haul c hc
  · refine (congrArg Vf.tasks (hw.vf n)).trans ?_
    rw [State.vf_modVf]
    split
    · rename_i hn
      rw [hn]
      rfl
    · rfl

/-- An acceptance holds and forgets no task, and under a number that is new it changes no coach. -/
theorem State.launch_frame (x : Source) {i : Header × List LiftDesc × List SavedRake}
    (h : (s.launchImage x).2 = .ok i) :
    (∀ n, ((s.launch x).1.vf n).tasks = (s.vf n).tasks) ∧
    ((∀ k ∈ s.hauls, k.id ≠ s.nextId) → s.co.ident.haul ≠ s.nextId → (s.launch x).1.co = s.co) := by
  obtain ⟨u, hu⟩ : ∃ u, s.launchImage x = (u, .ok i) := ⟨_, Prod.ext rfl h⟩
  have hsu : s.Accesses u := .of_eq hu (s.launchImage_accesses x)
  obtain ⟨hco, ⟨k, hk, hid, hsaved⟩, htasks⟩ := u.accepted_frame x i
  rw [State.launch_read hu]
  refine ⟨fun n => ?_, fun hnew hne => ?_⟩
  · have hz := (State.Completes.refl (u.accepted x i)).completeSaved u.nextId
    rw [hz.vf, htasks, hsu.vf]
  · rw [State.completeSaved_co, hco, hsu.co]
    · intro h hh
      have hf : s.hauls.find? (fun h => h.id == u.nextId) = none := by
        rw [List.find?_eq_none]
        simpa [hsu.nextId] using hnew
      rw [State.haul?, hk, hsu.hauls, List.find?_append, hf] at hh
      simp [hid] at hh
      subst hh
      exact hsaved
    · rw [hco, hsu.co, hsu.nextId]
      exact hne

/-- From s to t the leader starts the held speculative task h: given up where its port does not reach
the TCB, FAILED where the TCB or its image is refused, and otherwise RUNNING, speculative and still
held, as a new haul. -/
def StartsSpec (s t : State) (vf : Nat) (h : Held) : Prop :=
  let p := h.tcb
  let x := s.heldCtx vf h
  if s.portSees x.port p = false then t.held? vf p = none ∧ t.hauls = s.hauls
  else if s.poisoned p 64 then Fails s t vf p 9
  else if s.tcbBad p then Fails s t vf p 1
  else match (s.readImage (launchReader x) (s.peekNat (p + 0x18) 8)).2 with
    | .error e => Fails s t vf p e
    | .ok (hd, ls, _) => t.rdNat p 1 = 2 ∧ t.rdNat (p + 1) 1 = 1 ∧ t.held? vf p = s.held? vf p ∧
      ∃ k : Haul, t.hauls.map Haul.bare = s.hauls.map Haul.bare ++ [k.bare] ∧ k.tcb = some p ∧ k.vf = vf ∧
        k.asid = h.asid ∧ k.hdr = hd ∧ k.lifts = ls ∧ k.spec = true ∧ k.committed = false ∧ k.ended = none

/-- The coach in focus is as it was, but that barrier generations of a haul whose number it bears may
have completed. -/
def State.SameCoach (s t : State) : Prop :=
  t.co = { s.co with pdone := t.co.pdone } ∧
  ((∀ k ∈ s.hauls, k.id ≠ s.nextId) → s.co.ident.haul ≠ s.nextId → t.co = s.co)

theorem State.SameCoach.of_eq (h : t.co = s.co) : s.SameCoach t := ⟨by rw [h], fun _ _ => h⟩

theorem State.startTask_startsSpec (hm : Memory.wf s.mem = true) (vf : Nat) {h : Held} (ho : OffHost h.tcb) :
    let t := s.startTask vf h true
    StartsSpec s t vf h ∧ s.SameCoach t := by
  intro t
  have ht : s.startTask vf h true = t := rfl
  unfold StartsSpec
  unfold State.startTask at ht
  dsimp only at ht ⊢
  have marks {v : State} (hsv : s.Accesses v) (hv : Memory.wf v.mem = true) (e : Nat)
      (hp : s.portSees (s.heldCtx vf h).port h.tcb = true) :
      (v.failTask vf (s.heldCtx vf h) h.tcb e).co = s.co :=
    ((State.Marks.refl hv).failTask vf e ((hsv.portSees ..).trans hp) ho).co.trans hsv.co
  by_cases hp : s.portSees (s.heldCtx vf h).port h.tcb = false
  · have hr := (State.Accesses.refl s).refusePort (s.heldCtx vf h).port h.tcb
    rw [if_pos (by simp [hp])] at ht
    rw [if_pos hp, ← ht]
    exact ⟨⟨State.held?_unhold .., hr.hauls⟩, .of_eq hr.co⟩
  rw [if_neg hp]
  rw [Bool.not_eq_false] at hp
  rw [if_neg (by simp [hp])] at ht
  by_cases hc : s.poisoned h.tcb 64 = true
  · rw [if_pos hc] at ht ⊢
    rw [← ht]
    exact ⟨(State.failTask_fails (.refl s) hm 9 hp ho).1, .of_eq (marks (.refl s) hm 9 hp)⟩
  rw [if_neg hc] at ht ⊢
  by_cases hb : s.tcbBad h.tcb = true
  · rw [if_pos hb] at ht ⊢
    rw [← ht]
    exact ⟨(State.failTask_fails (.refl s) hm 1 hp ho).1, .of_eq (marks (.refl s) hm 1 hp)⟩
  rw [if_neg hb] at ht ⊢
  have hml : Memory.wf (s.launch (s.taskSource vf h true)).1.mem = true := State.launch_wf _ hm
  split
  · rename_i e hi
    have hl := State.launch_refused (x := s.taskSource vf h true) hi
    have hsv := s.launchImage_accesses (s.taskSource vf h true)
    rw [hl] at hml ht
    rw [← ht]
    exact ⟨(State.failTask_fails hsv hml e hp ho).1, .of_eq (marks hsv hml e hp)⟩
  · rename_i hd ls rs hi
    obtain ⟨v, id, no, now, hl, hacc⟩ := State.launch_accepts (x := s.taskSource vf h true) hi
    obtain ⟨htasks, hco⟩ := State.launch_frame (s.taskSource vf h true) hi
    rw [hl] at hml ht htasks hco
    dsimp only at ht hml htasks hco
    rw [if_pos rfl] at ht
    have hpv : v.portSees (s.heldCtx vf h).port h.tcb = true := (hacc.portSees ..).trans hp
    generalize hw : v.tcbPut (s.heldCtx vf h) h.tcb 0 1 tRunning = w at ht
    have hvw : v.Accesses w := hw ▸ State.tcbPut_accesses hpv ho (by omega) 1 tRunning
    have hmw : Memory.wf w.mem = true := hw ▸ State.tcbPut_wf _ _ _ _ _ hml
    have hpw : w.portSees (s.heldCtx vf h).port h.tcb = true := (hvw.portSees ..).trans hpv
    have hstat : w.rdNat h.tcb 1 = 2 := hw ▸ State.rdNat_tcbPut_same hml hpv ho (off := 0) (by omega) 1 2
    have hwt := State.tcbPut_accesses hpw ho (off := 1) (by omega) 1 1
    rw [ht] at hwt
    refine ⟨⟨?_, ?_, State.held?_congr ?_, (s.taskSource vf h true).haul id no now hd ls rs, ?_,
      rfl, rfl, rfl, rfl, rfl, rfl, rfl, rfl⟩, ?_, fun hnew hne => ?_⟩
    · rw [← ht, State.rdNat_tcbPut_of_disjoint hmw hpw ho (by omega) (by omega), hstat]
    · rw [← ht]
      exact State.rdNat_tcbPut_same hmw hpw ho (by omega) 1 1
    · rw [hwt.vf, hvw.vf, htasks]
    · rw [hwt.hauls, hvw.hauls]
      exact hacc.hauls
    · rw [hwt.co, hvw.co]
      exact hacc.co
    · rw [hwt.co, hvw.co]
      exact hco hnew hne

/-- The record under which TSPEC starts a task: that of the coach that spawned it before, speculative
now, or else the issuer's (log 80). -/
def State.specHeld (u : State) (p va : Nat) : Held :=
  match u.held? u.ctx.vf p with
  | some k => { k with spec := true }
  | none => u.newHeld p va true

theorem State.specHeld_spec (u : State) (p va : Nat) :
    (u.specHeld p va).tcb = p ∧ (u.specHeld p va).spec = true := by
  unfold State.specHeld
  split
  · rename_i k hk
    have htcb : k.tcb = p := State.held?_tcb hk
    exact ⟨htcb, rfl⟩
  · exact ⟨rfl, rfl⟩

/-- The state in which TSPEC has the task held anew. -/
def State.holdSpec (u : State) (p va : Nat) : State :=
  (u.unhold u.ctx.vf p).hold u.ctx.vf (u.specHeld p va)

/-- What TSPEC makes of a TCB it has reached, once the issuer has published. -/
def State.specTcb (u : State) (p va : Nat) : State :=
  let vf := u.ctx.vf
  if 2 ≤ u.tstatus p then u
  else if u.tcbBad p then
    u.failTask vf { u.heldCtx vf (u.newHeld p va true) with port := u.ctx.port } p 1
  else (u.holdSpec p va).startTask vf (u.specHeld p va) true

theorem exec_tspec_found {m : Bool} {a : BitVec 6} {p : Nat} (h : s.tcbAccess a = (t, some p)) :
    exec (.tspec m a) s =
      .next (((t.publish 4).specTcb p ((t.publish 4).co.greg a).toNat).finishWord m) := by
  simp only [exec, execTspec, word, h]
  rfl

theorem State.holdSpec_held? (u : State) (p va : Nat) :
    (u.holdSpec p va).held? u.ctx.vf p = some (u.specHeld p va) := by
  have htcb := (u.specHeld_spec p va).1
  have h := State.held?_hold_new (s := u.unhold u.ctx.vf p) (vf := u.ctx.vf) (h := u.specHeld p va)
    (by rw [htcb]; exact State.held?_unhold ..)
  rw [htcb] at h
  exact h

theorem State.tcbBad_hold (s : State) (vf : Nat) (h : Held) (p : Nat) : (s.hold vf h).tcbBad p = s.tcbBad p := by
  unfold State.hold
  split <;> rfl

theorem State.hold_nextId (s : State) (vf : Nat) (h : Held) : (s.hold vf h).nextId = s.nextId := by
  unfold State.hold
  split <;> rfl

/-- What TSPEC leaves at a TCB that its port reaches: what stood there, FAILED, or the task's start. -/
theorem State.specTcb_spec (hm : Memory.wf u.mem = true) {p : Nat} (va : Nat)
    (hp : u.portSees u.ctx.port p = true) (ho : OffHost p) :
    let r := u.specTcb p va
    u.SameCoach r ∧
      if 2 ≤ u.rdNat p 1 then r = u
      else if u.tcbBad p then Fails u r u.ctx.vf p 1
      else StartsSpec (u.holdSpec p va) r u.ctx.vf (u.specHeld p va) := by
  intro r
  by_cases hst : 2 ≤ u.rdNat p 1
  · have hr : r = u := if_pos (by rwa [State.tstatus_eq ho])
    rw [if_pos hst, hr]
    exact ⟨.of_eq rfl, rfl⟩
  have hst' : ¬ 2 ≤ u.tstatus p := by rwa [State.tstatus_eq ho]
  rw [if_neg hst]
  by_cases hb : u.tcbBad p = true
  · let x : Ctx := { u.heldCtx u.ctx.vf (u.newHeld p va true) with port := u.ctx.port }
    have hr : r = u.failTask u.ctx.vf x p 1 := (if_neg hst').trans (if_pos hb)
    rw [if_pos hb, hr]
    exact ⟨.of_eq ((State.Marks.refl hm).failTask u.ctx.vf (x := x) 1 hp ho).co,
      (State.failTask_fails (.refl u) hm (vf := u.ctx.vf) (x := x) 1 hp ho).1⟩
  · have hr : r = (u.holdSpec p va).startTask u.ctx.vf (u.specHeld p va) true :=
      (if_neg hst').trans (if_neg hb)
    have hw : State.Marks p u (u.holdSpec p va) := ((State.Marks.refl hm).unhold _ _).hold _ _
    obtain ⟨hs, hco, hnew⟩ := State.startTask_startsSpec hw.wf u.ctx.vf (h := u.specHeld p va)
      (by rw [(u.specHeld_spec p va).1]; exact ho)
    rw [if_neg hb, hr]
    refine ⟨⟨?_, fun h1 h2 => ?_⟩, hs⟩
    · rw [hw.co] at hco
      exact hco
    · rw [hw.hauls, hw.co, show (u.holdSpec p va).nextId = u.nextId from State.hold_nextId ..] at hnew
      exact hnew h1 h2

/-! ## TCOMMIT and TDISCARD (R84, R237, R320, R374) -/

theorem State.specHaul_mem {vf p : Nat} {h : Haul} (hs : s.specHaul vf p = some h) : h ∈ s.hauls := by
  unfold State.specHaul at hs
  split at hs
  · cases hs
  · split at hs
    · exact (List.mem_filter.mp (List.mem_of_getLast? hs)).1
    · cases hs

theorem exec_tcommit_tdiscard_idle {m : Bool} {a : BitVec 6} {p : Nat} (ha : s.tcbAccess a = (t, some p))
    (hs : t.specHaul t.ctx.vf p = none) :
    exec (.tcommit m a) s = .next (t.finishWord m) ∧ exec (.tdiscard m a) s = .next (t.finishWord m) := by
  simp [exec, execTcommit, execTdiscard, word, ha, hs]

/-- The first set that a task names whose entry the port of the coach's quad does not reach. -/
def State.unseenSet (s : State) (h : Haul) : Option PSet :=
  h.psets.findSome? fun n => (s.pset? s.ctx.vf n).filter fun p => !s.portSees s.ctx.port p.entry

/-- Whether the port of the coach's quad reaches the entry of a set, where it is registered. -/
def State.seesSet (s : State) (n : Nat) : Prop :=
  ∀ q, s.pset? s.ctx.vf n = some q → s.portSees s.ctx.port q.entry = true

theorem State.unseenSet_step {n : Nat} (hn : s.seesSet n) :
    ((s.pset? s.ctx.vf n).filter fun p => !s.portSees s.ctx.port p.entry) = none := by
  cases hq : s.pset? s.ctx.vf n with
  | none => rfl
  | some q => simp [Option.filter, hn q hq]

theorem State.unseenSet_none {h : Haul} (hs : ∀ n ∈ h.psets, s.seesSet n) : s.unseenSet h = none :=
  List.findSome?_eq_none_iff.mpr fun n hn => State.unseenSet_step (hs n hn)

theorem State.unseenSet_some {h : Haul} {l l' : List Nat} {n : Nat} {q : PSet} (hp : h.psets = l ++ n :: l')
    (hl : ∀ i ∈ l, s.seesSet i) (hq : s.pset? s.ctx.vf n = some q) (hn : s.portSees s.ctx.port q.entry = false) :
    s.unseenSet h = some q := by
  have hl0 := List.findSome?_eq_none_iff.mpr fun i hi => State.unseenSet_step (hl i hi)
  rw [State.unseenSet, hp, List.findSome?_append, hl0]
  simp [hq, Option.filter, hn]

/-- What TCOMMIT makes of the task at p that haul h runs, speculative and uncommitted so far. -/
def State.commitTask (s : State) (h : Haul) (p : Nat) : State :=
  let vf := s.ctx.vf
  let u := (s.modHaul h.id fun h => { h with committed := true }).modVf vf fun v =>
    { v with tasks := v.tasks.map fun r => if r.tcb = p then { r with committed := true } else r }
  let u := h.psets.foldl (fun s n => s.publishSet vf n) u
  let u := if h.retired then (u.tcbPut { s.haulCtx h with port := s.ctx.port } p 0 1 tDone).unhold vf p else u
  if h.heldRelease then u.releaseTask { h with committed := true } (u.co.ident.core / 4) u.co.src else u

section commit
variable {m : Bool} {a : BitVec 6} {p : Nat} {h : Haul} (ha : s.tcbAccess a = (t, some p))
  (hs : t.specHaul t.ctx.vf p = some h)
include ha hs

theorem exec_tcommit_unseen {q : PSet} (hu : t.unseenSet h = some q) :
    exec (.tcommit m a) s = .next ((t.trapAll (causeAddr cProt q.entry)).finishWord m) := by
  unfold State.unseenSet at hu
  simp only [exec, execTcommit, word, ha, hs, hu]

theorem exec_tcommit_commits (hu : t.unseenSet h = none) :
    exec (.tcommit m a) s = .next ((t.commitTask h p).finishWord m) := by
  unfold State.unseenSet at hu
  simp only [exec, execTcommit, word, ha, hs, hu]
  rfl

end commit

theorem State.tcbPut_frame (s : State) (x : Ctx) (p off n v : Nat) :
    (s.tcbPut x p off n v).co = s.co ∧ (s.tcbPut x p off n v).hauls = s.hauls := by
  unfold State.tcbPut State.atPort
  split
  · unfold State.poke
    split
    · simp
    · exact ⟨rfl, rfl⟩
  · have hr := (State.Accesses.refl s).refusePort x.port p
    exact ⟨hr.co, hr.hauls⟩

theorem State.publishSet_frame (s : State) (vf id : Nat) :
    let u := s.publishSet vf id
    u.co = s.co ∧ u.hauls = s.hauls ∧ ∀ n, (u.vf n).tasks = (s.vf n).tasks := by
  unfold State.publishSet
  dsimp only
  split
  · exact ⟨rfl, rfl, fun _ => rfl⟩
  · rename_i q _
    refine ⟨rfl, rfl, fun n => ?_⟩
    refine (congrArg Vf.tasks (State.vf_modVf s vf (fun v => { v with psets := v.psets.map fun k =>
      if k.id = q.publish.id then q.publish else k }) n)).trans ?_
    split
    · rw [‹n = vf›]
    · rfl

theorem State.hold_frame (s : State) (vf : Nat) (h : Held) :
    (s.hold vf h).co = s.co ∧ (s.hold vf h).hauls = s.hauls := by
  unfold State.hold
  split <;> exact ⟨rfl, rfl⟩

theorem State.releaseStep_frame (s : State) (h : Haul) (quad va : Nat) :
    (s.releaseStep h quad va).1.co = s.co ∧ (s.releaseStep h quad va).1.hauls = s.hauls := by
  unfold State.releaseStep
  dsimp only
  split
  · exact ⟨rfl, rfl⟩
  have hx := (State.Accesses.refl s).translate (s.releaseCtx h quad) .store va
  generalize s.translate (s.releaseCtx h quad) .store va = r at hx ⊢
  obtain ⟨v, x⟩ := r
  have hv : v.co = s.co ∧ v.hauls = s.hauls := ⟨hx.co, hx.hauls⟩
  have put (w : State) (hw : w.co = s.co ∧ w.hauls = s.hauls) (x : Ctx) (p off n y : Nat) :
      (w.tcbPut x p off n y).co = s.co ∧ (w.tcbPut x p off n y).hauls = s.hauls := by
    simpa [State.tcbPut_frame] using hw
  cases x with
  | found p l b =>
    dsimp only
    split
    · exact hv
    split
    · exact put v hv ..
    split
    · refine put _ ?_ ..
      simpa [State.hold_frame] using put v hv ..
    split
    · exact put v hv ..
    · exact hv
  | _ => exact hv

theorem State.releaseEach_frame (h : Haul) (quad : Nat) (src : Byte) (l : List Nat) (s : State) :
    (State.releaseEach h quad src l s).co = s.co ∧ (State.releaseEach h quad src l s).hauls = s.hauls := by
  induction l generalizing s with
  | nil => exact ⟨rfl, rfl⟩
  | cons va l ih =>
    obtain ⟨hco, hhauls⟩ := s.releaseStep_frame h quad va
    obtain ⟨ico, ihauls⟩ := ih ((s.releaseStep h quad va).1.modQuad quad fun q => q.post
      (releaseRecord src va (s.releaseStep h quad va)))
    exact ⟨ico.trans hco, ihauls.trans hhauls⟩

/-- A release changes no coach, and of the hauls no more than what they have released. -/
theorem State.releaseTask_frame (s : State) (h : Haul) (quad : Nat) (src : Byte) :
    let u := s.releaseTask h quad src
    u.co = s.co ∧ ∀ k ∈ u.hauls, ∃ j ∈ s.hauls, k.id = j.id ∧ k.committed = j.committed := by
  have same : ∀ k ∈ s.hauls, ∃ j ∈ s.hauls, k.id = j.id ∧ k.committed = j.committed :=
    fun k hk => ⟨k, hk, rfl, rfl⟩
  have mod (f : Haul → Haul) (hf : ∀ k, (f k).id = k.id ∧ (f k).committed = k.committed) :
      ∀ k ∈ (s.modHaul h.id f).hauls, ∃ j ∈ s.hauls, k.id = j.id ∧ k.committed = j.committed := by
    intro k hk
    obtain ⟨j, hj, rfl⟩ := List.mem_map.mp hk
    refine ⟨j, hj, ?_⟩
    split
    · exact hf j
    · exact ⟨rfl, rfl⟩
  unfold State.releaseTask
  dsimp only
  split
  · exact ⟨rfl, same⟩
  rename_i p _
  split
  · exact ⟨rfl, same⟩
  split
  · exact ⟨rfl, mod (fun h => { h with heldRelease := true }) fun _ => ⟨rfl, rfl⟩⟩
  have hr := mod (fun h => { h with released := true, heldRelease := false }) fun _ => ⟨rfl, rfl⟩
  generalize hv : (s.modHaul h.id fun h => { h with released := true, heldRelease := false }) = v at hr ⊢
  have hco : v.co = s.co := hv ▸ rfl
  split
  · have hp := (State.Accesses.refl v).refusePort quad p
    exact ⟨hp.co.trans hco, by rw [hp.hauls]; exact hr⟩
  have hx := (State.Accesses.refl v).readSpans (v.releaseCtx h quad)
    (spans (v.peekNat (p + 8) 8) (8 * v.peekNat (p + 0x10) 4))
  rw [← State.readVa] at hx
  generalize v.readVa (v.releaseCtx h quad) (v.peekNat (p + 8) 8) (8 * v.peekNat (p + 0x10) 4) = q at hx ⊢
  obtain ⟨w, g⟩ := q
  have hw : w.co = s.co := hx.co.trans hco
  cases g with
  | ok b =>
    obtain ⟨eco, ehauls⟩ := State.releaseEach_frame h quad src (dwordsOf (v.peekNat (p + 0x10) 4) b) w
    exact ⟨eco.trans hw, by rw [ehauls, hx.hauls]; exact hr⟩
  | _ => exact ⟨hw, by rw [hx.hauls]; exact hr⟩

theorem State.publishSets_frame (vf : Nat) (l : List Nat) (s : State) :
    let u := l.foldl (fun s n => s.publishSet vf n) s
    u.co = s.co ∧ u.hauls = s.hauls ∧ ∀ n, (u.vf n).tasks = (s.vf n).tasks := by
  induction l generalizing s with
  | nil => exact ⟨rfl, rfl, fun _ => rfl⟩
  | cons n l ih =>
    obtain ⟨hco, hhauls, htasks⟩ := s.publishSet_frame vf n
    obtain ⟨ico, ihauls, itasks⟩ := ih (s.publishSet vf n)
    exact ⟨ico.trans hco, ihauls.trans hhauls, fun k => (itasks k).trans (htasks k)⟩

/-- After TCOMMIT the haul and, unless its release was held, the task's record are committed. -/
theorem State.commitTask_spec (s : State) (h : Haul) (p : Nat) :
    let r := s.commitTask h p
    r.co = s.co ∧ (∀ k ∈ r.hauls, k.id = h.id → k.committed = true) ∧
      (h.heldRelease = false → (∀ k ∈ (r.vf s.ctx.vf).tasks, k.tcb = p → k.committed = true) ∧
        (h.psets = [] → h.retired = false → r.mem = s.mem)) := by
  intro r
  generalize hu : ((s.modHaul h.id fun h => { h with committed := true }).modVf s.ctx.vf fun v =>
    { v with tasks := v.tasks.map fun r => if r.tcb = p then { r with committed := true } else r }) = u
  have uco : u.co = s.co := hu ▸ rfl
  have umem : u.mem = s.mem := hu ▸ rfl
  have uhauls : ∀ k ∈ u.hauls, k.id = h.id → k.committed = true := by
    intro k hk hid
    rw [← hu] at hk
    obtain ⟨j, -, rfl⟩ := List.mem_map.mp hk
    by_cases hj : j.id = h.id
    · rw [if_pos hj]
    · rw [if_neg hj] at hid
      exact absurd hid hj
  have utasks : ∀ k ∈ (u.vf s.ctx.vf).tasks, k.tcb = p → k.committed = true := by
    intro k hk htcb
    rw [← hu, State.vf_modVf, if_pos rfl] at hk
    obtain ⟨j, -, rfl⟩ := List.mem_map.mp hk
    by_cases hj : j.tcb = p
    · rw [if_pos hj]
    · rw [if_neg hj] at htcb
      exact absurd htcb hj
  obtain ⟨vco, vhauls, vtasks⟩ := State.publishSets_frame s.ctx.vf h.psets u
  generalize hv : h.psets.foldl (fun x n => x.publishSet s.ctx.vf n) u = v at vco vhauls vtasks
  generalize hw : (if h.retired then
    (v.tcbPut { s.haulCtx h with port := s.ctx.port } p 0 1 tDone).unhold s.ctx.vf p else v) = w
  have hr : r = if h.heldRelease then
      w.releaseTask { h with committed := true } (w.co.ident.core / 4) w.co.src else w := by
    subst hw hv hu
    rfl
  have hwf : w.co = v.co ∧ w.hauls = v.hauls := by
    rw [← hw]
    split
    · exact State.tcbPut_frame ..
    · exact ⟨rfl, rfl⟩
  have whauls : ∀ k ∈ w.hauls, k.id = h.id → k.committed = true := by rwa [hwf.2, vhauls]
  have wco : w.co = s.co := hwf.1.trans (vco.trans uco)
  rw [hr]
  by_cases hheld : h.heldRelease = true
  · rw [if_pos hheld]
    obtain ⟨rco, rhauls⟩ := w.releaseTask_frame { h with committed := true } (w.co.ident.core / 4) w.co.src
    refine ⟨rco.trans wco, fun k hk hid => ?_, fun hno => absurd hheld (by simp [hno])⟩
    obtain ⟨j, hj, hji, hjc⟩ := rhauls k hk
    rw [hjc]
    exact whauls j hj (hji ▸ hid)
  · rw [if_neg hheld]
    refine ⟨wco, whauls, fun _ => ⟨fun k hk htcb => ?_, fun hps hret => ?_⟩⟩
    · rw [← hw] at hk
      split at hk
      · rw [State.unhold, State.vf_modVf, if_pos rfl] at hk
        exact absurd htcb (by simpa using (List.mem_filter.mp hk).2)
      · rw [vtasks] at hk
        exact utasks k hk htcb
    · rw [← hw, if_neg (by simp [hret]), ← hv, hps]
      exact umem

/-- What TDISCARD makes of the task at p that haul h runs, speculative and uncommitted so far. -/
def State.discardTask (s : State) (h : Haul) (p : Nat) : State :=
  let u := (s.tcbPut { s.haulCtx h with port := s.ctx.port } p 0 1 tDiscarded).unhold s.ctx.vf p
  if h.retired then u.modHaul h.id fun h => { h with heldRelease := false, released := true }
  else u.stopHaul h.id 10 0 0

theorem exec_tdiscard_found {m : Bool} {a : BitVec 6} {p : Nat} {h : Haul} (ha : s.tcbAccess a = (t, some p))
    (hs : t.specHaul t.ctx.vf p = some h) :
    exec (.tdiscard m a) s = .next ((t.discardTask h p).finishWord m) := by
  simp only [exec, execTdiscard, word, ha, hs]
  rfl

/-- A haul that is stopped has no coach that goes on, and no register changes (R87, R374). -/
theorem State.stopHaul_coaches (s : State) (haul status : Nat) (detail : Word) (faddr : Dword) :
    let t := s.stopHaul haul status detail faddr
    t.co.regs = s.co.regs ∧ ∀ c ∈ t.allCoaches, c.ident.haul = haul → c.issue.phase = .halted := by
  intro t
  let stop (c : Coach) : Coach :=
    if c.ident.haul = haul ∧ c.present then
      { c with issue := { c.issue with phase := .halted }, traps := { c.traps with held := false } }
    else c
  have hall : t.allCoaches = ((s.co :: s.coaches).map stop).filter Coach.present := rfl
  refine ⟨?_, fun c hc hid => ?_⟩
  · show (stop s.co).regs = s.co.regs
    dsimp only [stop]
    split <;> rfl
  · rw [hall] at hc
    obtain ⟨hm, hpres⟩ := List.mem_filter.mp hc
    obtain ⟨k, -, rfl⟩ := List.mem_map.mp hm
    dsimp only [stop] at hid hpres ⊢
    split
    · rfl
    · rename_i hno
      rw [if_neg hno] at hid hpres
      exact absurd ⟨hid, hpres⟩ hno

theorem State.discardTask_spec (hm : Memory.wf s.mem = true) {h : Haul} {p : Nat} (hh : h ∈ s.hauls)
    (hp : s.portSees s.ctx.port p = true) (ho : OffHost p) :
    let r := s.discardTask h p
    r.rdNat p 1 = 4 ∧ r.held? s.ctx.vf p = none ∧ (∀ x, x ≠ p → Memory.get r.mem x = Memory.get s.mem x) ∧
      r.co.regs = s.co.regs ∧ (h.retired = false → (∀ k ∈ r.hauls, k.id = h.id → k.ended.isSome = true) ∧
        (h.ended = none → ∃ k ∈ r.hauls, k.id = h.id ∧ k.ended = some (10, 0, 0)) ∧
        ∀ c ∈ r.allCoaches, c.ident.haul = h.id → c.issue.phase = .halted) := by
  intro r
  let x : Ctx := { s.haulCtx h with port := s.ctx.port }
  have hput : s.tcbPut x p 0 1 tDiscarded = s.wr p (leBytes 1 tDiscarded) :=
    State.tcbPut_eq (x := x) (off := 0) hp ho (by omega) 1 _
  have hr : r = if h.retired then
        ((s.wr p (leBytes 1 tDiscarded)).unhold s.ctx.vf p).modHaul h.id fun h =>
          { h with heldRelease := false, released := true }
      else ((s.wr p (leBytes 1 tDiscarded)).unhold s.ctx.vf p).stopHaul h.id 10 0 0 := by
    rw [← hput]
    rfl
  have hmem : r.mem = (s.wr p (leBytes 1 tDiscarded)).mem := by
    rw [hr]
    split
    · rfl
    · rw [State.stopHaul_mem]
      rfl
  have hvfs : r.vfs = ((s.wr p (leBytes 1 tDiscarded)).unhold s.ctx.vf p).vfs := by
    rw [hr]
    split <;> rfl
  refine ⟨?_, ?_, fun y hy => ?_, ?_, fun hret => ?_⟩
  · rw [State.rdNat, State.rd, hmem]
    exact State.rdNat_wr_same hm p 1 4
  · refine (State.held?_congr ?_).trans ((s.wr p (leBytes 1 tDiscarded)).held?_unhold s.ctx.vf p)
    rw [State.vf, hvfs, State.vf]
  · rw [hmem]
    exact Memory.get_wr_outside hm (by rw [leBytes_length]; omega)
  · rw [hr]
    split
    · rfl
    · exact (State.stopHaul_coaches ..).1
  · rw [hr, if_neg (by simp [hret])]
    refine ⟨fun k hk hid => ?_, fun hend => ?_, (State.stopHaul_coaches ..).2⟩
    · rw [State.stopHaul_hauls] at hk
      obtain ⟨j, -, rfl⟩ := List.mem_map.mp hk
      by_cases hj : j.id = h.id
      · rw [if_pos hj]
        rfl
      · rw [if_neg hj] at hid
        exact absurd hid hj
    · rw [State.stopHaul_hauls]
      exact ⟨_, List.mem_map_of_mem hh, by rw [if_pos rfl], by rw [if_pos rfl, hend]; rfl⟩

/-- Settles O51: the checks come first (`State.tcbAccess`); what TSPAWN, TSPEC, TCOMMIT and TDISCARD
then do to the TCB is `State.spawnTcb`, `State.specTcb`, `State.commitTask` and `State.discardTask`. -/
theorem taskWordResults : Obligations.TaskWordResults := by
  refine ⟨?refused, ?start, ?finish⟩
  case refused =>
    intro m a s x c i hi k hk
    obtain ⟨v, hv, ht⟩ := State.tcbAccess_refused (s := s) (a := a) hk
    refine ⟨_, exec_tcbWord_refused ht i hi, v, ?_, hv.co, hv.quads, ?_, hv.hauls⟩
    · have hrec := v.trapAll_spec k
      rw [hv.co] at hrec
      exact hrec
    · obtain ⟨_, _, _, _, rfl⟩ := hv
      rfl
  case start =>
    intro m a s t p hm ha ho u vf
    obtain ⟨hacc, hpt⟩ := State.tcbAccess_found ha
    have hut : t.Carries u := (State.Carries.refl t).publish 4
    have hmu : Memory.wf u.mem = true := State.publish_wf 4 (wf_of_eq ha (State.tcbAccess_wf a hm))
    have hctx : u.ctx = s.ctx := hut.ctx.trans (State.ctx_congr hacc.co hacc.hauls)
    have hpu : u.portSees u.ctx.port p = true := by rw [hctx, hut.portSees, hpt]
    have hreg : u.co.greg a = s.co.greg a := by rw [hut.co, hacc.co]; rfl
    have hasid : u.co.special.asid = s.co.special.asid := by rw [hut.co, hacc.co]
    refine ⟨⟨_, exec_tspawn_found ha, ?_⟩, _, exec_tspec_found ha, ?_⟩
    · obtain ⟨hmarks, hr⟩ := State.spawnTcb_spec hmu (u.co.greg a).toNat hpu ho
      refine ⟨hmarks.co, hmarks.outside, ?_⟩
      rw [hctx] at hr
      split
      · rwa [if_pos ‹_›] at hr
      rw [if_neg ‹_›] at hr
      split
      · rwa [if_pos ‹_›] at hr
      rw [if_neg ‹_›] at hr
      exact ⟨⟨_, hr.1, rfl, congrArg BitVec.toNat hreg, hasid⟩, hr.2⟩
    · obtain ⟨⟨hco, hnew⟩, hr⟩ := State.specTcb_spec hmu (u.co.greg a).toNat hpu ho
      generalize u.specTcb p (u.co.greg a).toNat = r at hco hnew hr ⊢
      refine ⟨hco, hnew, ?_⟩
      intro h w x bare fails
      have hh : h = u.specHeld p (u.co.greg a).toNat := by
        rw [State.specHeld, hctx, hreg] <;> rfl
      have hw : w = u.holdSpec p (u.co.greg a).toNat := by
        rw [State.holdSpec, hctx, ← hh]
      have htcb : h.tcb = p := hh ▸ (u.specHeld_spec p _).1
      have hwhauls : w.hauls = u.hauls := (State.hold_frame (u.unhold vf p) vf h).2
      have hheld : w.held? vf p = some h := by
        rw [hw, hh, show vf = u.ctx.vf from by rw [hctx]]
        exact u.holdSpec_held? ..
      rw [hctx, ← hh, ← hw] at hr
      split
      · rwa [if_pos ‹_›] at hr
      rw [if_neg ‹_›] at hr
      split
      · rw [if_pos ‹_›] at hr
        obtain ⟨hst, hres, hnone, hhauls, -⟩ := hr
        exact ⟨hst, hres, hnone, hhauls⟩
      have hbad : ¬ w.tcbBad p = true := by
        rwa [show w.tcbBad p = u.tcbBad p from State.tcbBad_hold ..]
      rw [if_neg ‹_›, StartsSpec, htcb] at hr
      have hfails (e : Nat) (hf : Fails w r vf p e) : fails e := by
        obtain ⟨hst, hres, hnone, hhauls, -⟩ := hf
        exact ⟨hst, hres, hnone, hhauls.trans hwhauls⟩
      rw [hwhauls] at hr
      split
      · rwa [if_pos ‹_›] at hr
      rw [if_neg ‹_›] at hr
      split
      · rw [if_pos ‹_›] at hr
        exact hfails 9 hr
      rw [if_neg ‹_›, if_neg hbad] at hr
      split
      · rename_i e he
        rw [he] at hr
        exact hfails e hr
      · rename_i hd ls rs hi
        rw [hi] at hr
        obtain ⟨hst, hflag, hkept, k, hk⟩ := hr
        exact ⟨hst, hflag, ⟨h, hkept.trans hheld, hh ▸ (u.specHeld_spec p _).2⟩, k, hk⟩
  case finish =>
    intro m a s t p hm ha ho vf
    obtain ⟨hacc, hpt⟩ := State.tcbAccess_found ha
    have hmt : Memory.wf t.mem = true := wf_of_eq ha (State.tcbAccess_wf a hm)
    have hctx : t.ctx = s.ctx := State.ctx_congr hacc.co hacc.hauls
    have hvf : vf = t.ctx.vf := by rw [hctx]
    rw [hvf]
    refine ⟨exec_tcommit_tdiscard_idle ha, fun h hs => ?_⟩
    intro seen
    refine ⟨fun l n l' q hp hl hq hn => ?_, fun hall => ?_, ?_⟩
    · refine ⟨_, exec_tcommit_unseen ha hs (State.unseenSet_some hp hl hq hn), ?_⟩
      have hrec := t.trapAll_spec (causeAddr cProt q.entry)
      rw [hacc.co] at hrec
      exact hrec
    · exact ⟨_, exec_tcommit_commits ha hs (State.unseenSet_none hall), t.commitTask_spec h p⟩
    · have hd := State.discardTask_spec hmt (State.specHaul_mem hs) (hctx ▸ hpt) ho
      rw [hacc.co] at hd
      exact ⟨_, exec_tdiscard_found ha hs, hd⟩

end Sys2Proof.Machine
end

section
/-! # O58: packets (R34, R50 to R53, R59, R64, R65, R67, R368, R400; logs 62, 79)

What a queue's steps write is bytes of its QCB (`State.setQstate_eq`); what a packet does is an access
in the queue's address space (`State.atomicVa_made`, `State.launch_accepted`). -/

namespace Sys2Proof.Machine
variable {s t u v : State}

/-! ## Queues and their QCBs (R55, R59) -/

theorem State.Accesses.queues (h : s.Accesses t) : t.queues = s.queues := by obtain ⟨_, _, _, _, rfl⟩ := h; rfl
theorem State.Accesses.time (h : s.Accesses t) : t.dev.time = s.dev.time := by obtain ⟨_, _, _, _, rfl⟩ := h; rfl

theorem State.queue?_modQueue {id : Nat} {f : Queue → Queue} (hf : ∀ q, (f q).id = q.id) :
    (s.modQueue id f).queue? id = (s.queue? id).map f := by
  have hp : ((fun q : Queue => q.id == id) ∘ fun q => if q.id = id then f q else q) = fun q => q.id == id := by
    funext q
    by_cases hq : q.id = id <;> simp [hq, hf]
  rw [State.queue?, State.modQueue_queues, List.find?_map, hp, State.queue?]
  cases hq : s.queues.find? fun q => q.id == id with
  | none => rfl
  | some q =>
    have hid : q.id = id := by simpa using List.find?_some hq
    simp [hid]

theorem State.rdNat_wr_byte (hm : Memory.wf s.mem = true) (a : Nat) (x : Byte) :
    (s.wr a [x]).rdNat a 1 = x.toNat := by
  have h := State.rd_wr_same hm a [x]
  rw [List.length_singleton] at h
  rw [State.rdNat, h]
  simp [leNat]

theorem State.rdNat_wr_outside (hm : Memory.wf s.mem = true) {a c k : Nat} {b : List Byte}
    (h : c + k ≤ a ∨ a + b.length ≤ c) : (s.wr a b).rdNat c k = s.rdNat c k := by
  rw [State.rdNat, State.rd_wr_of_disjoint hm h, State.rdNat]

section queue
variable {q : Queue}

theorem State.qcbPut_eq (hseen : s.qcbSeen q = true) (off : Nat) (b : List Byte) :
    s.qcbPut q off b = s.wr (q.qcb + off) b := by
  unfold State.qcbSeen at hseen
  simp [State.qcbPut, State.atPort, hseen]

theorem State.qcbSeen_wr (a : Nat) (b : List Byte) : (s.wr a b).qcbSeen q = s.qcbSeen q :=
  ((State.Accesses.refl s).wr a b).portSees ..

/-- With no queue of the VF deferred, a change of STATE is a byte written. -/
theorem State.setQstate_eq (hseen : s.qcbSeen q = true) (hd : (s.vf q.vf).deferred = []) (n : Nat) :
    s.setQstate q n = s.wr (q.qcb + 1) [BitVec.ofNat 8 n] := by
  unfold State.setQstate
  dsimp only
  rw [State.qcbPut_eq hseen]
  split
  · have hd' : ((s.wr (q.qcb + 1) [BitVec.ofNat 8 n]).vf q.vf).deferred = [] := hd
    rw [State.activateDeferred, hd']
  · rfl

theorem State.reads_spec (hr : s.reads q = true) : s.leads = true ∧ s.qcb q 1 1 = 1 ∧ q.force = [] := by
  simp only [State.reads, Bool.and_eq_true, beq_iff_eq] at hr
  obtain ⟨⟨⟨⟨⟨hl, hs⟩, hf⟩, -⟩, -⟩, -⟩ := hr
  exact ⟨hl, hs, hf⟩

/-- An ACTIVE queue with nothing left turns IDLE (R59). -/
theorem State.settleQueue_idles (hm : Memory.wf s.mem = true) (hq : s.queue? q.id = some q)
    (hseen : s.qcbSeen q = true) (hr : s.reads q = true) (hwr : s.qcb q 0x10 4 = q.rdidx)
    (hdone : q.packets.all Packet.done = true) (hd : (s.vf q.vf).deferred = []) :
    (s.settleQueue q.id).qcb q 1 1 = 0 := by
  obtain ⟨-, hst, hf⟩ := State.reads_spec hr
  have he : s.settleQueue q.id = (s.modQueue q.id fun q => { q with packets := [] }).setQstate q qIdle := by
    simp [State.settleQueue, hq, hdone, hseen, hf, State.qstate, hst, qActive, hwr]
  generalize hu : (s.modQueue q.id fun q => { q with packets := [] }) = u at he
  have hmu : Memory.wf u.mem = true := hu ▸ hm
  have huseen : u.qcbSeen q = true := hu ▸ hseen
  have hud : (u.vf q.vf).deferred = [] := hu ▸ hd
  rw [he, State.setQstate_eq huseen hud]
  exact State.rdNat_wr_byte hmu ..

/-- A queue that stands in no error enters it with its cause; nothing else of memory changes where no
ERRSIG is named (R67). -/
theorem State.queueError_spec (hm : Memory.wf s.mem = true) (hseen : s.qcbSeen q = true) (hst : s.qcb q 1 1 ≠ 3)
    {n : Nat} (hn : n < 256) (hsig : s.qcb q 0x18 8 = 0) (hd : (s.vf q.vf).deferred = []) :
    let t := s.queueError q n
    t.qcb q 1 1 = 3 ∧ t.qcb q 7 1 = n ∧ (∀ k ∈ t.queues, k.id = q.id → k.stopped = true) ∧
      ∀ x, x ≠ q.qcb + 1 → x ≠ q.qcb + 7 → Memory.get t.mem x = Memory.get s.mem x := by
  intro t
  generalize hu : (s.modVf q.vf fun v => { v with deferred := v.deferred.filter (· != q.id) }) = u
  have umem : u.mem = s.mem := hu ▸ rfl
  have useen : u.qcbSeen q = true := by
    rw [← hu]
    exact (State.portSees_modVf (f := fun v => { v with deferred := v.deferred.filter (· != q.id) })
      (fun _ => rfl) ..).trans hseen
  have ud : (u.vf q.vf).deferred = [] := by
    rw [← hu, State.vf_modVf, if_pos rfl]
    simp [hd]
  have hmu : Memory.wf u.mem = true := umem ▸ hm
  generalize hv : u.wr (q.qcb + 1) [BitVec.ofNat 8 qError] = v
  have hmv : Memory.wf v.mem = true := hv ▸ State.wr_wf _ _ hmu
  have vseen : v.qcbSeen q = true := by rw [← hv, State.qcbSeen_wr, useen]
  generalize hw : v.wr (q.qcb + 7) [BitVec.ofNat 8 n] = w
  have hwsig : w.qcb q 0x18 8 = 0 := by
    rw [← hw, ← hv, State.qcb, State.rdNat_wr_outside (hv ▸ hmv) (by simp), State.rdNat_wr_outside hmu (by simp),
      State.rdNat, State.rd, umem]
    exact hsig
  have ht : t = w.modQueue q.id fun q => { q with stopped := true } := by
    show s.queueError q n = _
    unfold State.queueError
    rw [if_neg (show ¬ s.qstate q = qError from hst)]
    dsimp only
    rw [hu, State.setQstate_eq useen ud, hv, State.qcbPut_eq vseen, hw, State.writeErrsig, if_pos hwsig]
  rw [ht]
  refine ⟨?_, ?_, fun k hk hid => ?_, fun x h1 h7 => ?_⟩
  · show w.rdNat (q.qcb + 1) 1 = 3
    rw [← hw, State.rdNat_wr_outside hmv (by simp), ← hv]
    exact State.rdNat_wr_byte hmu ..
  · show w.rdNat (q.qcb + 7) 1 = n
    rw [← hw, State.rdNat_wr_byte hmv]
    simp [Nat.mod_eq_of_lt hn]
  · obtain ⟨j, -, rfl⟩ := List.mem_map.mp hk
    by_cases hj : j.id = q.id
    · rw [if_pos hj]
    · rw [if_neg hj] at hid
      exact absurd hid hj
  · show Memory.get w.mem x = _
    rw [← hw, Memory.get_wr_outside hmv (by simp; omega), ← hv, Memory.get_wr_outside hmu (by simp; omega), umem]

theorem State.queueError_again (hst : s.qcb q 1 1 = 3) (n : Nat) : s.queueError q n = s := if_pos hst

/-! ## Reading packets (R50, R51, R64) -/

theorem exec_packetFetch_unseen (hq : s.queue? q.id = some q) (hl : s.leads = true) (hseen : s.qcbSeen q = false) :
    exec (.packetFetch q.id) s = .next (s.countRefused q.qcb) := by
  simp [exec, execPacketFetch, hq, hl, hseen]

variable (hq : s.queue? q.id = some q) (hseen : s.qcbSeen q = true) (hr : s.reads q = true)
include hq hseen hr

theorem exec_packetFetch_reads (hn : q.reading = none) : exec (.packetFetch q.id) s = .next (s.fetchPacket q) := by
  simp [exec, execPacketFetch, hq, hseen, hr, hn]

theorem exec_packetFetch_journals {b : List Byte} (hb : q.reading = some b) :
    exec (.packetFetch q.id) s = .next (s.journalPacket q b) := by
  simp [exec, execPacketFetch, hq, hseen, hr, hb]

omit hseen hr in
/-- A packet of sound format goes into the journal and waits last to start. -/
theorem State.journalPacket_takes (hm : Memory.wf s.mem = true) {b : List Byte} (hb : packetBad b = false) :
    let t := s.journalPacket q b
    let n := (q.rdidx + 1) % 2 ^ 32
    t.mem = (s.wrNat (q.qcb + 0x14) 4 n).mem ∧ t.rdNat (q.qcb + 0x14) 4 = n ∧ t.co = s.co ∧
      t.queue? q.id = some { q with reading := none, rdidx := n, packets := (q.packets.filter fun p => !p.done) ++
        [{ index := q.rdidx, bytes := b, started := false, done := false, at_ := 0 }] } := by
  intro t n
  let f (q : Queue) : Queue := { q with reading := none, rdidx := n }
  let g (k : Queue) : Queue := { k with packets := (k.packets.filter fun p => !p.done) ++
    [{ index := q.rdidx, bytes := b, started := false, done := false, at_ := 0 }] }
  have ht : t = ((s.wrNat (q.qcb + 0x14) 4 n).modQueue q.id f).modQueue q.id g := by
    show s.journalPacket q b = _
    unfold State.journalPacket
    dsimp only
    rw [if_neg (by simp [hb])]
  have hwq : (s.wrNat (q.qcb + 0x14) 4 n).queue? q.id = some q := hq
  rw [ht]
  refine ⟨rfl, ?_, rfl, ?_⟩
  · refine (State.rdNat_wr_same hm (q.qcb + 0x14) 4 n).trans ?_
    omega
  · rw [State.queue?_modQueue (f := g) fun _ => rfl, State.queue?_modQueue (f := f) fun _ => rfl, hwq]
    rfl

end queue

/-! ## Accesses that packets make (R52, R400) -/

section access
variable {x : Ctx} {a n h : Nat} {l : Dword} {b : Nat} {f : Nat → Nat}

theorem State.atomicVa_refused {g : Xl} (hx : s.translate x .store a = (v, g)) (hg : ∀ h l b, g ≠ .found h l b) :
    s.atomicVa x a n f = (v, false) := by
  unfold State.atomicVa
  rw [hx]
  cases g with
  | found h l b => exact absurd rfl (hg h l b)
  | _ => rfl

theorem State.atomicVa_poisoned (hx : s.translate x .store a = (v, .found h l b)) (hp : v.poisoned h n = true) :
    s.atomicVa x a n f = (v, false) := by
  simp [State.atomicVa, hx, hp]

theorem State.atomicVa_made (hx : s.translate x .store a = (v, .found h l b)) (hp : v.poisoned h n = false)
    (hh : isHost h = false) : s.atomicVa x a n f = (v.wrNat h n (f (v.rdNat h n)), true) := by
  simp [State.atomicVa, hx, hp, State.atomicAt, State.sinkHost, hh]

/-- Bytes that lie in one block of 64 are one piece (R400). -/
theorem spans_of_one_block {n : Nat} (hn : 0 < n) (h : (a + n - 1) / 64 = a / 64) : spans a n = [(a, n)] := by
  have h1 : (a % 64 + n + 63) / 64 = 1 := by omega
  have h2 : max a (a / 64 * 64) = a := by omega
  have h3 : min (a + n) (a / 64 * 64 + 64) - a = n := by omega
  simp [spans, h1, h2, h3, Nat.pos_iff_ne_zero.mp hn]

theorem State.writeVa_of_one_block {b : List Byte} {n : Nat} (hb : b ≠ []) (ha : (a + b.length - 1) / 64 = a / 64)
    (hx : s.translate x .store a = (v, .found h l n)) (hh : isHost h = false) :
    s.writeVa x a b = (v.wr h b, .ok []) := by
  rw [State.writeVa, spans_of_one_block (List.length_pos_iff.mpr hb) ha]
  simp [State.writeHomes, hx, State.pokeAll, State.poke, hh]

end access

/-! ## Flushing host copies (R313) -/

theorem State.flushHost_spec (s : State) (o : Nat × BitVec 16) :
    (s.flushHost o).co = s.co ∧ ∀ k ∈ (s.flushHost o).hostCopies, (o ∈ k.owners → k.dirty = false) ∧
      ∃ j ∈ s.hostCopies, k.owners = j.owners ∧ (j.dirty = false → k.dirty = false) := by
  have hf (l : List HostCopy) : (l.foldl State.writeBack s).co = s.co ∧
      (l.foldl State.writeBack s).hostCopies = s.hostCopies :=
    ⟨foldl_frame (f := State.writeBack) (g := State.co) (fun _ _ => rfl) l s, foldl_frame (f := State.writeBack) (g := State.hostCopies)
      (fun _ _ => rfl) l s⟩
  obtain ⟨hco, hcopies⟩ := hf (s.hostCopies.filter fun h => h.dirty && h.owners.contains o)
  refine ⟨hco, fun k hk => ?_⟩
  rw [State.flushHost, hcopies] at hk
  obtain ⟨j, hj, rfl⟩ := List.mem_map.mp hk
  by_cases ho : o ∈ j.owners
  · rw [if_pos (by simpa using ho)]
    exact ⟨fun _ => rfl, j, hj, rfl, fun _ => rfl⟩
  · rw [if_neg (by simpa using ho)]
    exact ⟨fun h => absurd h ho, j, hj, rfl, id⟩

theorem flushHosts_spec (l : List (Nat × BitVec 16)) (s : State) :
    (l.foldl State.flushHost s).co = s.co ∧ ∀ k ∈ (l.foldl State.flushHost s).hostCopies,
      (∀ o ∈ l, o ∈ k.owners → k.dirty = false) ∧
      ∃ j ∈ s.hostCopies, k.owners = j.owners ∧ (j.dirty = false → k.dirty = false) := by
  induction l generalizing s with
  | nil => exact ⟨rfl, fun k hk => ⟨by simp, k, hk, rfl, id⟩⟩
  | cons o l ih =>
    obtain ⟨hco, hclean⟩ := s.flushHost_spec o
    obtain ⟨ico, iclean⟩ := ih (s.flushHost o)
    refine ⟨ico.trans hco, fun k hk => ?_⟩
    obtain ⟨hl, j, hj, hown, hjk⟩ := iclean k hk
    obtain ⟨ho, i, hi, hown', hij⟩ := hclean j hj
    refine ⟨fun o' ho' hk' => ?_, i, hi, hown.trans hown', fun h => hjk (hij h)⟩
    rcases List.mem_cons.mp ho' with rfl | hmem
    · exact hjk (ho (hown ▸ hk'))
    · exact hl o' hmem hk'

/-- What a FENCE of scope 1 does: the host copies of every haul launched from the queue are flushed. -/
def State.flushLaunched (s : State) (q : Queue) : State :=
  ((s.hauls.filter fun h => h.fromQueue q).map fun h => (h.vf, h.asid)).dedup.foldl State.flushHost s

theorem State.flushLaunched_spec (s : State) (q : Queue) :
    let v := s.flushLaunched q
    v.co = s.co ∧ ∀ h ∈ s.hauls, h.vf = q.vf → h.pasid = q.pasid → h.qno = some q.qno → ∀ k ∈ v.hostCopies,
      (h.vf, h.asid) ∈ k.owners → k.dirty = false := by
  obtain ⟨hco, hclean⟩ :=
    flushHosts_spec ((s.hauls.filter fun h => h.fromQueue q).map fun h => (h.vf, h.asid)).dedup s
  refine ⟨hco, fun h hh hvf hpasid hqno k hk => (hclean k hk).1 _ ?_⟩
  rw [List.mem_dedup]
  refine List.mem_map_of_mem (f := fun h : Haul => (h.vf, h.asid)) (List.mem_filter.mpr ⟨hh, ?_⟩)
  simp [Haul.fromQueue, hvf, hpasid, hqno]

/-! ## Starting packets (R52, R53) -/

section start
variable {i j : Nat} {q : Queue} {p : Packet}

theorem exec_nopPacket (h : s.startable i j 0 = some (q, p)) :
    exec (.nopPacket i j) s = .next ((s.startPacket i j).packetDone i j) := by
  simp [exec, execNopPacket, h]

theorem exec_waitPacket (h : s.startable i j 3 = some (q, p)) : exec (.waitPacket i j) s = .next (s.startPacket i j) := by
  simp [exec, execWaitPacket, h]

theorem exec_dcopyPacket (h : s.startable i j 6 = some (q, p)) :
    exec (.dcopyPacket i j) s = .next (s.startPacket i j) := by
  simp [exec, execDcopyPacket, h]

theorem exec_fencePacket (h : s.startable i j 4 = some (q, p)) :
    exec (.fencePacket i j) s = .next ((if p.arg = 1 then (s.startPacket i j).flushLaunched q
      else s.startPacket i j).packetDone i j) := by
  simp only [exec, execFencePacket, h]
  rfl

theorem exec_signalPacket (h : s.startable i j 2 = some (q, p)) :
    let u := s.startPacket i j
    let r := u.atomicVa (u.queueCtx q) (p.dw 8) 8 (signalOp p.arg (p.dw 16))
    exec (.signalPacket i j) s = .next (r.1.endPacket i j r.2) := by
  simp [exec, execSignalPacket, h]

theorem exec_markerPacket (h : s.startable i j 5 = some (q, p)) :
    let u := s.startPacket i j
    let r := u.writeVa (u.queueCtx q) (p.dw 8) (leBytes 8 (p.dw 16))
    let z := r.1.writeVa (u.queueCtx q) (p.dw 8 + 8) (leBytes 8 s.dev.time.toNat)
    exec (.markerPacket i j) s = .next (z.1.endPacket i j (decide (r.2 = .ok []) && decide (z.2 = .ok []))) := by
  simp only [exec, execMarkerPacket, h]
  rfl

theorem exec_launchPacket (h : s.startable i j 1 = some (q, p)) :
    let u := s.startPacket i j
    exec (.launchPacket i j) s = .next (match u.launch (u.launchSource q p) with
      | (v, .ok _) => v
      | (v, .error e) =>
        let r := v.recordAndSignal (v.queueCtx q) (p.dw 24) (p.dw 16)
          (recordBytes e (if e = 9 then 8 else 0) (p.dw 8) 0 0 v.dev.time v.dev.time 0)
        r.1.endPacket i j r.2) := by
  simp only [exec, execLaunchPacket, h] <;> rfl

end start

/-- What SIGNAL writes, as the 8 bytes of its dword hold it. -/
theorem signalOp_mod (op value old : Nat) :
    signalOp op value old % 256 ^ 8 = if op = 0 then value % 2 ^ 64 else if op = 1 then (old + value) % 2 ^ 64
      else (old + 2 ^ 64 - value) % 2 ^ 64 := by
  rw [show 256 ^ 8 = 2 ^ 64 by norm_num]
  match op with
  | 0 => rw [signalOp, if_pos rfl]
  | 1 => rw [signalOp, Nat.mod_mod, if_neg (by omega), if_pos rfl]
  | _ + 2 => rw [signalOp, Nat.mod_mod, if_neg (by omega), if_neg (by omega)] <;> omega

/-- What an acceptance leaves: the new haul, its number the VF's next launch (R131, R318). -/
theorem State.launch_accepted {x : Source} {i : Header × List LiftDesc × List SavedRake}
    (h : s.launchImage x = (u, .ok i)) :
    let t := (s.launch x).1
    let no := (s.vf x.vf).launches + 1
    t.hauls.map Haul.bare =
      s.hauls.map Haul.bare ++ [(x.haul s.nextId no s.dev.time i.1 i.2.1 i.2.2).bare] ∧
      (t.vf x.vf).launches = no := by
  obtain ⟨hd, ls, rs⟩ := i
  have hsu : s.Accesses u := .of_eq h (s.launchImage_accesses x)
  have hw := keepAreas_accesses (.refl
    ((u.newId).modVf x.vf fun v => { v with launches := (u.vf x.vf).launches + 1 })) u.nextId rs
  have hz := (State.Completes.refl (u.accepted x (hd, ls, rs))).completeSaved u.nextId
  rw [State.launch_read h]
  dsimp only
  constructor
  · rw [hz.hauls, State.accepted]
    dsimp only
    rw [List.map_append, hw.hauls, hw.time, ← hsu.hauls, ← hsu.vf, ← hsu.nextId, ← hsu.time]
    rfl
  · rw [hz.vf]
    refine (congrArg Vf.launches (hw.vf x.vf)).trans ?_
    rw [State.vf_modVf, if_pos rfl, hsu.vf]

/-! ## Packets under way (R52, R400) -/

section pending
variable {i j : Nat} {q : Queue} {p : Packet}

theorem exec_waitPoll (h : s.pending i j 3 = some (q, p)) :
    exec (.waitPoll i j) s = .next (if s.waitOver p then s.failPacket i j 3
      else match s.translate (s.queueCtx q) .load (p.dw 8) with
      | (s, .found h _ _) =>
        if s.poisoned h 8 then s.failPacket i j 4
        else if waitCond p.arg (s.peekNat h 8) (p.dw 16) then s.packetDone i j
        else s
      | (s, _) => s.failPacket i j 4) := by
  simp only [exec, execWaitPoll, h] <;> rfl

theorem exec_waitTimeout (h : s.pending i j 3 = some (q, p)) (h0 : p.dw 24 ≠ 0)
    (hl : p.dw 24 * 100 ≤ (s.dev.time - p.at_).toNat) :
    exec (.waitTimeout i j) s = .next (s.failPacket i j 3) := by
  simp only [exec, execWaitTimeout, h]
  exact congrArg _ (if_pos ⟨h0, hl⟩)

theorem waitCond_iff (c x y : Nat) :
    waitCond c x y = true ↔ (c = 0 ∧ x = y) ∨ (c = 1 ∧ x ≠ y) ∨ (c = 2 ∧ y ≤ x) ∨ (3 ≤ c ∧ x < y) := by
  unfold waitCond
  match c with
  | 0 => simp
  | 1 => simp
  | 2 => simp
  | c + 3 => simp

theorem exec_dcopyPacketComplete_stops (h : s.pending i j 6 = some (q, p))
    (hc : State.copyBytes (s.queueCtx q) (p.dw 24) (p.dw 8) (p.dw 16) s = (v, false)) :
    exec (.dcopyPacketComplete i j) s = .next (v.failPacket i j 4) := by
  simp only [exec, execDcopyPacketComplete, h, hc]

theorem exec_dcopyPacketComplete_copied (h : s.pending i j 6 = some (q, p))
    (hc : State.copyBytes (s.queueCtx q) (p.dw 24) (p.dw 8) (p.dw 16) s = (v, true)) :
    let r := v.recordAndSignal (s.queueCtx q) 0 (p.dw 32) []
    exec (.dcopyPacketComplete i j) s = .next (r.1.endPacket i j r.2) := by
  simp only [exec, execDcopyPacketComplete, h, hc]

end pending


/-- With no record asked for, what is left is the signal. -/
theorem State.recordAndSignal_signal (x : Ctx) {sig : Nat} (hs : sig ≠ 0) (b : List Byte) :
    s.recordAndSignal x 0 sig b = s.atomicVa x sig 8 fun n => (n + (2 ^ 64 - 1)) % 2 ^ 64 := by
  simp [State.recordAndSignal, hs]

/-- Settles O58: a packet's step is an access in its queue's address space, and the packet then ends
by `State.packetDone` or `State.failPacket`. -/
theorem packetSteps : Obligations.PacketSteps := by
  refine ⟨⟨?unseen, ?read, ?journal, ?error, ?again⟩, ?start, ?poll, ?copy, ?block⟩
  case unseen => exact fun s q hq hl hseen => exec_packetFetch_unseen hq hl hseen
  case read =>
    intro s q wr rd size at_ hq hseen hr hn hm
    have hfetch : s.fetchPacket q = if wr = rd then s.settleQueue q.id
        else if size < (wr + 2 ^ 32 - rd) % 2 ^ 32 then (s.queueError q 1).settleQueue q.id
        else match s.readVa (s.queueCtx q) at_ 64 with
          | (s, .ok b) => s.modQueue q.id fun q => { q with reading := some b }
          | (s, _) => (s.queueError q 4).settleQueue q.id := rfl
    refine ⟨_, exec_packetFetch_reads hq hseen hr hn, fun hwr => ?_, fun hwr hbig => ?_, fun hwr hfit u g hg => ?_⟩
    · rw [hfetch, if_pos hwr]
      exact ⟨rfl, State.settleQueue_idles hm hq hseen hr hwr⟩
    · rw [hfetch, if_neg hwr, if_pos hbig]
    · rw [hfetch, if_neg hwr, if_neg (by omega), hg]
      have hsu : s.Accesses u := .of_eq hg ((State.Accesses.refl s).readSpans _ _)
      cases g with
      | ok b =>
        refine ⟨rfl, hsu.co, ?_⟩
        dsimp only
        rw [State.queue?_modQueue (f := fun q => { q with reading := some b }) fun _ => rfl, State.queue?, hsu.queues,
          ← State.queue?, hq]
        rfl
      | _ => rfl
  case journal =>
    intro s q b rd hq hseen hr hb hm
    refine ⟨_, exec_packetFetch_journals hq hseen hr hb, ?_⟩
    intro v
    split
    · rename_i hbad
      exact if_pos hbad
    · rename_i hbad
      exact State.journalPacket_takes hq hm (by simpa using hbad)
  case error =>
    intro s q n hm hseen hst hn hsig hd
    exact State.queueError_spec hm hseen hst hn hsig hd
  case again => exact fun s q n hst => State.queueError_again hst n
  case start =>
    intro s q p hp u x
    refine ⟨fun hk => ?_, fun hk => ?_, fun hk => ?_, fun hk ha => ?_, fun hk ha => ?_, fun hk v g hx hg => ?_,
      fun hk v h l b hx hh hm => ?_, fun hk w g z k hw hz => ?_, fun hk => ?_⟩
    all_goals rw [hk] at hp
    · exact exec_nopPacket hp
    · exact exec_waitPacket hp
    · exact exec_dcopyPacket hp
    · rw [exec_fencePacket hp, if_neg ha]
    · rw [exec_fencePacket hp, if_pos ha]
      exact ⟨_, _, rfl, rfl, u.flushLaunched_spec q⟩
    · rw [exec_signalPacket hp, State.atomicVa_refused hx hg]
      rfl
    · split
      · rename_i hc
        rw [exec_signalPacket hp, State.atomicVa_poisoned hx hc]
        rfl
      · rename_i hc
        rw [exec_signalPacket hp, State.atomicVa_made hx (by simpa using hc) hh]
        have hmv : Memory.wf v.mem = true := wf_of_eq hx (State.translate_wf _ _ _ hm)
        refine ⟨_, _, rfl, rfl, ?_, fun y hy => Memory.get_wr_outside hmv (by rw [leBytes_length]; exact hy)⟩
        rw [State.wrNat, State.rdNat_wr_same hmv, signalOp_mod]
    · rw [exec_markerPacket hp, hw, hz]
      simp
    · refine ⟨_, exec_launchPacket hp, fun v g hi => ?_⟩
      have hi : u.launchImage (u.launchSource q p) = (v, g) := hi
      have huv : u.Accesses v := .of_eq hi (u.launchImage_accesses _)
      cases g with
      | ok i =>
        obtain ⟨hauls, number⟩ := State.launch_accepted hi
        rw [State.launch_read hi] at hauls number ⊢
        exact ⟨_, hauls, rfl, rfl, rfl, rfl, rfl, rfl, rfl, rfl, rfl, rfl, rfl, rfl, rfl, number⟩
      | error e =>
        rw [State.launch_refused (congrArg Prod.snd hi), hi]
        refine ⟨huv.hauls, ?_⟩
        dsimp only
        rw [huv.time]
        rfl
  case poll =>
    intro s q p hp late
    have hlate : s.waitOver p = true ↔ late := by
      rw [State.waitOver, Bool.and_eq_true, bne_iff_ne, decide_eq_true_iff]
      rfl
    rw [exec_waitPoll hp]
    refine ⟨fun hl => ?_, fun v g hl hx hg => ?_, fun v h l b hl hx hc => ?_, fun v h l b hl hx hc => ?_,
      exec_waitTimeout hp⟩
    · rw [if_pos (hlate.mpr hl)]
    · rw [if_neg (mt hlate.mp hl), hx]
      cases g with
      | found h l b => exact absurd rfl (hg h l b)
      | _ => rfl
    · rw [if_neg (mt hlate.mp hl), hx]
      exact congrArg _ (if_pos hc)
    · rw [if_neg (mt hlate.mp hl), hx]
      dsimp only
      rw [if_neg (by simp [hc])]
      simp only [waitCond_iff]
  case copy =>
    intro s q p hp
    refine ⟨fun v hc => exec_dcopyPacketComplete_stops hp hc, fun v hc => ?_⟩
    rw [exec_dcopyPacketComplete_copied hp hc]
    refine ⟨fun h0 => by rw [h0]; rfl, fun h0 w g hx => ?_⟩
    rw [State.recordAndSignal_signal _ h0]
    cases g with
    | found h l b =>
      dsimp only
      split
      · rename_i hbad
        rw [State.atomicVa_poisoned hx hbad]
        rfl
      · rename_i hbad
        intro hh hm
        rw [State.atomicVa_made hx (by simpa using hbad) hh]
        refine ⟨_, rfl, ?_, fun a ha => Memory.get_wr_outside hm (by rw [leBytes_length]; exact ha)⟩
        rw [State.wrNat, State.rdNat_wr_same hm]
        omega
    | _ =>
      rw [State.atomicVa_refused hx (by simp)]
      rfl
  case block =>
    intro s v x a b h l n hb ha hx hh
    exact State.writeVa_of_one_block hb ha hx hh

end Sys2Proof.Machine
end

section
/-! # O56: a coach that is not resident may stand in focus (R87, R360)

O56 says that the last haul of a VF in its reset retires with no byte beyond the reset's own changed where no
resident coach has a write left. `State.tearDown` drains the haul's coaches by their numbers (`State.within`),
and the coach in focus answers to its number whether it is resident or not: where it is absent, has the number
of a coach of the haul and a write left, that write reaches its home. The statement lacks the hypothesis that
the absent coach in focus has no write left, or shares no resident coach's number. -/

namespace Sys2Proof.Machine

/-- A coach that is not resident, with the number 5, in whose buffer one write of the byte 1 to address 0 is left. -/
def absentWriter : Coach :=
  { coachNone with
    ident := { coachNone.ident with id := 5 }
    wbuf := [{ id := 1, addr := 0, bytes := [1], atCore := false }] }

/-- The only resident coach, with the same number, of haul 1; its write buffer is empty. -/
def residentOfReset : Coach :=
  { coachNone with
    ident := { coachNone.ident with id := 5, haul := 1 }
    issue := { coachNone.issue with phase := .ready } }

/-- The only haul, of VF 0, ended without record by the VF's reset. -/
def haulOfReset : Haul := { placedHaul 1 with ended := some (5, 0, 0), silent := true }

/-- The device in that reset, the absent coach in focus. -/
def absentInFocus : State :=
  { State.reset with
    co := absentWriter
    coaches := [residentOfReset]
    hauls := [haulOfReset]
    vfs := [(0, { vfReset 0 with flrb := true })] }

/-- No resident coach has a write left. -/
theorem absentInFocus_buffers : ∀ c ∈ absentInFocus.allCoaches, c.wbuf = [] := by
  have resident : absentInFocus.allCoaches = [residentOfReset] := rfl
  rw [resident]
  simp [residentOfReset, coachNone]

/-- The haul retires, and the byte at address 0 changes from 0 to 1. -/
theorem absentInFocus_haulRetire_writes :
    ∃ t : State, exec (.haulRetire 1) absentInFocus = .next t ∧ Memory.get t.mem 0 = 1 ∧
      Memory.get absentInFocus.mem 0 = 0 := ⟨_, rfl, rfl, rfl⟩

/-- Refutes O56: in `absentInFocus` all that is asked of the VF's reset holds, and the retirement of its last haul
carries the absent coach's write to address 0, below the firmware's window. -/
theorem not_outsideSteps : ¬ Obligations.OutsideSteps := by
  unfold Obligations.OutsideSteps
  rintro ⟨-, ⟨resets, -⟩, -⟩
  obtain ⟨-, lastHaul, -⟩ := resets 0 absentInFocus (by omega)
  obtain ⟨t, ht, -, -, -, -, -, -, -, -, -, -, -, hmem⟩ := lastHaul haulOfReset rfl rfl rfl rfl rfl rfl rfl rfl
    (by simp [absentInFocus]) rfl rfl absentInFocus_buffers
  obtain ⟨u, hu, hone, hzero⟩ := absentInFocus_haulRetire_writes
  have htu : t = u := Host.Outcome.next.inj (ht.symm.trans hu)
  have hkept : Memory.get u.mem 0 = Memory.get absentInFocus.mem 0 := htu ▸ hmem 0 (.inl (by decide))
  rw [hone, hzero] at hkept
  exact absurd hkept (by decide)

end Sys2Proof.Machine
end

section
/-! # O46: the steps around the words of an offset (R28, R73, R74, R100, R105, R112, R123, R296 to R298, R342, R350;
logs 8, 9, 20, 59, 64, 72)

A step of one coach, taken with that coach in focus, moves no focus (`State.within_self`). -/

namespace Sys2Proof.Machine
variable {s t u : State}

/-- A step of the coach in focus that keeps its number needs no change of focus. -/
theorem State.within_self {f : State → State} (h : (f s).co.ident.id = s.co.ident.id) :
    s.within s.co.ident.id f = f s := by
  have hs : s.focus s.co.ident.id = s := if_pos rfl
  rw [State.within, hs, State.focus, if_pos h]

/-! ## The occupied planes (R28, R100) -/

theorem getLsbD_inPlane (c : Coach) (p : BitVec 2) {l : Nat} (hl : l < 32) :
    (c.inPlane p).getLsbD l = true ↔ c.planeOf l = p := by
  rw [Coach.inPlane, getLsbD_laneMask]
  simp [hl]

theorem getLsbD_foldl_inPlane (c : Coach) (ps : List (BitVec 2)) (m : LaneMask) {l : Nat} (hl : l < 32) :
    (ps.foldl (fun m p => m ||| c.inPlane p) m).getLsbD l = true ↔ m.getLsbD l = true ∨ c.planeOf l ∈ ps := by
  induction ps generalizing m with
  | nil => simp
  | cons p ps ih => rw [List.foldl_cons, ih, BitVec.getLsbD_or, Bool.or_eq_true, getLsbD_inPlane c p hl, or_assoc,
      List.mem_cons]

theorem Coach.getLsbD_occLanes (c : Coach) {l : Nat} (hl : l < 32) :
    c.occLanes.getLsbD l = true ↔ c.masks.exm.getLsbD l = true ∧ c.planeOf l ∈ c.occ := by
  rw [Coach.occLanes, BitVec.getLsbD_and, Bool.and_eq_true, getLsbD_foldl_inPlane c _ _ hl]
  simp

/-! ## Landing results and what follows them (R112, R116, R117) -/

/-- What landing a result leaves alone of a coach: its issue state, its pre-emption, its place, and whether it holds a trap. -/
def Coach.standing (c : Coach) : Issue × Preempt × CoachId × Bool := (c.issue, c.preempt, c.ident, c.traps.held)

theorem Coach.setG_standing (c : Coach) (i : BitVec 6) (x : Dword) : (c.setG i x).standing = c.standing := by
  unfold Coach.setG
  split <;> rfl

theorem Coach.setK_standing (c : Coach) (i : BitVec 5) (m x : LaneMask) : (c.setK i m x).standing = c.standing := by
  unfold Coach.setK
  split <;> rfl

theorem Coach.errLanes_standing (c : Coach) (m : LaneMask) (k : Cause) : (c.errLanes m k).standing = c.standing := by
  unfold Coach.errLanes Coach.standing
  dsimp only
  split <;> rfl

theorem State.fill_standing (s : State) (g : Nat) : (s.fill g).co.standing = s.co.standing := by
  unfold State.fill
  split
  · rfl
  · dsimp only
    split <;> rfl

theorem State.landOne_standing (s : State) (d : Deferred) : (s.landOne d).co.standing = s.co.standing := by
  cases d with
  | vreg p m x f => rfl
  | greg g x => exact Coach.setG_standing ..
  | pred k m x => exact Coach.setK_standing ..
  | flags p m => rfl
  | row a lo hi m x y z => cases z <;> rfl
  | load dest a known ecc =>
    have hfills : ((Deferred.load dest a known ecc).missing.foldl (fun s g => s.fill g) s).co.standing = s.co.standing :=
      foldl_frame (g := fun s => s.co.standing) State.fill_standing _ s
    cases dest with
    | group g m =>
      simp only [State.landOne]
      split
      · exact Coach.errLanes_standing ..
      · exact (Coach.setG_standing ..).trans hfills
    | lane lo hi l sx =>
      simp only [State.landOne]
      split
      · exact Coach.errLanes_standing ..
      · split <;> exact hfills

theorem State.landAll_standing (s : State) :
    s.landAll.co.standing = ({ s.co with issue := { s.co.issue with deferred := [] } } : Coach).standing := by
  have h : (s.co.issue.deferred.foldl State.landOne s).co.standing = s.co.standing :=
    foldl_frame (g := fun s => s.co.standing) State.landOne_standing _ s
  simp only [Coach.standing, Prod.mk.injEq] at h
  obtain ⟨hissue, hpreempt, hident, hheld⟩ := h
  simp only [Coach.standing, State.landAll, State.modCo, hissue, hpreempt, hident, hheld]

/-- A coach with no trap, wait, spill, refill and no error to report is ready when its results have landed. -/
theorem State.park_ready (hwait : s.co.issue.wait = .none) (htraps : s.co.issue.traps = []) (hbare : s.co.issue.bare = none)
    (hspill : s.co.issue.spill = []) (hrefill : s.co.issue.refill = [])
    (hread : ∀ d ∈ s.co.issue.deferred, d.unread = false)
    (hecc : s.landAll.co.traps.ecc = []) (heccBare : s.landAll.co.traps.eccBare = none) :
    let i := { s.co.issue with deferred := [] }
    let c : Coach := { s.landAll.co with issue := { i.fresh s.landAll.fresh with yielded := i.yielded, rex := i.rex } }
    s.park = { s.landAll with co := if s.co.issue.deferred = [] then c else c.toSave } := by
  have hland := s.landAll_standing
  simp only [Coach.standing, Prod.mk.injEq] at hland
  obtain ⟨hissue, hpreempt, hident, hheld⟩ := hland
  have hunread : s.co.issue.deferred.any Deferred.unread = false := by
    simpa using hread
  have hstay : s.landAll.moveGroups.afterResults = { s.landAll with co :=
      { s.landAll.co with issue := { ({ s.co.issue with deferred := [] } : Issue).fresh s.landAll.fresh with
          yielded := s.co.issue.yielded, rex := s.co.issue.rex } } } := by
    have hmove : s.landAll.moveGroups = s.landAll.modCo fun c => { c with issue := { c.issue with spill := [], refill := [] } } := by
      simp only [State.moveGroups, hissue, hspill, hrefill, List.foldl_nil]
    rw [hmove, State.afterResults, if_neg (by simp [State.modCo, hissue, htraps, hbare])]
    simp only [State.modCo, hissue, hwait]
    rw [State.endWait, if_neg (by simp [Coach.hasErr, hecc, heccBare])]
    rfl
  dsimp only
  rw [State.park, if_neg (by simp [hunread]), hstay]
  split <;> rfl

/-! ## Taking a trap (R337, R342, R350) -/

theorem State.stopHaul_co (s : State) (haul status : Nat) (detail : Word) (faddr : Dword) :
    (s.stopHaul haul status detail faddr).co = if s.co.ident.haul = haul ∧ s.co.present then
      { s.co with issue := { s.co.issue with phase := .halted }, traps := { s.co.traps with held := false } }
    else s.co := rfl

theorem State.halt_spec (s : State) (k : Cause) :
    (s.halt k).co.ident = s.co.ident ∧ (s.halt k).co.preempt = s.co.preempt ∧ (s.halt k).co.issue.phase = .halted := by
  have hstop := fun d f => s.stopHaul_co s.co.ident.haul 6 d f
  rw [State.halt, State.modCo, hstop]
  split <;> exact ⟨rfl, rfl, rfl⟩

/-- A trap taken enters a handler, from which nothing is re-executed or held, or halts the coach. -/
theorem State.takeTrap_spec (s : State) :
    let c := s.takeTrap.co
    c.ident = s.co.ident ∧ c.preempt = s.co.preempt ∧
      (c.issue.phase = .halted ∨ c.issue.phase = .ready ∧ c.issue.rex = none ∧ c.traps.held = false) := by
  have hhalt : ∀ k, (s.halt k).co.ident = s.co.ident ∧ (s.halt k).co.preempt = s.co.preempt ∧
      ((s.halt k).co.issue.phase = .halted ∨ (s.halt k).co.issue.phase = .ready ∧ (s.halt k).co.issue.rex = none ∧
        (s.halt k).co.traps.held = false) := fun k =>
    ⟨(s.halt_spec k).1, (s.halt_spec k).2.1, .inl (s.halt_spec k).2.2⟩
  unfold State.takeTrap
  dsimp only
  split
  · exact hhalt _
  · split
    · split
      · exact hhalt _
      · exact ⟨rfl, rfl, .inr ⟨rfl, rfl, rfl⟩⟩
    · split <;> exact ⟨rfl, rfl, .inr ⟨rfl, rfl, rfl⟩⟩

theorem State.enterTrap_ident (s : State) : s.enterTrap.co.ident = s.co.ident := by
  unfold State.enterTrap
  split
  · rfl
  · exact s.takeTrap_spec.1

theorem exec_trapEntry_own : exec (.trapEntry s.co.ident.id) s = .next
    (if s.co.issue.phase = .parked ∧ s.co.traps.held ∧ !(s.quad (s.co.ident.core / 4)).changing then
      s.takeTrap.modCo Coach.toSave
    else s) := by
  have hself : exec (.trapEntry s.co.ident.id) s = .next (s.within s.co.ident.id fun u =>
      if u.co.ident.id = s.co.ident.id ∧ u.co.issue.phase = .parked ∧ u.co.traps.held ∧
        !(u.quad (u.co.ident.core / 4)).changing then u.takeTrap.modCo Coach.toSave else u) := rfl
  rw [hself, State.within_self]
  · simp
  · split
    · simp only [State.modCo, Coach.toSave_ident, s.takeTrap_spec.1]
    · rfl

/-! ## The write buffer and the host copies (R296 to R298, R308) -/

theorem granules_nodup (a n : Nat) : (granules a n).Nodup := by
  unfold granules
  split
  · exact List.nodup_nil
  · exact List.nodup_range.map fun i j h => by omega

theorem State.ownCopy_hostCopy? (s : State) (o : Nat × BitVec 16) (g : Nat) (w : Word) (d : Bool) :
    (∃ h, (s.ownCopy o g w d).hostCopy? g = some h ∧ h.dirty = d ∧ o ∈ h.owners ∧ h.word = w) ∧
      ∀ k, k ≠ g → (s.ownCopy o g w d).hostCopy? k = s.hostCopy? k := by
  constructor
  · refine ⟨_, List.find?_cons_of_pos (by simp), rfl, ?_, rfl⟩
    dsimp only
    split
    · split
      · rename_i h
        simpa using h
      · exact List.mem_cons_self
    · exact List.mem_singleton_self o
  · intro k hk
    rw [State.ownCopy, State.hostCopy?, List.find?_cons_of_neg (by simpa using Ne.symm hk), List.find?_filter]
    refine congrArg (fun p => s.hostCopies.find? p) (funext fun h => ?_)
    by_cases hh : h.addr = k <;> simp [hh, hk]

theorem State.ownCopy_homeWord (s : State) (o : Nat × BitVec 16) {g k : Nat} (w : Word) (d : Bool) (hk : k ≠ g) :
    (s.ownCopy o g w d).homeWord k = s.homeWord k := by
  simp only [State.homeWord, (s.ownCopy_hostCopy? o g w d).2 k hk]
  rfl

/-- Each granule of a list takes the bytes over its word as it was, dirty, its owner among the copy's owners. -/
theorem hostCopy?_foldl_ownCopy (o : Nat × BitVec 16) (a : Nat) (b : List Byte) {gs : List Nat} (hgs : gs.Nodup)
    (s : State) (k : Nat) :
    let t := gs.foldl (fun s g => s.ownCopy o g (overlay g (s.homeWord g) a b) true) s
    if k ∈ gs then ∃ h, t.hostCopy? k = some h ∧ h.dirty = true ∧ o ∈ h.owners ∧ h.word = overlay k (s.homeWord k) a b
    else t.hostCopy? k = s.hostCopy? k := by
  induction gs generalizing s with
  | nil => rfl
  | cons g gs ih =>
    obtain ⟨hg, hgs⟩ := List.nodup_cons.mp hgs
    obtain ⟨hsame, hother⟩ := s.ownCopy_hostCopy? o g (overlay g (s.homeWord g) a b) true
    have hrest := ih hgs (s.ownCopy o g (overlay g (s.homeWord g) a b) true)
    dsimp only at hrest ⊢
    rw [List.foldl_cons]
    by_cases hk : k = g
    · subst hk
      rw [if_neg hg] at hrest
      rw [if_pos List.mem_cons_self, hrest]
      exact hsame
    · rw [hother k hk, s.ownCopy_homeWord o _ _ hk] at hrest
      simpa [List.mem_cons, hk] using hrest

/-- A granule of an entry comes to its core point, over what stood there for it. -/
def State.corePoint (s : State) (e : WEntry) (ps : List CoreCopy) (g : Nat) : List CoreCopy :=
  let k := s.co.ident.core
  let old := match s.corePt? k g with
    | some p => p.word
    | none => s.homeWord g
  { core := k, addr := g, word := overlay g old e.addr e.bytes, coach := s.co.ident.id, entry := e.id } ::
    ps.filter fun p => !(p.core == k && p.addr == g)

/-- The entry's point of a granule stands there after the later granules of the entry have come. -/
theorem corePoint_foldl (s : State) (e : WEntry) {g : Nat} {gs : List Nat} (ps : List CoreCopy)
    (h : g ∈ gs ∨ ∃ c ∈ ps, c.core = s.co.ident.core ∧ c.addr = g ∧ c.entry = e.id) :
    ∃ c ∈ gs.foldl (s.corePoint e) ps, c.core = s.co.ident.core ∧ c.addr = g ∧ c.entry = e.id := by
  induction gs generalizing ps with
  | nil => exact h.resolve_left List.not_mem_nil
  | cons g' gs ih =>
    refine ih _ ?_
    by_cases hg : g = g'
    · exact .inr ⟨_, List.mem_cons_self, rfl, hg.symm, rfl⟩
    · refine h.imp (fun h => (List.mem_cons.mp h).resolve_left hg) ?_
      rintro ⟨c, hc, hcore, haddr, hentry⟩
      have hne : c.addr ≠ g' := by rw [haddr]; exact hg
      exact ⟨c, List.mem_cons_of_mem _ (List.mem_filter.mpr ⟨hc, by simp [hne]⟩), hcore, haddr, hentry⟩

/-- Carried to the core point, an entry stands there for each of its granules. -/
theorem State.carryCore_points (s : State) (e : WEntry) (he : e.atCore = false) :
    ∀ g ∈ granules e.addr e.bytes.length, ∃ c ∈ (s.carryCore e).corePts,
      c.core = s.co.ident.core ∧ c.addr = g ∧ c.entry = e.id := by
  have hcarry : s.carryCore e = { s with
      co := { s.co with wbuf := s.co.wbuf.map fun x => if x.id = e.id then { x with atCore := true } else x }
      corePts := (granules e.addr e.bytes.length).foldl (s.corePoint e) s.corePts } := by
    rw [State.carryCore, if_neg (by simp [he])]
    rfl
  rw [hcarry]
  exact fun g hg => corePoint_foldl s e s.corePts (.inl hg)

section buffer
variable {l rest : List WEntry} {e : WEntry}

theorem find?_entry (hid : ∀ x ∈ l ++ rest, x.id ≠ e.id) :
    (l ++ e :: rest).find? (fun x => x.id == e.id) = some e := by
  rw [List.find?_append, List.find?_eq_none.mpr fun x hx => by simpa using hid x (List.mem_append_left _ hx)]
  simp

theorem olderThan_entry (hid : ∀ x ∈ l ++ rest, x.id ≠ e.id) : olderThan e.id (l ++ e :: rest) = l := by
  rw [olderThan, List.takeWhile_append_of_pos fun x hx => by simpa using hid x (List.mem_append_left _ hx)]
  simp

theorem filter_entry (hid : ∀ x ∈ l ++ rest, x.id ≠ e.id) :
    (l ++ e :: rest).filter (fun x => x.id != e.id) = l ++ rest := by
  have hkeep : (l ++ rest).filter (fun x => x.id != e.id) = l ++ rest :=
    List.filter_eq_self.mpr fun x hx => by simpa using hid x hx
  rw [List.filter_append, List.filter_cons_of_neg (by simp), ← List.filter_append, hkeep]

theorem map_entry (hid : ∀ x ∈ l ++ rest, x.id ≠ e.id) :
    (l ++ e :: rest).map (fun x => if x.id = e.id then { x with atCore := true } else x) =
      l ++ { e with atCore := true } :: rest := by
  have hkeep : ∀ k : List WEntry, (∀ x ∈ k, x.id ≠ e.id) →
      k.map (fun x => if x.id = e.id then { x with atCore := true } else x) = k := fun k hk =>
    (List.map_congr_left fun x hx => if_neg (hk x hx)).trans (List.map_id k)
  rw [List.map_append, List.map_cons, if_pos rfl, hkeep l fun x hx => hid x (List.mem_append_left _ hx),
    hkeep rest fun x hx => hid x (List.mem_append_right _ hx)]

end buffer

/-- WRITE_BUFFER_ADVANCE of an entry of the coach in focus, by what stands before it in the buffer. -/
theorem exec_writeBufferAdvance_own {l rest : List WEntry} {e : WEntry} (hb : s.co.wbuf = l ++ e :: rest)
    (hid : ∀ x ∈ l ++ rest, x.id ≠ e.id) :
    let older := l.filter fun x => overlaps e.addr e.bytes.length x.addr x.bytes.length
    exec (.writeBufferAdvance s.co.ident.id e.id) s = .next
      (if isGlobal e.addr && !e.atCore then (if older.all WEntry.atCore then s.carryCore e else s)
        else if older = [] then s.carryEnd e else s) := by
  have hself : exec (.writeBufferAdvance s.co.ident.id e.id) s = .next (s.within s.co.ident.id fun u =>
      if u.co.ident.id ≠ s.co.ident.id then u
      else match u.co.wbuf.find? fun x => x.id == e.id with
        | none => u
        | some x =>
          let older := (olderThan e.id u.co.wbuf).filter fun y => overlaps x.addr x.bytes.length y.addr y.bytes.length
          if isGlobal x.addr && !x.atCore then (if older.all WEntry.atCore then u.carryCore x else u)
          else if older = [] then u.carryEnd x else u) := rfl
  rw [hself, State.within_self]
  · rw [if_neg (by simp), hb, find?_entry hid, olderThan_entry hid]
  · rw [if_neg (by simp), hb, find?_entry hid]
    dsimp only
    split
    · split
      · rw [State.carryCore_ident]
      · rfl
    · split
      · rw [State.carryEnd_ident]
      · rfl

/-- An entry carried to the end of its path leaves the buffer, and no register changes. -/
theorem State.carryEnd_co (s : State) (e : WEntry) :
    (s.carryEnd e).co.wbuf = s.co.wbuf.filter (fun x => x.id != e.id) ∧ (s.carryEnd e).co.regs = s.co.regs := by
  have hco : (s.carryEnd e).co = ({ (s.arrive e.addr e.bytes).co with
      wbuf := (s.arrive e.addr e.bytes).co.wbuf.filter fun x => x.id != e.id } : Coach).patchSnap e.addr e.bytes := rfl
  rw [hco, State.arrive_co]
  exact ⟨rfl, rfl⟩

theorem State.carryEnd_mem_of_home {e : WEntry} (h : isHost e.addr = false) :
    (s.carryEnd e).mem = (s.wr e.addr e.bytes).mem := by
  rw [State.carryEnd, State.arrive, if_neg (by simp [h])]

theorem State.carryEnd_hostCopy? (s : State) (e : WEntry) (h : isHost e.addr = true) (g : Nat) :
    if g ∈ granules e.addr e.bytes.length
    then ∃ h, (s.carryEnd e).hostCopy? g = some h ∧ h.dirty = true ∧ s.owner ∈ h.owners ∧
      h.word = overlay g (s.homeWord g) e.addr e.bytes
    else (s.carryEnd e).hostCopy? g = s.hostCopy? g := by
  have hcopies : (s.carryEnd e).hostCopy? g = ((granules e.addr e.bytes.length).foldl
      (fun u g => u.ownCopy s.owner g (overlay g (u.homeWord g) e.addr e.bytes) true) s).hostCopy? g := by
    have harrive : s.arrive e.addr e.bytes = s.wrHostCopy s.owner e.addr e.bytes := if_pos h
    rw [State.carryEnd, harrive]
    rfl
  rw [hcopies]
  exact hostCopy?_foldl_ownCopy s.owner e.addr e.bytes (granules_nodup ..) s g

/-! ## Filling a granule (R297) -/

theorem Deferred.needs_take (g : Nat) (w : Word) (d : Deferred) : (d.take g w).needs g = false := by
  cases d with
  | load dest a known e =>
    simp only [Deferred.take, Deferred.needs, List.length_map, List.length_range]
    rw [List.any_eq_false]
    intro i hi
    rw [List.mem_range] at hi
    by_cases hg : granule (a + i) = g
    · cases hk : known[i] <;> simp [hg, hi, hk]
    · simp [hg]
  | _ => rfl

theorem State.fill_new {g : Nat} (h : s.co.snap? g = none) :
    (s.fill g).co = { s.co with snap := (g, s.fillWord g) :: s.co.snap } := by
  rw [State.fill, h]
  dsimp only
  split <;> rfl

theorem State.fillPending_new {g : Nat} (h : s.co.snap? g = none) :
    (s.fillPending g).co = { s.co with
      snap := (g, s.fillWord g) :: s.co.snap
      issue := { s.co.issue with deferred := s.co.issue.deferred.map (Deferred.take g (s.fillWord g)) } } := by
  have hs : (s.fill g).co.snap? g = some (s.fillWord g) := by
    rw [State.fill_new h, Coach.snap?, List.find?_cons_of_pos (by simp)]
    rfl
  rw [State.fillPending, hs]
  simp only [State.modCo, State.fill_new h]

theorem State.fillPending_ident (s : State) (g : Nat) : (s.fillPending g).co.ident = s.co.ident := by
  have hfill : (s.fill g).co.ident = s.co.ident :=
    congrArg (fun p => p.2.2.1) (s.fill_standing g)
  unfold State.fillPending
  dsimp only
  split <;> exact hfill

theorem exec_snapshotFill_own (a : Nat) (hp : s.co.present = true) (hok : s.poisoned (granule a) 4 = false) :
    exec (.snapshotFill s.co.ident.id a) s = .next (s.fillPending (granule a)) := by
  have hself : exec (.snapshotFill s.co.ident.id a) s = .next (s.within s.co.ident.id fun u =>
      if u.co.ident.id = s.co.ident.id ∧ u.co.present ∧ !u.poisoned (granule a) 4 then u.fillPending (granule a)
      else u) := rfl
  have hif : (s.co.ident.id = s.co.ident.id ∧ s.co.present ∧ (!s.poisoned (granule a) 4) = true) := ⟨rfl, hp, by simp [hok]⟩
  rw [hself, State.within_self] <;> rw [if_pos hif]
  rw [State.fillPending_ident]

/-! ## The choice of a port (R73, R74, R123) -/

theorem State.prefers_iff (s : State) (a b : Coach) :
    s.prefers a b = true ↔ s.effPrio b < s.effPrio a ∨ (s.effPrio a = s.effPrio b ∧ (a.issue.since < b.issue.since ∨
      (a.issue.since = b.issue.since ∧ a.ident.slot < b.ident.slot))) := by
  simp [State.prefers]

theorem State.prefers_asymm {a b : Coach} (h : s.prefers a b = true) : s.prefers b a = false := by
  rw [State.prefers_iff] at h
  rw [Bool.eq_false_iff, ne_eq, State.prefers_iff]
  omega

/-- Going through a list with the preferred of two at hand ends with the one preferred to every other. -/
theorem State.foldl_prefers {c : Coach} (l : List Coach) (a : Coach) (hc : c ∈ a :: l)
    (hbest : ∀ k ∈ a :: l, k ≠ c → s.prefers c k = true) :
    l.foldl (fun a b => if s.prefers b a then b else a) a = c := by
  induction l generalizing a with
  | nil => exact (List.mem_singleton.mp hc).symm
  | cons b l ih =>
    have ha := hbest a List.mem_cons_self
    have hb := hbest b (List.mem_cons_of_mem _ List.mem_cons_self)
    have hl : ∀ k ∈ l, k ≠ c → s.prefers c k = true := fun k hk =>
      hbest k (List.mem_cons_of_mem _ (List.mem_cons_of_mem _ hk))
    rw [List.foldl_cons]
    split
    · rename_i hba
      have hac : a ≠ c ∨ b = c := by
        by_contra! h
        rw [h.1, State.prefers_asymm (hb h.2)] at hba
        exact Bool.false_ne_true hba
      refine ih b ?_ (List.forall_mem_cons.mpr ⟨hb, hl⟩)
      rcases List.mem_cons.mp hc with rfl | hc
      · exact hac.elim (absurd rfl) fun h => h ▸ List.mem_cons_self
      · exact hc
    · rename_i hba
      refine ih a ?_ (List.forall_mem_cons.mpr ⟨ha, hl⟩)
      rcases List.mem_cons.mp hc with rfl | hc
      · exact List.mem_cons_self
      · rcases List.mem_cons.mp hc with rfl | hc
        · by_cases hab : a = c
          · exact hab ▸ List.mem_cons_self
          · exact absurd (ha hab) hba
        · exact List.mem_cons_of_mem _ hc

/-- The port takes a coach that it prefers to every other, those that have just yielded standing back. -/
theorem State.choice_eq {core port : Nat} {c : Coach} (hc : c ∈ s.allCoaches) (hmay : c.choosable core port = true)
    (hyield : c.issue.yielded = true → ∀ k ∈ s.allCoaches, k.choosable core port = true → k.issue.yielded = true)
    (hbest : ∀ k ∈ s.allCoaches, k.choosable core port = true → k ≠ c →
      s.prefers c k = true ∨ (k.issue.yielded = true ∧ c.issue.yielded = false)) :
    s.choice core port = some c := by
  let cs := s.allCoaches.filter fun k => k.choosable core port
  let others := cs.filter fun k => !k.issue.yielded
  have hcs : ∀ k, k ∈ cs ↔ k ∈ s.allCoaches ∧ k.choosable core port = true := fun k => List.mem_filter
  have hothers : ∀ k, k ∈ others ↔ k ∈ cs ∧ k.issue.yielded = false := fun k => by simp [others]
  have hpick : c ∈ (if others = [] then cs else others) ∧
      ∀ k ∈ (if others = [] then cs else others), k ≠ c → s.prefers c k = true := by
    split
    · rename_i hnone
      refine ⟨(hcs c).mpr ⟨hc, hmay⟩, fun k hk hkc => ?_⟩
      have hy : c.issue.yielded = true := by
        by_contra hy
        have := (hothers c).mpr ⟨(hcs c).mpr ⟨hc, hmay⟩, by simpa using hy⟩
        rw [hnone] at this
        exact List.not_mem_nil this
      obtain ⟨hk, hkmay⟩ := (hcs k).mp hk
      exact (hbest k hk hkmay hkc).resolve_right fun h => by simp [hy] at h
    · rename_i hsome
      obtain ⟨k, hk⟩ := List.exists_mem_of_ne_nil _ hsome
      have hy : c.issue.yielded = false := by
        by_contra hy
        obtain ⟨hkcs, hky⟩ := (hothers k).mp hk
        obtain ⟨hk, hkmay⟩ := (hcs k).mp hkcs
        rw [hyield (by simpa using hy) k hk hkmay] at hky
        exact Bool.noConfusion hky
      refine ⟨(hothers c).mpr ⟨(hcs c).mpr ⟨hc, hmay⟩, hy⟩, fun k hk hkc => ?_⟩
      obtain ⟨hkcs, hky⟩ := (hothers k).mp hk
      obtain ⟨hk, hkmay⟩ := (hcs k).mp hkcs
      exact (hbest k hk hkmay hkc).resolve_right fun h => by simp [hky] at h
  obtain ⟨hin, hpref⟩ := hpick
  have hchoice : s.choice core port = match (if others = [] then cs else others) with
    | [] => none
    | a :: l => some (l.foldl (fun a b => if s.prefers b a then b else a) a) := rfl
  rw [hchoice]
  cases hl : (if others = [] then cs else others) with
  | nil => rw [hl] at hin; exact absurd hin List.not_mem_nil
  | cons a l =>
    rw [hl] at hin hpref
    exact congrArg some (State.foldl_prefers l a hin hpref)

/-- What a port's choice of c makes of a coach: c comes to the given phase, and of the port's coaches none stands back any
longer. -/
def Coach.chosen (c : Coach) (core port : Nat) (ph : Phase) (k : Coach) : Coach :=
  if k.ident.id = c.ident.id then { k with issue := { k.issue with phase := ph, yielded := false } }
  else if k.ident.core = core ∧ k.ident.port = port then { k with issue := { k.issue with yielded := false } } else k

theorem Coach.chosen_ident (c : Coach) (core port : Nat) (ph : Phase) (k : Coach) : (c.chosen core port ph k).ident = k.ident := by
  unfold Coach.chosen
  split
  · rfl
  · split <;> rfl

theorem Coach.chosen_present {c : Coach} (core port : Nat) {ph : Phase} {k : Coach} (hph : ph ≠ .absent) (hc : c.present = true)
    (hk : k.ident.id = c.ident.id → k = c) : (c.chosen core port ph k).present = k.present := by
  unfold Coach.chosen
  split
  · rename_i h
    rw [hk h, hc]
    simp [Coach.present, hph]
  · split <;> rfl

section select
variable {core port : Nat} {c : Coach}

theorem exec_coachSelect (hclock : (s.quad (core / 4)).changing = false)
    (hidle : ∀ k ∈ s.allCoaches, k.ident.core = core → k.ident.port = port → k.issue.phase ≠ .issuing)
    (hchoice : s.choice core port = some c) :
    let run := c.chosen core port (if c.hasErr then .ready else .issuing)
    let u : State := { s with co := run s.co, coaches := s.coaches.map run }
    exec (.coachSelect core port) s = .next (if c.hasErr then u.within c.ident.id State.enterTrap else u) := by
  have hif : ((s.quad (core / 4)).changing ||
      s.allCoaches.any fun k => k.ident.core == core && k.ident.port == port && k.issue.phase == .issuing) = false := by
    rw [hclock, Bool.false_or, List.any_eq_false]
    intro k hk h
    simp only [Bool.and_eq_true, beq_iff_eq] at h
    obtain ⟨⟨hcore, hport⟩, hphase⟩ := h
    exact hidle k hk hcore hport hphase
  have hexec : exec (.coachSelect core port) s = .next (
      if (s.quad (core / 4)).changing ||
        s.allCoaches.any fun k => k.ident.core == core && k.ident.port == port && k.issue.phase == .issuing then s
      else match s.choice core port with
        | none => s
        | some c =>
          let run := c.chosen core port (if c.hasErr then .ready else .issuing)
          let u : State := { s with co := run s.co, coaches := s.coaches.map run }
          if c.hasErr then u.within c.ident.id State.enterTrap else u) := rfl
  rw [hexec, hif, hchoice]
  rfl

end select

/-! ## The obligation -/

/-- The runs that end without a trap: the coach is ready, and at its save point where it has waited for results. -/
theorem State.park_results (hwait : s.co.issue.wait = .none) (htraps : s.co.issue.traps = []) (hbare : s.co.issue.bare = none)
    (hspill : s.co.issue.spill = []) (hrefill : s.co.issue.refill = [])
    (hread : ∀ d ∈ s.co.issue.deferred, d.unread = false)
    (hecc : s.landAll.co.traps.ecc = []) (heccBare : s.landAll.co.traps.eccBare = none)
    (hheld : s.co.issue.deferred ≠ [] → s.co.traps.held = false) :
    let u := s.landAll
    let t := s.park
    t = { u with co := { u.co with issue := t.co.issue, preempt := t.co.preempt } } ∧ t.co.issue.phase = .ready ∧
      t.co.issue.count = 0 ∧ t.co.issue.off = s.co.issue.off ∧ t.co.issue.deferred = [] ∧
      t.co.preempt = if s.co.issue.deferred ≠ [] ∧ s.co.preempt.pending = true ∧ s.co.ident.level = 0 ∧
          s.co.preempt.atSave = false ∧ s.co.issue.rex = none
        then { s.co.preempt with atSave := true, full := true } else s.co.preempt := by
  have hland := s.landAll_standing
  simp only [Coach.standing, Prod.mk.injEq] at hland
  obtain ⟨-, hpreempt, hident, hheld'⟩ := hland
  dsimp only
  rw [State.park_ready hwait htraps hbare hspill hrefill hread hecc heccBare]
  dsimp only
  by_cases hd : s.co.issue.deferred = []
  · rw [if_pos hd, if_neg (fun h => h.1 hd)]
    exact ⟨rfl, rfl, rfl, rfl, rfl, hpreempt⟩
  · rw [if_neg hd]
    unfold Coach.toSave
    dsimp only
    simp only [hpreempt, hident, hheld', hheld hd, Issue.fresh, ne_eq, hd, not_false_eq_true, true_and, Bool.not_eq_eq_eq_not,
      Bool.not_true, Bool.not_false, true_or, and_true]
    split <;> exact ⟨rfl, rfl, rfl, rfl, rfl, rfl⟩

theorem State.takeTrap_toSave (s : State) :
    let t := s.takeTrap.modCo Coach.toSave
    t = { s.takeTrap with co := { s.takeTrap.co with preempt := t.co.preempt } } ∧
      t.co.preempt = if s.takeTrap.co.issue.phase = .ready ∧ s.co.preempt.pending = true ∧ s.co.ident.level = 0 ∧
          s.co.preempt.atSave = false
        then { s.co.preempt with atSave := true, full := true } else s.co.preempt := by
  obtain ⟨hident, hpreempt, hphase⟩ := s.takeTrap_spec
  have hready : (s.takeTrap.co.issue.rex = none ∧ s.takeTrap.co.traps.held = false ∧
      (s.takeTrap.co.issue.phase = .ready ∨ s.takeTrap.co.issue.phase = .waiting)) ↔
      s.takeTrap.co.issue.phase = .ready := by
    rcases hphase with hhalted | ⟨hready, hrex, hheld⟩
    · simp [hhalted]
    · simp [hready, hrex, hheld]
  have hsave : s.takeTrap.co.toSave = if s.takeTrap.co.issue.phase = .ready ∧ s.co.preempt.pending = true ∧
      s.co.ident.level = 0 ∧ s.co.preempt.atSave = false
      then { s.takeTrap.co with preempt := { s.co.preempt with atSave := true, full := true } } else s.takeTrap.co := by
    refine if_congr ?_ (by rw [hpreempt]) rfl
    simp only [hident, hpreempt, Bool.not_eq_eq_eq_not, Bool.not_true]
    tauto
  dsimp only
  rw [State.modCo, hsave]
  split
  · exact ⟨rfl, rfl⟩
  · exact ⟨rfl, hpreempt⟩

theorem exec_fetchFault (s : State) : exec .fetchFault s = .next (if (s.quad (s.co.ident.core / 4)).changing then s
    else match s.fetchOffset with
      | (s, .error k) => (s.trapOcc k).endOffset
      | (s, .ok _) => s) := rfl

theorem marked_eq (w : Word) : marked w = w.getLsbD 31 := by
  rw [Bool.eq_iff_iff, marked, beq_iff_eq]
  constructor
  · intro h
    simpa using congrArg (fun x => x.getLsbD 0) h
  · intro h
    refine BitVec.eq_of_getLsbD_eq fun i hi => ?_
    have hi : i = 0 := by omega
    simp [hi, h]

theorem exec_illegalEncoding {w : BitVec 32} {sub : IllSub} (h : decode w = .error sub) :
    exec (.illegalEncoding w) s = word (marked w) s fun s =>
      if coachOnce w then s.trapOcc (causeIll sub.code w) else s.trapPlane (causeIll sub.code w) := by
  simp only [exec, execIllegalEncoding, h]

theorem exec_runLimit (s : State) : exec .runLimit s =
    if s.co.issue.phase = .issuing ∧ !s.co.issue.open_ ∧ 24 ≤ s.co.issue.count ∧ !(s.quad (s.co.ident.core / 4)).changing
    then .next s.endOfRun else .next s := rfl

theorem exec_parkEnd (s : State) : exec .parkEnd s =
    if s.co.issue.phase = .parked ∧ !s.co.traps.held ∧ !(s.quad (s.co.ident.core / 4)).changing
    then .next s.park else .next s := rfl

/-- The resident coaches after each coach has changed without coming or going. -/
theorem State.allCoaches_map {f : Coach → Coach} (h : ∀ k ∈ s.co :: s.coaches, (f k).present = k.present) :
    ({ s with co := f s.co, coaches := s.coaches.map f } : State).allCoaches = s.allCoaches.map f := by
  have hmap : ({ s with co := f s.co, coaches := s.coaches.map f } : State).allCoaches =
      ((s.co :: s.coaches).map f).filter Coach.present := rfl
  rw [hmap, List.filter_map]
  exact congrArg (List.map f) (List.filter_congr h)

/-- Settles O46: each step by what it does with its coach in focus; a choice by the preference order of the port, an entry's
move by its granules in turn. -/
theorem issueSteps : Obligations.IssueSteps := by
  refine ⟨⟨?lanes, ?fetch, ?range, ?illegal, ?zero, ?limit, ?park, ?clock, ?trap⟩, ?select, ?advance, ?fill⟩
  case lanes => exact fun c l hl => c.getLsbD_occLanes hl
  case fetch =>
    intro s k u hclock hf
    refine ⟨u.trapOcc k, ?_, u.trapOcc_spec k⟩
    rw [exec_fetchFault, if_neg (by simp [hclock]), hf]
  case range => exact fun s h => if_pos h
  case illegal =>
    intro s w sub hw
    rw [exec_illegalEncoding hw, marked_eq]
    refine ⟨if coachOnce w then s.trapOcc (causeIll sub.code w) else s.trapPlane (causeIll sub.code w), rfl, ?_⟩
    split
    · exact s.trapOcc_spec _
    · exact s.trapPlane_spec _
  case zero => exact fun m x s => ⟨_, rfl, s.trapPlane_spec _⟩
  case limit =>
    intro s hphase hopen hcount hdef hclock
    rw [exec_runLimit, if_pos ⟨hphase, by simp [hopen], hcount, by simp [hclock]⟩, State.endOfRun, if_neg hdef]
    rfl
  case park =>
    intro s i u hwait htraps hbare hspill hrefill hread hecc heccBare hclock hi
    have hclock' : (!(s.quad (s.co.ident.core / 4)).changing) = true := by simp [hclock]
    have hexec : exec i s = .next s.park ∧ (s.co.issue.deferred ≠ [] → s.co.traps.held = false) := by
      rcases hi with ⟨rfl, hphase, hheld⟩ | ⟨rfl, hphase, hopen, hcount, hdef⟩
      · exact ⟨by rw [exec_parkEnd, if_pos ⟨hphase, by simp [hheld], hclock'⟩], fun _ => hheld⟩
      · refine ⟨?_, fun h => absurd hdef h⟩
        rw [exec_runLimit, if_pos ⟨hphase, by simp [hopen], hcount, hclock'⟩, State.endOfRun, if_pos hdef]
    exact ⟨_, hexec.1, State.park_results hwait htraps hbare hspill hrefill hread hecc heccBare hexec.2⟩
  case clock =>
    intro s hclock
    have hclock' : ¬ (!(s.quad (s.co.ident.core / 4)).changing) = true := by simp [hclock]
    refine ⟨?_, ?_, ?_, ?_⟩
    · rw [exec_parkEnd, if_neg fun h => hclock' h.2.2]
    · rw [exec_trapEntry_own, if_neg fun h => hclock' h.2.2]
    · rw [exec_runLimit, if_neg fun h => hclock' h.2.2.2]
    · rw [exec_fetchFault, if_pos hclock]
  case trap =>
    intro s hphase hheld hclock
    rw [exec_trapEntry_own, if_pos ⟨hphase, hheld, by simp [hclock]⟩]
    exact ⟨_, rfl, s.takeTrap_toSave⟩
  case select =>
    intro s n p c hclock hidle may prio before hc hyield hbest hid run
    have hmay : ∀ k, may k ↔ k ∈ s.allCoaches ∧ k.choosable n p = true := fun k => by
      simp [may, Coach.choosable, and_assoc]
    have hpref : ∀ k, before c k ↔ s.prefers c k = true := fun k => (s.prefers_iff c k).symm
    have hin : c ∈ s.allCoaches := hc.1
    have hpres : c.present = true := (List.mem_filter.mp hin).2
    have hchoice : s.choice n p = some c := by
      refine State.choice_eq hin ((hmay c).mp hc).2 (fun hy k hk hkmay => hyield hy k ((hmay k).mpr ⟨hk, hkmay⟩))
        fun k hk hkmay hkc => ?_
      rw [← hpref]
      exact hbest k ((hmay k).mpr ⟨hk, hkmay⟩) hkc
    have hexec := exec_coachSelect hclock hidle hchoice
    refine ⟨fun herr => ?_, fun herr hco => ?_⟩
    · rw [herr] at hexec
      refine ⟨_, hexec, rfl, ?_⟩
      have hkeep : ∀ k ∈ s.co :: s.coaches, (run .issuing k).present = k.present := fun k hk =>
        Coach.chosen_present n p (by decide) hpres (hid k hk)
      exact State.allCoaches_map hkeep
    · rw [herr] at hexec
      subst hco
      let u : State := { s with co := run .ready s.co, coaches := s.coaches.map (run .ready) }
      have hrun : u.co.ident.id = s.co.ident.id := congrArg CoachId.id (Coach.chosen_ident ..)
      have htrap : u.within s.co.ident.id State.enterTrap = u.enterTrap :=
        hrun ▸ State.within_self (congrArg CoachId.id u.enterTrap_ident)
      exact ⟨u, hexec.trans (congrArg _ htrap), rfl, rfl, rfl⟩
  case advance =>
    intro s l e rest hb hid hm near early
    let older := l.filter fun x => overlaps e.addr e.bytes.length x.addr x.bytes.length
    have hexec : exec (.writeBufferAdvance s.co.ident.id e.id) s = .next
        (if early then (if older.all WEntry.atCore then s.carryCore e else s)
          else if older = [] then s.carryEnd e else s) :=
      (exec_writeBufferAdvance_own hb hid).trans (congrArg _ (if_congr (by simp [early]) rfl rfl))
    have holder : ∀ x, x ∈ older ↔ x ∈ l ∧ near x := fun x => by
      simp only [older, List.mem_filter, overlaps, decide_eq_true_eq, near]
      tauto
    rw [hexec]
    refine ⟨?_, fun hearly hall => ?_, fun hearly hnone => ?_⟩
    · rintro ⟨x, hx, hnear, hcore⟩
      have hx : x ∈ older := (holder x).mpr ⟨hx, hnear⟩
      split
      · rename_i hearly
        rw [if_neg fun hall => absurd (List.all_eq_true.mp hall x hx) (by simp [hcore hearly])]
      · rw [if_neg (List.ne_nil_of_mem hx)]
    · rw [if_pos hearly, if_pos (List.all_eq_true.mpr fun x hx => hall x ((holder x).mp hx).1 ((holder x).mp hx).2)]
      have hmap : (s.carryCore e).co.wbuf = l ++ { e with atCore := true } :: rest := by
        rw [State.carryCore, if_neg (by simp [hearly.2]), ← map_entry hid, ← hb]
      exact ⟨_, rfl, State.carryCore_mem .., (State.Carries.refl s).carryCore e |>.co ▸ rfl, hmap,
        s.carryCore_points e hearly.2⟩
    · have hnil : older = [] := List.eq_nil_iff_forall_not_mem.mpr fun x hx =>
        hnone x ((holder x).mp hx).1 ((holder x).mp hx).2
      obtain ⟨hwbuf, hregs⟩ := s.carryEnd_co e
      rw [if_neg hearly, if_pos hnil]
      refine ⟨_, rfl, by rw [hwbuf, hb, filter_entry hid], hregs, fun hhome => ?_, fun hhost => ?_⟩
      · rw [State.carryEnd_mem_of_home hhome]
        refine ⟨fun i hi => ?_, fun a ha => Memory.get_wr_outside hm ha⟩
        rw [State.wr, Memory.get_putAll _ _ _ hm, if_pos (by omega), Nat.add_sub_cancel_left, List.getElem?_eq_getElem hi]
        rfl
      · refine ⟨?_, s.carryEnd_hostCopy? e hhost⟩
        rw [State.carryEnd, State.arrive, if_pos hhost]
        exact State.wrHostCopy_mem ..
  case fill =>
    intro s a hp hok hs
    refine ⟨_, exec_snapshotFill_own a hp hok, State.fillPending_mem .., ?_, ?_, ?_⟩ <;> rw [State.fillPending_new hs]
    · rw [Coach.snap?, List.find?_cons_of_pos (by simp)]
      rfl
    · intro x hx
      obtain ⟨d, -, rfl⟩ := List.mem_map.mp hx
      exact d.needs_take _ _

end Sys2Proof.Machine
end

section
/-! # O53: coaches, rakes and hauls (R35, R69 to R77, R87, R124, R350, R358, R371 to R374; logs 20, 59, 60, 61, 72)

What completes a haul leaves the coaches, rakes and views as they are (`State.roster`). -/

namespace Sys2Proof.Machine
variable {s t u v : State}

/-! ## Who is resident (R371, R372) -/

/-- The resident coaches, rakes and views, and which hauls have retired. -/
def State.roster (s : State) : Coach × List Coach × List Rake × List ViewReq × List (Nat × Bool) :=
  (s.co, s.coaches, s.rakes, s.views, s.hauls.map fun h => (h.id, h.retired))

theorem State.Accesses.roster (h : s.Accesses t) : t.roster = s.roster := by
  obtain ⟨_, _, _, _, rfl⟩ := h
  rfl

theorem State.roster_modHaul {id : Nat} {f : Haul → Haul} (hf : ∀ h, (f h).id = h.id ∧ (f h).retired = h.retired) :
    (s.modHaul id f).roster = s.roster := by
  have hmap : (s.modHaul id f).hauls.map (fun h => (h.id, h.retired)) = s.hauls.map fun h => (h.id, h.retired) := by
    rw [State.modHaul, List.map_map]
    refine List.map_congr_left fun h _ => ?_
    simp only [Function.comp_apply]
    split
    · rw [(hf h).1, (hf h).2]
    · rfl
  rw [State.roster, hmap]
  rfl

section roster
variable {x : Ctx}

@[simp] theorem State.roster_wr (s : State) (a : Nat) (b : List Byte) : (s.wr a b).roster = s.roster := rfl
@[simp] theorem State.roster_wrNat (s : State) (a n y : Nat) : (s.wrNat a n y).roster = s.roster := rfl
@[simp] theorem State.roster_modVf (s : State) (n : Nat) (f : Vf → Vf) : (s.modVf n f).roster = s.roster := rfl
@[simp] theorem State.roster_modQuad (s : State) (n : Nat) (f : Quad → Quad) : (s.modQuad n f).roster = s.roster := rfl
@[simp] theorem State.roster_modDev (s : State) (f : Device → Device) : (s.modDev f).roster = s.roster := rfl
@[simp] theorem State.roster_modQueue (s : State) (n : Nat) (f : Queue → Queue) : (s.modQueue n f).roster = s.roster := rfl
@[simp] theorem State.roster_endCommand (s : State) (b n k : Nat) (y : Dword) : (s.endCommand b n k y).roster = s.roster := rfl
@[simp] theorem State.roster_countRefused (s : State) (a : Nat) : (s.countRefused a).roster = s.roster := rfl

@[simp] theorem State.roster_dropQueues (s : State) (f : Queue → Bool) : (s.dropQueues f).roster = s.roster := by
  have hmap : (s.dropQueues f).hauls.map (fun h => (h.id, h.retired)) = s.hauls.map fun h => (h.id, h.retired) := by
    rw [State.dropQueues, List.map_map]
    refine List.map_congr_left fun h _ => ?_
    simp only [Function.comp_apply]
    split <;> rfl
  rw [State.roster, hmap]
  rfl

@[simp] theorem State.roster_wrHostCopy (s : State) (o : Nat × BitVec 16) (a : Nat) (b : List Byte) :
    (s.wrHostCopy o a b).roster = s.roster := by
  unfold State.wrHostCopy State.healed
  refine foldl_frame (g := State.roster) ?_ _ s
  exact fun _ _ => rfl

@[simp] theorem State.roster_poke (s : State) (o : Nat × BitVec 16) (a : Nat) (b : List Byte) :
    (s.poke o a b).roster = s.roster := by
  unfold State.poke
  split <;> simp

@[simp] theorem State.roster_pokeAll (s : State) (o : Nat × BitVec 16) (l : List (Nat × Nat)) (b : List Byte) :
    (s.pokeAll o l b).roster = s.roster := by
  induction l generalizing s b with
  | nil => rfl
  | cons p l ih => rw [State.pokeAll, ih, State.roster_poke]

theorem State.roster_writeHomes (x : Ctx) (l : List (Nat × Nat)) (s : State) :
    (State.writeHomes x l s).1.roster = s.roster := by
  induction l generalizing s with
  | nil => rfl
  | cons p l ih =>
    have hx := ((State.Accesses.refl s).translate x .store p.1).roster
    unfold State.writeHomes
    generalize s.translate x .store p.1 = r at hx
    obtain ⟨v, g⟩ := r
    cases g with
    | found h k b =>
      have hrest := ih v
      dsimp only
      generalize State.writeHomes x l v = q at hrest
      obtain ⟨w, e⟩ := q
      cases e <;> exact hrest.trans hx
    | _ => exact hx

@[simp] theorem State.roster_writeVa (s : State) (x : Ctx) (a : Nat) (b : List Byte) :
    (s.writeVa x a b).1.roster = s.roster := by
  have hw := State.roster_writeHomes x (spans a b.length) s
  unfold State.writeVa
  generalize State.writeHomes x (spans a b.length) s = r at hw
  obtain ⟨v, e⟩ := r
  cases e
  · exact hw
  · exact (State.roster_pokeAll ..).trans hw

@[simp] theorem State.roster_refusePort (s : State) (port a : Nat) : (s.refusePort port a).roster = s.roster :=
  ((State.Accesses.refl s).refusePort port a).roster

theorem State.roster_atPort {port a : Nat} {f : State → State} (hf : (f s).roster = s.roster) :
    (s.atPort port a f).roster = s.roster := by
  unfold State.atPort
  split
  · exact hf
  · exact State.roster_refusePort ..

@[simp] theorem State.roster_qcbPut (s : State) (q : Queue) (off : Nat) (b : List Byte) :
    (s.qcbPut q off b).roster = s.roster := State.roster_atPort (State.roster_wr ..)

@[simp] theorem State.roster_tcbPut (s : State) (x : Ctx) (p off n y : Nat) : (s.tcbPut x p off n y).roster = s.roster :=
  State.roster_atPort (State.roster_poke ..)

/-! Queues and packets (R59, R66, R67) -/

@[simp] theorem State.roster_setQstate (s : State) (q : Queue) (n : Nat) : (s.setQstate q n).roster = s.roster := by
  have hdeferred : ∀ (s : State) (vf : Nat), (s.activateDeferred vf).roster = s.roster := by
    intro s vf
    unfold State.activateDeferred
    split
    · rfl
    · split
      · rfl
      · dsimp only
        split <;> simp
  unfold State.setQstate
  dsimp only
  split <;> simp [hdeferred]

@[simp] theorem State.roster_writeErrsig (s : State) (q : Queue) : (s.writeErrsig q).roster = s.roster := by
  unfold State.writeErrsig
  dsimp only
  split <;> simp

@[simp] theorem State.roster_queueError (s : State) (q : Queue) (n : Nat) : (s.queueError q n).roster = s.roster := by
  unfold State.queueError
  split <;> simp

@[simp] theorem State.roster_settleQueue (s : State) (id : Nat) : (s.settleQueue id).roster = s.roster := by
  unfold State.settleQueue
  split
  · rfl
  · split
    · rfl
    split
    · simp
    split
    · have hcommands : ∀ (l : List (Nat × Nat)) (s : State),
          (l.foldl (fun s p => s.endCommand p.1 p.2 0 0) s).roster = s.roster :=
        fun l s => foldl_frame (f := fun s (p : Nat × Nat) => s.endCommand p.1 p.2 0 0) (fun _ _ => rfl) l s
      rw [State.roster_dropQueues, hcommands, State.roster_wrNat]
      split <;> simp
    split <;> simp

@[simp] theorem State.roster_packetDone (s : State) (id i : Nat) : (s.packetDone id i).roster = s.roster := by
  rw [State.packetDone, State.roster_settleQueue]
  rfl

@[simp] theorem State.roster_failPacket (s : State) (id i n : Nat) : (s.failPacket id i n).roster = s.roster := by
  unfold State.failPacket
  split <;> simp

/-! Tasks (R80, R81) -/

@[simp] theorem State.roster_hold (s : State) (vf : Nat) (h : Held) : (s.hold vf h).roster = s.roster := by
  unfold State.hold
  split <;> simp

@[simp] theorem State.roster_makeReady (s : State) (vf : Nat) (x : Ctx) (p : Nat) : (s.makeReady vf x p).roster = s.roster := by
  simp [State.makeReady]

theorem State.roster_releaseStep (s : State) (h : Haul) (quad va : Nat) :
    (s.releaseStep h quad va).1.roster = s.roster := by
  have hx := ((State.Accesses.refl s).translate (s.releaseCtx h quad) .store va).roster
  unfold State.releaseStep
  dsimp only
  split
  · rfl
  generalize s.translate (s.releaseCtx h quad) .store va = r at hx
  obtain ⟨v, g⟩ := r
  cases g with
  | found p l b =>
    rw [← hx]
    dsimp only
    split
    · rfl
    split
    · simp
    split
    · simp
    split <;> simp
  | _ => exact hx

theorem State.roster_releaseEach (h : Haul) (quad : Nat) (src : Byte) (l : List Nat) (s : State) :
    (State.releaseEach h quad src l s).roster = s.roster := by
  induction l generalizing s with
  | nil => rfl
  | cons va l ih => exact (ih _).trans (s.roster_releaseStep h quad va)

@[simp] theorem State.roster_releaseTask (s : State) (h : Haul) (quad : Nat) (src : Byte) :
    (s.releaseTask h quad src).roster = s.roster := by
  unfold State.releaseTask
  split
  · rfl
  rename_i p _
  split
  · rfl
  split
  · exact State.roster_modHaul fun _ => ⟨rfl, rfl⟩
  have hv : (s.modHaul h.id fun h => { h with released := true, heldRelease := false }).roster = s.roster :=
    State.roster_modHaul fun _ => ⟨rfl, rfl⟩
  generalize (s.modHaul h.id fun h => { h with released := true, heldRelease := false }) = v at hv ⊢
  dsimp only
  split
  · exact (State.roster_refusePort ..).trans hv
  have hx := ((State.Accesses.refl v).readSpans (v.releaseCtx h quad)
    (spans (v.peekNat (p + 8) 8) (8 * v.peekNat (p + 0x10) 4))).roster
  rw [← State.readVa] at hx
  generalize v.readVa (v.releaseCtx h quad) (v.peekNat (p + 8) 8) (8 * v.peekNat (p + 0x10) 4) = q at hx ⊢
  obtain ⟨w, g⟩ := q
  cases g with
  | ok b => exact ((State.roster_releaseEach ..).trans hx).trans hv
  | _ => exact hx.trans hv

@[simp] theorem State.roster_retireTask (s : State) (h : Haul) : (s.retireTask h).roster = s.roster := by
  have hunhold : ∀ (s : State) vf p, (s.unhold vf p).roster = s.roster := fun _ _ _ => rfl
  unfold State.retireTask
  split
  · rfl
  · dsimp only
    split
    · rfl
    split
    · split <;> simp [hunhold]
    · simp [hunhold]

/-! Completion (R372, R373) -/

@[simp] theorem State.roster_atomicAt (s : State) (a n : Nat) (f : Nat → Nat) : (s.atomicAt a n f).roster = s.roster := by
  have hsink : (s.sinkHost a n).roster = s.roster := by
    unfold State.sinkHost
    split
    · exact foldl_frame (f := State.writeBack) (g := State.roster) (fun _ _ => rfl) _ s
    · rfl
  unfold State.atomicAt
  dsimp only
  split <;> simp [hsink]

@[simp] theorem State.roster_atomicVa (s : State) (x : Ctx) (a n : Nat) (f : Nat → Nat) :
    (s.atomicVa x a n f).1.roster = s.roster := by
  have hx := ((State.Accesses.refl s).translate x .store a).roster
  unfold State.atomicVa
  generalize s.translate x .store a = r at hx
  obtain ⟨v, g⟩ := r
  cases g with
  | found h l b =>
    dsimp only
    split
    · exact hx
    · exact (State.roster_atomicAt ..).trans hx
  | _ => exact hx

/-- The record's part of a completion: whether it was written or not asked for (R372). -/
def State.putRecord (s : State) (x : Ctx) (record : Nat) (b : List Byte) : State × Bool :=
  if record = 0 then (s, true)
  else if record % 64 ≠ 0 then (s, false)
  else match s.writeVa x record b with
    | (s, .ok _) => (s, true)
    | (s, _) => (s, false)

theorem State.recordAndSignal_eq (s : State) (x : Ctx) (record signal : Nat) (b : List Byte) :
    s.recordAndSignal x record signal b = if signal = 0 then s.putRecord x record b
      else (((s.putRecord x record b).1.atomicVa x signal 8 fun n => (n + (2 ^ 64 - 1)) % 2 ^ 64).1,
        (s.putRecord x record b).2 && ((s.putRecord x record b).1.atomicVa x signal 8 fun n => (n + (2 ^ 64 - 1)) % 2 ^ 64).2) := rfl

theorem State.putRecord_written {record : Nat} {b : List Byte} (h0 : record ≠ 0) (h64 : record % 64 = 0)
    (hw : s.writeVa x record b = (t, .ok [])) : s.putRecord x record b = (t, true) := by
  rw [State.putRecord, if_neg h0, if_neg (by simpa using h64), hw]

@[simp] theorem State.roster_putRecord (s : State) (x : Ctx) (record : Nat) (b : List Byte) :
    (s.putRecord x record b).1.roster = s.roster := by
  have hw := s.roster_writeVa x record b
  unfold State.putRecord
  split
  · rfl
  split
  · rfl
  generalize s.writeVa x record b = r at hw
  obtain ⟨v, g⟩ := r
  cases g <;> exact hw

@[simp] theorem State.roster_recordAndSignal (s : State) (x : Ctx) (record signal : Nat) (b : List Byte) :
    (s.recordAndSignal x record signal b).1.roster = s.roster := by
  rw [State.recordAndSignal_eq]
  split <;> simp

@[simp] theorem State.roster_completeHaul (s : State) (id : Nat) : (s.completeHaul id).roster = s.roster := by
  unfold State.completeHaul
  split
  · rfl
  · dsimp only
    split
    · simp
    · split <;> simp

@[simp] theorem State.roster_finishReset (s : State) (vf : Nat) : (s.finishReset vf).roster = s.roster := by
  unfold State.finishReset
  split
  · rfl
  · dsimp only
    exact State.roster_dropQueues (s.modVf vf _) _

/-- The haul with h's number is marked as retired. -/
def State.markRetired (s : State) (h : Haul) : State :=
  s.modHaul h.id fun h => { h with retired := true, tEnd := s.dev.time, saving := none }

/-- A SAVE that was still saving the haul ends without it (R352). -/
def State.closeSaving (s : State) (h : Haul) : State :=
  match h.saving with
  | none => s
  | some p => if (s.vf h.vf).blackout = some p then s else s.endCommand p.1 p.2 5 0

theorem State.retireHaul_eq (s : State) (h : Haul) :
    let u := (s.markRetired h).closeSaving h
    s.retireHaul h = if h.silent then u else if u.leads then u.completeHaul h.id
      else u.modDev fun d => { d with heldCompletions := d.heldCompletions ++ [h.id] } := rfl

theorem State.roster_retireHaul (s : State) (h : Haul) : (s.retireHaul h).roster = (s.markRetired h).roster := by
  have hsave : ((s.markRetired h).closeSaving h).roster = (s.markRetired h).roster := by
    unfold State.closeSaving
    split
    · rfl
    · split <;> rfl
  rw [State.retireHaul_eq, ← hsave]
  split
  · rfl
  · split <;> simp

end roster

/-! ## A haul ends otherwise (R87) -/

theorem State.mem_allCoaches_iff {c : Coach} : c ∈ s.allCoaches ↔ (c = s.co ∨ c ∈ s.coaches) ∧ c.present = true := by
  rw [State.allCoaches, List.mem_filter, List.mem_cons]

/-- Nothing of a haul is left. -/
def State.without (s : State) (haul : Nat) : Prop :=
  (∀ c ∈ s.allCoaches, c.ident.haul ≠ haul) ∧ (∀ r ∈ s.rakes, r.haul ≠ haul) ∧ ∀ v ∈ s.views, v.haul ≠ haul

theorem State.without.congr {haul : Nat} (h : s.without haul) (hco : t.co = s.co) (hcoaches : t.coaches = s.coaches)
    (hrakes : t.rakes = s.rakes) (hviews : t.views = s.views) : t.without haul := by
  rwa [State.without, State.allCoaches, hco, hcoaches, hrakes, hviews]

theorem State.tearDown_without (s : State) (haul : Nat) : (s.tearDown haul).without haul := by
  let mine (c : Coach) : Bool := c.ident.haul == haul
  let w := (State.quadsOf ((s.allCoaches.filter mine).foldl (fun s c => s.within c.ident.id State.drain) s) haul).foldl
    State.vacate ((s.allCoaches.filter mine).foldl (fun s c => s.within c.ident.id State.drain) s)
  have hco : (s.tearDown haul).co = if mine w.co then coachNone else w.co := rfl
  have hcoaches : (s.tearDown haul).coaches = w.coaches.filter fun c => !mine c := rfl
  have hrakes : (s.tearDown haul).rakes = w.rakes.filter fun r => r.haul != haul := rfl
  have hviews : (s.tearDown haul).views = w.views.filter fun v => v.haul != haul := rfl
  refine ⟨fun c hc => ?_, fun r hr => ?_, fun v hv => ?_⟩
  · rw [State.mem_allCoaches_iff, hco, hcoaches] at hc
    obtain ⟨rfl | hc, hpresent⟩ := hc
    · by_cases hmine : mine w.co = true
      · rw [if_pos hmine] at hpresent
        exact absurd hpresent (by decide)
      · rw [if_neg hmine]
        simpa [mine] using hmine
    · simpa [mine] using (List.mem_filter.mp hc).2
  · rw [hrakes] at hr
    simpa using (List.mem_filter.mp hr).2
  · rw [hviews] at hv
    simpa using (List.mem_filter.mp hv).2

theorem State.markRetired_retired (s : State) (h : Haul) :
    ∀ p ∈ (s.markRetired h).hauls.map fun h => (h.id, h.retired), p.1 = h.id → p.2 = true := by
  intro p hp hid
  obtain ⟨k, hk, rfl⟩ := List.mem_map.mp hp
  obtain ⟨j, -, rfl⟩ := List.mem_map.mp hk
  dsimp only at hid ⊢
  by_cases hj : j.id = h.id
  · rw [if_pos hj]
  · rw [if_neg hj] at hid
    exact absurd hid hj

theorem exec_haulRetire {h : Haul} (hh : s.haul? h.id = some h) (hr : h.retired = false)
    (hd : s.drayBusy (fun c => c.haul == h.id) = false) : exec (.haulRetire h.id) s = .next (match h.ended with
      | none => if h.hdr.rakes ≤ h.rakesDone ∧ !s.viewsLeft h.id then (s.retireHaul h).finishReset h.vf else s
      | some _ => if s.arraysBusy h.id then s else ((s.tearDown h.id).retireHaul h).finishReset h.vf) := by
  simp only [exec, execHaulRetire, hh, hr, hd] <;> rfl

theorem exec_haulRetire_ended {h : Haul} {e : Nat × Word × Dword} (hh : s.haul? h.id = some h) (hr : h.retired = false)
    (hd : s.drayBusy (fun c => c.haul == h.id) = false) (he : h.ended = some e) (ha : s.arraysBusy h.id = false) :
    ∃ t : State, exec (.haulRetire h.id) s = .next t ∧ t.without h.id ∧ ∀ k ∈ t.hauls, k.id = h.id → k.retired = true := by
  let t := ((s.tearDown h.id).retireHaul h).finishReset h.vf
  have hexec : exec (.haulRetire h.id) s = .next t := by
    rw [exec_haulRetire hh hr hd, he]
    exact congrArg _ (if_neg (by simp [ha]))
  have hroster : t.roster = ((s.tearDown h.id).markRetired h).roster :=
    (State.roster_finishReset ..).trans (State.roster_retireHaul ..)
  simp only [State.roster, Prod.mk.injEq] at hroster
  obtain ⟨hco, hcoaches, hrakes, hviews, hhauls⟩ := hroster
  refine ⟨t, hexec, (s.tearDown_without h.id).congr hco hcoaches hrakes hviews, fun k hk hid => ?_⟩
  have hmem : (k.id, k.retired) ∈ t.hauls.map fun h => (h.id, h.retired) := List.mem_map.mpr ⟨k, hk, rfl⟩
  rw [hhauls] at hmem
  exact State.markRetired_retired _ h _ hmem hid

/-! ## The completion record (R373) -/

theorem field_head (n x : Nat) (b : List Byte) : field (leBytes n x ++ b) 0 n = x % 256 ^ n := by
  rw [field, List.drop_zero, List.take_left' (leBytes_length n x), leNat_leBytes]

theorem field_self (n x : Nat) : field (leBytes n x) 0 n = x % 256 ^ n := by
  simpa using field_head n x []

theorem field_skip {m o : Nat} (h : m ≤ o) (x : Nat) (b : List Byte) (n : Nat) :
    field (leBytes m x ++ b) o n = field b (o - m) n := by
  rw [field, List.drop_append, List.drop_eq_nil_of_le (by rwa [leBytes_length]), leBytes_length, List.nil_append, field]

/-- The fields of a completion record (R373). -/
theorem recordBytes_fields (st : Nat) (de : Word) (im no dn : Nat) (ta te ad : Dword) :
    let b := recordBytes st de im no dn ta te ad
    b.length = 64 ∧ (st < 2 ^ 32 → field b 0 4 = st) ∧ field b 4 4 = de.toNat ∧ (im < 2 ^ 64 → field b 8 8 = im) ∧
    (no < 2 ^ 32 → field b 16 4 = no) ∧ (dn < 2 ^ 32 → field b 20 4 = dn) ∧ field b 24 8 = ta.toNat ∧
    field b 32 8 = te.toNat ∧ field b 40 8 = ad.toNat ∧ field b 48 16 = 0 := by
  have hword : ∀ x : Word, x.toNat % 256 ^ 4 = x.toNat := fun x => Nat.mod_eq_of_lt (by have := x.isLt; omega)
  have hdword : ∀ x : Dword, x.toNat % 256 ^ 8 = x.toNat := fun x => Nat.mod_eq_of_lt (by have := x.isLt; omega)
  dsimp only
  simp (disch := omega) only [recordBytes, List.append_assoc, field_skip, Nat.reduceSub, Nat.sub_self, field_head, field_self,
    hword, hdword, true_and]
  refine ⟨?_, fun h => Nat.mod_eq_of_lt (by omega), fun h => Nat.mod_eq_of_lt (by omega), fun h => Nat.mod_eq_of_lt (by omega),
    fun h => Nat.mod_eq_of_lt (by omega), Nat.zero_mod _⟩
  simp [leBytes_length]

/-! ## A haul completes (R372, R373) -/

section complete
variable {h : Haul}

/-- A haul that has done its work completes at once, or once a controller serves. -/
theorem exec_haulRetire_done (hh : s.haul? h.id = some h) (hr : h.retired = false)
    (hd : s.drayBusy (fun c => c.haul == h.id) = false) (he : h.ended = none) (hdone : h.hdr.rakes ≤ h.rakesDone)
    (hv : s.viewsLeft h.id = false) (hs : h.silent = false) (hsave : h.saving = none) (hflr : (s.vf h.vf).flrb = false) :
    exec (.haulRetire h.id) s = .next (if s.leads then ((s.markRetired h).completeHaul h.id).finishReset h.vf
      else (s.markRetired h).modDev fun d => { d with heldCompletions := d.heldCompletions ++ [h.id] }) := by
  have hclose : (s.markRetired h).closeSaving h = s.markRetired h := by rw [State.closeSaving, hsave]
  rw [exec_haulRetire hh hr hd, he]
  dsimp only
  rw [if_pos ⟨hdone, by simp [hv]⟩, State.retireHaul_eq, hclose, if_neg (by simp [hs])]
  have hleads : (s.markRetired h).leads = s.leads := rfl
  rw [hleads]
  split
  · rfl
  · have hflr' : (!(s.vf h.vf).flrb) = true := by simp [hflr]
    exact congrArg _ (if_pos (.inl hflr'))

theorem State.haul?_modHaul {id : Nat} {f : Haul → Haul} (hf : ∀ h, (f h).id = h.id) :
    (s.modHaul id f).haul? id = (s.haul? id).map f := by
  have hp : ((fun h : Haul => h.id == id) ∘ fun h => if h.id = id then f h else h) = fun h => h.id == id := by
    funext h
    by_cases hh : h.id = id <;> simp [hh, hf]
  rw [State.haul?, State.modHaul, List.find?_map, hp, State.haul?]
  cases hfind : s.hauls.find? (fun h => h.id == id) with
  | none => rfl
  | some h =>
    have hh : h.id = id := by simpa using List.find?_some hfind
    simp [hh]

/-- A haul launched by nobody and under no task, with a record and no signal, leaves its record where RECORD leads. -/
theorem State.completeHaul_record (hh : s.haul? h.id = some h) (htcb : h.tcb = none) (hpacket : h.packet = none)
    (hsig : h.signal = 0) (hrec : h.record ≠ 0) (halign : h.record % 64 = 0) (he : h.ended = none)
    {p b : Nat} {l : Dword} (hx : s.translate (s.haulCtx h) .store h.record = (v, .found p l b)) (hhost : isHost p = false) :
    s.completeHaul h.id =
      v.wr p (recordBytes 0 0 h.image h.launchNo.toNat h.rakesDone h.tAccept h.tEnd 0) := by
  have hb := (recordBytes_fields 0 0 h.image h.launchNo.toNat h.rakesDone h.tAccept h.tEnd 0).1
  generalize hw : recordBytes 0 0 h.image h.launchNo.toNat h.rakesDone h.tAccept h.tEnd 0 = w at hb ⊢
  have hwrite : s.writeVa (s.haulCtx h) h.record w = (v.wr p w, .ok []) :=
    State.writeVa_of_one_block (by rintro rfl; cases hb) (by omega) hx hhost
  have htask : s.retireTask h = s := by rw [State.retireTask, htcb]
  unfold State.completeHaul
  rw [hh]
  simp only [htask, hpacket, he, hsig, Option.getD_none, hw]
  rw [State.recordAndSignal_eq, if_pos rfl, State.putRecord_written hrec halign hwrite]

/-- The same for a haul that has just retired, no reset of its VF in progress. -/
theorem State.retirement_record (hh : s.haul? h.id = some h) (he : h.ended = none) (hsave : h.saving = none)
    (hflr : (s.vf h.vf).flrb = false) (htcb : h.tcb = none) (hpacket : h.packet = none) (hsig : h.signal = 0)
    (hrec : h.record ≠ 0) (halign : h.record % 64 = 0) {p b : Nat} {l : Dword}
    (hx : (s.markRetired h).translate ((s.markRetired h).haulCtx { h with retired := true, tEnd := s.dev.time }) .store
      h.record = (v, .found p l b)) (hhost : isHost p = false) :
    ((s.markRetired h).completeHaul h.id).finishReset h.vf =
      v.wr p (recordBytes 0 0 h.image h.launchNo.toNat h.rakesDone h.tAccept s.dev.time 0) := by
  let g : Haul := { h with retired := true, tEnd := s.dev.time }
  have hg : (s.markRetired h).haul? g.id = some g := by
    refine (State.haul?_modHaul fun _ => by rfl).trans ?_
    rw [hh, ← hsave]
    rfl
  have hcomplete : (s.markRetired h).completeHaul h.id = _ :=
    State.completeHaul_record hg htcb hpacket hsig hrec halign he hx hhost
  rw [hcomplete]
  have huv : (s.markRetired h).Accesses v := .of_eq hx ((State.Accesses.refl _).translate _ _ _)
  have hvf : v.vf h.vf = s.vf h.vf := huv.vf h.vf
  exact if_pos (.inl (congrArg not ((congrArg Vf.flrb hvf).trans hflr)))

end complete


/-! ## A coach retires (R124, R371) -/

namespace State.Carries

theorem coaches (h : s.Carries t) : t.coaches = s.coaches := by obtain ⟨_, _, _, _, _, _, _, rfl⟩ := h; rfl
theorem cores (h : s.Carries t) : t.cores = s.cores := by obtain ⟨_, _, _, _, _, _, _, rfl⟩ := h; rfl
theorem rakes (h : s.Carries t) : t.rakes = s.rakes := by obtain ⟨_, _, _, _, _, _, _, rfl⟩ := h; rfl
theorem views (h : s.Carries t) : t.views = s.views := by obtain ⟨_, _, _, _, _, _, _, rfl⟩ := h; rfl

end State.Carries

theorem State.discardTickets_none (h : s.co.tickets = []) : s.discardTickets = s := by
  have hco : ({ s.co with tickets := [] } : Coach) = s.co := by rw [← h]
  rw [State.discardTickets, h]
  simp only [List.filter_nil, List.foldl_nil, State.modCo, h, hco]

theorem exec_coachRetire_own (hphase : s.co.issue.phase = .retiring) (hclock : (s.quad (s.co.ident.core / 4)).changing = false)
    (htickets : s.co.tickets = []) (hmay : s.mayRetire = true) :
    exec (.coachRetire s.co.ident.id) s = .next (s.retireCoach.focus s.co.ident.id) := by
  have hself : s.focus s.co.ident.id = s := if_pos rfl
  have hexec : exec (.coachRetire s.co.ident.id) s = .next (s.within s.co.ident.id fun u =>
      if u.co.ident.id ≠ s.co.ident.id ∨ u.co.issue.phase ≠ .retiring ∨ (u.quad (u.co.ident.core / 4)).changing then u
      else if u.discardTickets.mayRetire then u.discardTickets.retireCoach else u.discardTickets) := rfl
  rw [hexec, State.within, hself, if_neg (by simp [hphase, hclock]), State.discardTickets_none htickets, if_pos hmay]

/-- A core gives up the token, the banks and the mallocs of a coach that is in no gang. -/
def Core.freeOf (c : CoachId) (k : Core) : Core :=
  { k with
    token := if k.token = laneBit c.slot then 0 else k.token
    banks := k.banks.filter fun p => p.2 != c.id
    mallocs := k.mallocs.filter fun p => p.1 != c.id }

/-- What a coach in no gang leaves behind: what it has published, its core without it, nobody in focus. -/
def State.departed (s : State) : State :=
  { (s.publish 4).drain.modCore s.co.ident.core (Core.freeOf s.co.ident) with co := coachNone }

theorem State.retireCoach_eq (hg : s.co.special.gang.toNat % 8 = 0) :
    ∃ c : Coach, c.ident = s.co.ident ∧
      s.retireCoach = if c.ident.level = 0 then s.departed.leaveRake c else s.departed.leaveLift c := by
  have hu := ((State.Carries.refl s).publish 4).drain
  generalize hw : (s.publish 4).drain = u at hu
  have hident : u.co.ident = s.co.ident := by rw [hu.co]
  have hgang : u.co.special.gang.extractLsb' 0 3 = 0 := by
    rw [hu.co]
    refine BitVec.eq_of_toNat_eq ?_
    simpa using hg
  have hleave : u.leaveArray = u.modCore s.co.ident.core (Core.freeOf s.co.ident) := by
    rw [State.leaveArray, hident]
    simp only [hgang, ne_eq, not_true_eq_false, if_false, true_and]
    rfl
  have hdrop : u.leaveArray.dropCoach u.leaveArray.co.ident.id = s.departed := by
    rw [State.dropCoach, if_pos rfl, hleave, State.departed, hw]
  refine ⟨u.leaveArray.co, by rw [hleave]; exact hident, ?_⟩
  rw [← hdrop, ← hw]
  rfl

theorem State.departed_spec (s : State) :
    s.departed.coaches = s.coaches ∧ s.departed.mem = ((s.publish 4).drain).mem ∧ s.departed.rakes = s.rakes ∧
      s.departed.hauls = s.hauls ∧ s.departed.views = s.views ∧
      ∀ b ∈ (s.departed.core s.co.ident.core).banks, b.2 ≠ s.co.ident.id ∧ b ∈ (s.core s.co.ident.core).banks := by
  have hu := ((State.Carries.refl s).publish 4).drain
  refine ⟨hu.coaches, rfl, hu.rakes, hu.hauls, hu.views, fun b hb => ?_⟩
  have hcore : s.departed.core s.co.ident.core = Core.freeOf s.co.ident (s.core s.co.ident.core) := by
    rw [State.departed, State.core, State.modCore, State.core, State.core, hu.cores]
    exact (tget_tset ..).trans (if_pos rfl)
  rw [hcore] at hb
  obtain ⟨hb, hne⟩ := List.mem_filter.mp hb
  exact ⟨by simpa using hne, hb⟩

/-! What the coach's rake and its haul become (R371) -/

theorem State.map_modHaul {β : Type} {g : Haul → β} {id : Nat} {f : Haul → Haul} (hf : ∀ h, g (f h) = g h) :
    (s.modHaul id f).hauls.map g = s.hauls.map g := by
  rw [State.modHaul, List.map_map]
  refine List.map_congr_left fun h _ => ?_
  simp only [Function.comp_apply]
  split
  · exact hf h
  · rfl

theorem State.map_modHaul_rakesDone {id : Nat} {f : Haul → Haul} (hf : ∀ h, (f h).rakesDone = h.rakesDone + 1) :
    (s.modHaul id f).hauls.map (·.rakesDone) = s.hauls.map fun h => h.rakesDone + if h.id = id then 1 else 0 := by
  rw [State.modHaul, List.map_map]
  refine List.map_congr_left fun h _ => ?_
  simp only [Function.comp_apply]
  split
  · exact hf h
  · rfl

theorem State.map_recountWatch {β : Type} {g : Haul → β} {haul : Nat} (hf : ∀ h w x, g { h with watch := w, watchFrom := x } = g h) :
    (s.recountWatch haul).hauls.map g = s.hauls.map g := State.map_modHaul fun h => hf h _ _

/-- Whether a resident coach of a rake is left, with nobody in focus. -/
theorem State.any_of_rake (hco : s.co = coachNone) (h k : Nat) :
    (s.allCoaches.any fun x => x.ident.haul == h && x.ident.rake == k && x.ident.level == 0) = true ↔
      ∃ x ∈ s.coaches, x.of h k = true := by
  simp only [List.any_eq_true, State.mem_allCoaches_iff, Coach.of, Bool.and_eq_true]
  constructor
  · rintro ⟨x, ⟨rfl | hx, hp⟩, ⟨hh, hr⟩, hl⟩
    · rw [hco] at hp
      exact absurd hp (by decide)
    · exact ⟨x, hx, ⟨⟨hp, hh⟩, hr⟩, hl⟩
  · rintro ⟨x, hx, ⟨⟨hp, hh⟩, hr⟩, hl⟩
    exact ⟨x, ⟨.inr hx, hp⟩, ⟨hh, hr⟩, hl⟩

section leave
variable {c : Coach}

theorem State.outOfRake_frame (s : State) (c : Coach) :
    (s.outOfRake c).co = s.co ∧ (s.outOfRake c).coaches = s.coaches ∧ (s.outOfRake c).mem = s.mem ∧
      (s.outOfRake c).cores = s.cores ∧
      (s.outOfRake c).hauls.map (fun h => (h.id, h.saved)) = s.hauls.map fun h => (h.id, h.saved) := by
  have hlast : (s.modHaul c.ident.haul fun h => { h with last := (c.ident.core / 4, c.src) }).hauls.map
      (fun h => (h.id, h.saved)) = s.hauls.map fun h => (h.id, h.saved) := State.map_modHaul fun _ => by rfl
  unfold State.outOfRake
  dsimp only
  split
  · exact ⟨rfl, rfl, rfl, rfl, (State.map_modHaul fun _ => by rfl).trans hlast⟩
  · exact ⟨rfl, rfl, rfl, rfl, ((State.map_recountWatch fun _ _ _ => by rfl).trans (State.map_modHaul fun _ => by rfl)).trans hlast⟩

theorem State.outOfRake_stays (hco : s.co = coachNone) (h : ∃ k ∈ s.coaches, k.of c.ident.haul c.ident.rake = true) :
    (s.outOfRake c).rakes = s.rakes ∧ (s.outOfRake c).hauls.map (·.rakesDone) = s.hauls.map (·.rakesDone) := by
  unfold State.outOfRake
  dsimp only
  rw [if_pos ((State.any_of_rake (s := s.modHaul _ _) hco _ _).mpr h)]
  exact ⟨rfl, (State.map_modHaul fun _ => by rfl).trans (State.map_modHaul fun _ => by rfl)⟩

theorem State.outOfRake_last (hco : s.co = coachNone) (h : ∀ k ∈ s.coaches, k.of c.ident.haul c.ident.rake = false) :
    (s.outOfRake c).rakes = s.rakes.filter (fun r => !(r.haul == c.ident.haul && r.rake == c.ident.rake)) ∧
      (s.outOfRake c).hauls.map (·.rakesDone) =
        s.hauls.map fun h => h.rakesDone + if h.id = c.ident.haul then 1 else 0 := by
  have hnone : ¬ ∃ k ∈ s.coaches, k.of c.ident.haul c.ident.rake = true := by
    rintro ⟨k, hk, hof⟩
    rw [h k hk] at hof
    exact Bool.false_ne_true hof
  unfold State.outOfRake
  dsimp only
  rw [if_neg (mt (State.any_of_rake (s := s.modHaul _ _) hco _ _).mp hnone)]
  refine ⟨rfl, (State.map_recountWatch fun _ _ _ => by rfl).trans ?_⟩
  refine (State.map_modHaul_rakesDone ?_).trans (State.map_modHaul ?_) <;> exact fun _ => rfl

end leave

theorem State.completeSaved_none {haul : Nat} (h : ∀ k, s.haul? haul = some k → k.saved = []) : s.completeSaved haul = s := by
  unfold State.completeSaved
  cases hk : s.haul? haul with
  | none => rfl
  | some k =>
    have hs : k.savedCoaches = [] := by rw [Haul.savedCoaches, h k hk]; rfl
    simp [hs]

theorem State.leaveRake_eq {c : Coach} (h : ∀ k ∈ s.hauls, k.id = c.ident.haul → k.saved = []) :
    s.leaveRake c = s.outOfRake c := by
  refine State.completeSaved_none fun k hk => ?_
  have hid : k.id = c.ident.haul := by simpa using List.find?_some hk
  have hmem : (k.id, k.saved) ∈ (s.outOfRake c).hauls.map fun h => (h.id, h.saved) :=
    List.mem_map.mpr ⟨k, List.mem_of_find?_eq_some hk, rfl⟩
  rw [(s.outOfRake_frame c).2.2.2.2] at hmem
  obtain ⟨j, hj, he⟩ := List.mem_map.mp hmem
  obtain ⟨hjid, hjsaved⟩ := Prod.mk.inj he
  rw [← hjsaved]
  exact h j hj (hjid.trans hid)

theorem State.leaveLift_frame (s : State) (c : Coach) :
    (s.leaveLift c).co = s.co ∧ (s.leaveLift c).coaches = s.coaches ∧ (s.leaveLift c).mem = s.mem ∧
      (s.leaveLift c).cores = s.cores := by
  unfold State.leaveLift
  split <;> exact ⟨rfl, rfl, rfl, rfl⟩

theorem State.leaveLift_view? {c : Coach} {r i : Nat} {v : ViewReq} (hc : c.ident.view = some (r, i)) (hv : s.view? r = some v) :
    (s.leaveLift c).view? r = some { v with retired := v.retired + 1 } := by
  let f (v : ViewReq) : ViewReq := { v with retired := v.retired + 1 }
  have hp : ((fun v : ViewReq => v.id == r) ∘ fun v => if v.id = r then f v else v) = fun v => v.id == r := by
    funext v
    by_cases hh : v.id = r <;> simp [f, hh]
  have hlift : (s.leaveLift c).view? r = (s.views.map fun v => if v.id = r then f v else v).find? fun v => v.id == r := by
    rw [State.leaveLift, hc]
    rfl
  have hid : v.id = r := by simpa using List.find?_some hv
  rw [State.view?] at hv
  rw [hlift, List.find?_map, hp, hv, Option.map_some, if_pos hid]

/-- A focus on a number that no coach has is none. -/
theorem State.focus_absent {id : Nat} (hco : s.co.ident.id ≠ id) (h : ∀ k ∈ s.coaches, k.ident.id ≠ id) : s.focus id = s := by
  have hnone : (s.coaches.find? fun c => c.ident.id == id) = none := by
    rw [List.find?_eq_none]
    exact fun k hk => by simpa using h k hk
  rw [State.focus, if_neg hco, hnone]

/-- What the retirement of the coach in focus leaves as it was but for its core, beside its rake and its view. -/
theorem State.retireCoach_frame (hg : s.co.special.gang.toNat % 8 = 0)
    (hs : ∀ h ∈ s.hauls, h.id = s.co.ident.haul → h.saved = []) :
    s.retireCoach.co = coachNone ∧ s.retireCoach.coaches = s.coaches ∧ s.retireCoach.mem = ((s.publish 4).drain).mem ∧
      ∀ b ∈ (s.retireCoach.core s.co.ident.core).banks, b.2 ≠ s.co.ident.id ∧ b ∈ (s.core s.co.ident.core).banks := by
  obtain ⟨hcoaches, hmem, -, hhauls, -, hbanks⟩ := s.departed_spec
  obtain ⟨c, hident, heq⟩ := s.retireCoach_eq hg
  have hframe : s.retireCoach.co = s.departed.co ∧ s.retireCoach.coaches = s.departed.coaches ∧
      s.retireCoach.mem = s.departed.mem ∧ s.retireCoach.cores = s.departed.cores := by
    rw [heq]
    split
    · rw [State.leaveRake_eq (by rw [hident, hhauls]; exact hs)]
      obtain ⟨hco, hcs, hm, hk, -⟩ := s.departed.outOfRake_frame c
      exact ⟨hco, hcs, hm, hk⟩
    · exact s.departed.leaveLift_frame c
  obtain ⟨hco, hcs, hm, hk⟩ := hframe
  refine ⟨hco, hcs.trans hcoaches, hm.trans hmem, ?_⟩
  rwa [State.core, hk]

section retire
variable (hg : s.co.special.gang.toNat % 8 = 0)
include hg

/-- The rake and the haul of a coach that leaves a resident rake. -/
theorem State.retireCoach_rake (hs : ∀ h ∈ s.hauls, h.id = s.co.ident.haul → h.saved = []) (hl : s.co.ident.level = 0) :
    ((∃ k ∈ s.coaches, k.of s.co.ident.haul s.co.ident.rake = true) → s.retireCoach.rakes = s.rakes ∧
      s.retireCoach.hauls.map (·.rakesDone) = s.hauls.map (·.rakesDone)) ∧
    ((∀ k ∈ s.coaches, k.of s.co.ident.haul s.co.ident.rake = false) →
      s.retireCoach.rakes = s.rakes.filter (fun r => !(r.haul == s.co.ident.haul && r.rake == s.co.ident.rake)) ∧
        s.retireCoach.hauls.map (·.rakesDone) =
          s.hauls.map fun h => h.rakesDone + if h.id = s.co.ident.haul then 1 else 0) := by
  obtain ⟨hcoaches, -, hrakes, hhauls, -, -⟩ := s.departed_spec
  obtain ⟨c, hident, heq⟩ := s.retireCoach_eq hg
  rw [heq, if_pos (by rw [hident, hl]), State.leaveRake_eq (by rw [hident, hhauls]; exact hs), ← hident, ← hcoaches, ← hrakes,
    ← hhauls]
  exact ⟨State.outOfRake_stays rfl, State.outOfRake_last rfl⟩

theorem State.retireCoach_view (hl : s.co.ident.level ≠ 0) {r i : Nat} {v : ViewReq} (hc : s.co.ident.view = some (r, i))
    (hv : s.view? r = some v) : s.retireCoach.view? r = some { v with retired := v.retired + 1 } := by
  obtain ⟨-, -, -, -, hviews, -⟩ := s.departed_spec
  obtain ⟨c, hident, heq⟩ := s.retireCoach_eq hg
  rw [heq, if_neg (by rwa [hident])]
  exact State.leaveLift_view? (by rw [hident, hc]) (by rwa [State.view?, hviews])

end retire

/-! ## A rake is placed (R35, R69 to R71) -/

/-- A coach seated in a rake: it has its core, slot, port, number and bases, and is as it was beside these. -/
def Seats (r : Rake) (p : Coach × Nat) (c : Coach) : Prop :=
  c = { p.1 with
    ident := { p.1.ident with id := c.ident.id, core := r.core p.1.ident.rel, slot := p.2, port := c.ident.port }
    window := c.window
    issue := { p.1.issue with since := c.issue.since, codeSince := c.issue.codeSince } }

theorem State.seat_spec (s : State) (r : Rake) (c : Coach) (slot : Nat) :
    ∃ k, Seats r (c, slot) k ∧ (s.seat r c slot).coaches = s.coaches ++ [k] ∧ (s.seat r c slot).co = s.co ∧
      (s.seat r c slot).mem = s.mem ∧ (s.seat r c slot).quads = s.quads ∧ (s.seat r c slot).hauls = s.hauls := by
  unfold State.seat
  by_cases hf : (c.ident.id == 0) = true
  · simp only [hf, if_true]
    refine ⟨_, ?_, rfl, rfl, rfl, rfl, rfl⟩
    rfl
  · simp only [hf, Bool.false_eq_true, if_false, and_true]
    refine ⟨_, ?_, rfl⟩
    rfl

theorem State.seatAll_spec (r : Rake) (cs : List (Coach × Nat)) (s : State) :
    ∃ l, List.Forall₂ (Seats r) cs l ∧ (s.seatAll r cs).coaches = s.coaches ++ l ∧ (s.seatAll r cs).co = s.co ∧
      (s.seatAll r cs).mem = s.mem ∧ (s.seatAll r cs).quads = s.quads ∧ (s.seatAll r cs).hauls = s.hauls := by
  induction cs generalizing s with
  | nil => exact ⟨[], .nil, (List.append_nil _).symm, rfl, rfl, rfl, rfl⟩
  | cons p cs ih =>
    obtain ⟨k, hk, hcoaches, hco, hmem, hquads, hhauls⟩ := s.seat_spec r p.1 p.2
    obtain ⟨l, hl, lcoaches, lco, lmem, lquads, lhauls⟩ := ih (s.seat r p.1 p.2)
    exact ⟨k :: l, .cons hk hl, lcoaches.trans (by rw [hcoaches, List.append_assoc, List.singleton_append]), lco.trans hco,
      lmem.trans hmem, lquads.trans hquads, lhauls.trans hhauls⟩

/-- The state in which the coaches of a FRESH rake take their places: the quad is the haul's, the rake's room reads as zero. -/
def State.cleared (s : State) (h : Haul) (r : Rake) : State :=
  let u := if (s.quad r.quad).haul = none then s.takeQuad h r.quad else s
  ((u.modQuad r.quad fun q => { q with power := .on, idleFrom := none }).warmCode r.quad).clearRake h r

/-- Its haul after a FRESH rake has been placed. -/
def Haul.placed (r : Rake) (h : Haul) : Haul :=
  { h with
    nextRake := h.nextRake + 1
    saved := h.saved.filter fun x => x.rake != r.rake
    waits := h.waits.filter fun p => p.1 != r.rake
    promoted := h.promoted.filter fun x => x != r.rake
    dies := if h.dies.any fun p => p.1 == r.rake then h.dies else h.dies ++ [(r.rake, r.quad / 16)] }

section place
variable {h : Haul} {r : Rake}

theorem State.place_fresh (s : State) (h : Haul) (r : Rake) (cs : List (Coach × Nat)) :
    let u := s.cleared h r
    s.place h r cs none = (({ u.seatAll r cs with rakes := u.rakes ++ [r] }).modHaul h.id (Haul.placed r)).recountWatch h.id := rfl

/-- What making room for a rake leaves alone. -/
def State.manning (s : State) : Coach × List Coach × List Rake × List Haul := (s.co, s.coaches, s.rakes, s.hauls)

theorem State.takeQuad_quads (s : State) (h : Haul) (q : Nat) : ∃ f : Quad → Quad, (∀ k, (f k).haul = some h.id) ∧
    (s.takeQuad h q).quads = (s.modQuad q f).quads :=
  ⟨_, fun _ => rfl, foldl_frame (f := fun (s : State) j =>
    (s.modCore (4 * q + j) fun k => { k.vacate with part := h.hdr.part }).clear (homeWgt (4 * q + j) 0) 32768)
    (g := State.quads) (fun _ _ => rfl) _ _⟩

theorem State.takeQuad_manning (s : State) (h : Haul) (q : Nat) : (s.takeQuad h q).manning = s.manning :=
  foldl_frame (f := fun (s : State) j =>
    (s.modCore (4 * q + j) fun k => { k.vacate with part := h.hdr.part }).clear (homeWgt (4 * q + j) 0) 32768)
    (g := State.manning) (fun _ _ => rfl) _ _

theorem State.clearRake_frame (s : State) (h : Haul) (r : Rake) :
    (s.clearRake h r).manning = s.manning ∧ (s.clearRake h r).quads = s.quads := by
  have hstep : ∀ (s : State) (j : Nat), (if h.hdr.coachesOn j = 0 then s
      else s.clear (homeScr (r.core j) ((r.scr[j]?).getD 0)) h.hdr.scrb).manning = s.manning ∧
      (if h.hdr.coachesOn j = 0 then s
      else s.clear (homeScr (r.core j) ((r.scr[j]?).getD 0)) h.hdr.scrb).quads = s.quads := by
    intro s j
    split <;> exact ⟨rfl, rfl⟩
  exact ⟨foldl_frame (g := State.manning) (fun s j => (hstep s j).1) _ _,
    foldl_frame (g := State.quads) (fun s j => (hstep s j).2) _ _⟩

theorem State.cleared_manning (s : State) (h : Haul) (r : Rake) : (s.cleared h r).manning = s.manning := by
  refine (State.clearRake_frame _ h r).1.trans ?_
  split
  · exact s.takeQuad_manning h r.quad
  · rfl

theorem State.cleared_quad (hq : (s.quad r.quad).haul = none ∨ (s.quad r.quad).haul = some h.id) :
    ((s.cleared h r).quad r.quad).haul = some h.id ∧ ((s.cleared h r).quad r.quad).power = .on := by
  let u := if (s.quad r.quad).haul = none then s.takeQuad h r.quad else s
  have hu : (u.quad r.quad).haul = some h.id := by
    by_cases hn : (s.quad r.quad).haul = none
    · obtain ⟨f, hf, hquads⟩ := s.takeQuad_quads h r.quad
      have hquad : (s.takeQuad h r.quad).quad r.quad = (s.modQuad r.quad f).quad r.quad := by rw [State.quad, State.quad, hquads]
      simp only [u, hn, if_true]
      rw [hquad, State.quad_modQuad_same, hf]
    · simp only [u, hn, if_false]
      exact hq.resolve_left hn
  have hquads : (s.cleared h r).quads = (u.modQuad r.quad fun q => { q with power := .on, idleFrom := none }).quads :=
    (State.clearRake_frame _ h r).2
  have hquad : (s.cleared h r).quad r.quad = { u.quad r.quad with power := .on, idleFrom := none } := by
    rw [State.quad, hquads, ← State.quad, State.quad_modQuad_same]
  rw [hquad]
  exact ⟨hu, rfl⟩

/-- The quad memory of the rake reads as zero. -/
theorem State.cleared_mem (hm : Memory.wf s.mem = true) {x : Nat} (hx : x < h.hdr.qmb) :
    Memory.get (s.cleared h r).mem (homeQm r.quad r.qmBase + x) = 0 := by
  let u := if (s.quad r.quad).haul = none then s.takeQuad h r.quad else s
  have hu : Memory.wf u.mem = true := by
    by_cases hn : (s.quad r.quad).haul = none
    · simp only [u, hn, if_true]
      exact State.takeQuad_wf h r.quad hm
    · simp only [u, hn, if_false]
      exact hm
  let P (w : State) : Prop := Memory.wf w.mem = true ∧ Memory.get w.mem (homeQm r.quad r.qmBase + x) = 0
  have hclear : ∀ (w : State) a n, P w → P (w.clear a n) := fun w a n hw => by
    refine ⟨State.clear_wf a n hw.1, ?_⟩
    rw [State.clear_mem, Memory.get_clear _ _ _ hw.1, hw.2, ite_self]
  let w := ((u.modQuad r.quad fun q => { q with power := .on, idleFrom := none }).warmCode r.quad).clear
    (homeQm r.quad r.qmBase) h.hdr.qmb
  have hfirst : P w := by
    refine ⟨State.clear_wf _ _ hu, ?_⟩
    exact (Memory.get_clear _ _ _ hu).trans (if_pos (by omega))
  have hall : P ((List.range 4).foldl (fun s j => if h.hdr.coachesOn j = 0 then s
      else s.clear (homeScr (r.core j) ((r.scr[j]?).getD 0)) h.hdr.scrb) w) :=
    List.foldlRecOn (motive := P) _ _ hfirst fun v hv j _ => by
      split
      · exact hv
      · exact hclear v _ _ hv
  exact hall.2

end place

theorem regang_zero (new : Nat → Nat) : regang new 0 = 0 := by
  simp [regang]

/-! The coaches of a FRESH rake (R35) -/

/-- A coach as O53 has it after its rake has been placed: coach i of the rake, ready at ENTRY in U mode. -/
def Haul.Starts (h : Haul) (rake q rot i : Nat) (c : Coach) : Prop :=
  c.ident.cidx = i ∧ c.ident.rake = rake ∧ c.ident.haul = h.id ∧ c.ident.level = 0 ∧
    c.ident.core = 4 * q + (rot + i % 4) % 4 ∧ c.issue.phase = .ready ∧ c.issue.off = (h.hdr.entry : Int) ∧
    c.traps.mode = .u ∧ c.masks.live = c.masks.exm ∧
    (∀ l, l < 32 → c.masks.exm.getLsbD l = decide (32 * i + l < h.hdr.lanes) ∧
      vget (vget c.regs.v 0) l = BitVec.ofNat 32 (32 * i + l)) ∧
    ([1, 2, 3, 4, 5].map fun j => vget c.regs.g j) = [h.hdr.args, BitVec.ofNat 64 rake, BitVec.ofNat 64 i,
      BitVec.ofNat 64 h.hdr.rakes, BitVec.ofNat 64 h.hdr.ncoach] ∧
    c.special.asid = h.asid ∧ c.special.ptbase = h.ptroot

theorem Haul.freshCoach_starts (h : Haul) (r : Rake) (i slot : Nat) {c : Coach}
    (hc : Seats r (h.freshCoach r.rake i, slot) c) : h.Starts r.rake r.quad r.rot i c ∧ c.ident.slot = slot := by
  rw [hc]
  refine ⟨⟨rfl, rfl, rfl, rfl, rfl, rfl, rfl, rfl, rfl, fun l hl => ⟨?_, ?_⟩, ?_, rfl, rfl⟩, rfl⟩
  · have hmask : (h.hdr.liveMask i).getLsbD l = decide (32 * i + l < h.hdr.lanes) := by
      rw [Header.liveMask, getLsbD_laneMask]
      simp [hl]
    exact hmask
  · simp only [Haul.freshCoach, vget_vset, if_true]
    exact vget_laneVec _ _ hl
  · simp [Haul.freshCoach, vget_vset]

/-- The coaches with the slots chosen for them, their GANG values naming the slots taken (R268). -/
def withSlots (cs : List Coach) (slots : List Nat) : List (Coach × Nat) :=
  let at_ := cs.zip slots
  let new (rel old : Nat) : Nat :=
    ((at_.find? fun p => p.1.ident.rel == rel && p.1.ident.slot == old).map (·.2)).getD old
  at_.map fun p => ({ p.1 with special := { p.1.special with gang := regang (new p.1.ident.rel) p.1.special.gang } }, p.2)

theorem withSlots_no_gang {cs : List Coach} (slots : List Nat) (h : ∀ c ∈ cs, c.special.gang = 0) :
    withSlots cs slots = cs.zip slots := by
  refine (List.map_congr_left fun p hp => ?_).trans (List.map_id _)
  have hgang := h p.1 (List.of_mem_zip hp).1
  rw [hgang, regang_zero, ← hgang]
  rfl

section exec
variable {h : Haul} {rake q rot : Nat} {slots : List Nat}

theorem Haul.coachesToSeat_fresh (hs : h.saved = []) (now : Nat) :
    h.coachesToSeat rake now = (List.range h.hdr.ncoach).map fun i => h.freshCoach rake i := by
  rw [Haul.coachesToSeat, hs]
  rfl

theorem exec_rakePlace (hh : s.haul? h.id = some h) (hroom : s.room h rake q rot = true)
    (hnext : s.isNext h rake q = true) (hslots : s.slotsOk (h.coachesToSeat rake s.fresh) q rot slots = true) :
    exec (.rakePlace h.id rake q rot slots) s = .next (
      if (h.saved.any fun r => r.rake == rake) && s.areaBad h.id rake then s.stopHaul h.id 9 8 0
      else s.place h (s.newRake h rake q rot) (withSlots (h.coachesToSeat rake s.fresh) slots)
        (h.saved.find? fun r => r.rake == rake)) := by
  have hall : (s.room h rake q rot && s.isNext h rake q && s.slotsOk (h.coachesToSeat rake s.fresh) q rot slots) = true := by
    rw [hroom, hnext, hslots]
    rfl
  simp only [exec, execRakePlace, hh, hall, if_true, withSlots]

/-- A FRESH rake in its turn is placed, its coaches as they start. -/
theorem exec_rakePlace_fresh (hh : s.haul? h.id = some h) (hs : h.saved = []) (hroom : s.room h rake q rot = true)
    (hnext : s.isNext h rake q = true) (hslots : s.slotsOk (h.coachesToSeat rake s.fresh) q rot slots = true) :
    exec (.rakePlace h.id rake q rot slots) s = .next (s.place h (s.newRake h rake q rot)
      (((List.range h.hdr.ncoach).map fun i => h.freshCoach rake i).zip slots) none) := by
  have hgang : ∀ c ∈ (List.range h.hdr.ncoach).map fun i => h.freshCoach rake i, c.special.gang = 0 := by
    intro c hc
    obtain ⟨i, -, rfl⟩ := List.mem_map.mp hc
    rfl
  rw [exec_rakePlace hh hroom hnext hslots, hs, if_neg (by simp), Haul.coachesToSeat_fresh hs, withSlots_no_gang slots hgang]
  rfl

end exec

theorem State.slots_length {cs : List Coach} {quad rot : Nat} {slots : List Nat} (h : s.slotsOk cs quad rot slots = true) :
    slots.length = cs.length := by
  simp only [State.slotsOk, Bool.and_eq_true, beq_iff_eq] at h
  exact h.1.1

/-- A quad with room for a rake of a haul holds this haul or none. -/
theorem State.room_quad {h : Haul} {rake quad rot : Nat} (hr : s.room h rake quad rot = true) :
    (s.quad quad).haul = none ∨ (s.quad quad).haul = some h.id := by
  have hopen : s.quadOpen h quad = true := by
    simp only [State.room, Bool.and_eq_true] at hr
    exact hr.1.1.1.1.1
  simp only [State.quadOpen, Bool.and_eq_true, Bool.or_eq_true, beq_iff_eq] at hopen
  obtain ⟨⟨⟨⟨⟨-, -⟩, hhaul⟩, -⟩, -⟩, -⟩ := hopen
  exact hhaul

section placed
variable {h : Haul} {r : Rake} {slots : List Nat}

/-- The coaches of a FRESH rake stand after those that were resident, each in its slot. -/
theorem State.place_fresh_coaches (s : State) (h : Haul) (r : Rake) {slots : List Nat} (hl : slots.length = h.hdr.ncoach) :
    let cs := (List.range h.hdr.ncoach).map fun i => h.freshCoach r.rake i
    let t := s.place h r (cs.zip slots) none
    ∃ l : List Coach, t.coaches = s.coaches ++ l ∧ l.length = h.hdr.ncoach ∧
      ∀ i c, l[i]? = some c → h.Starts r.rake r.quad r.rot i c ∧ slots[i]? = some c.ident.slot := by
  intro cs t
  obtain ⟨l, hseats, hcoaches, -⟩ := State.seatAll_spec r (cs.zip slots) (s.cleared h r)
  have hmanning := s.cleared_manning h r
  simp only [State.manning, Prod.mk.injEq] at hmanning
  have hlen : l.length = h.hdr.ncoach := by
    rw [← hseats.length_eq, List.length_zip]
    simp [cs, hl]
  refine ⟨l, hcoaches.trans (by rw [hmanning.2.1]), hlen, fun i c hc => ?_⟩
  obtain ⟨hi, rfl⟩ := List.getElem?_eq_some_iff.mp hc
  have hz : i < (cs.zip slots).length := by rwa [hseats.length_eq]
  have hseat : Seats r (cs.zip slots)[i] l[i] := hseats.get hz hi
  have hzip : (cs.zip slots)[i] = (h.freshCoach r.rake i, slots[i]'(by omega)) := by
    simp [cs]
  rw [hzip] at hseat
  obtain ⟨hstart, hslot⟩ := h.freshCoach_starts r i _ hseat
  exact ⟨hstart, by rw [hslot, List.getElem?_eq_getElem]⟩

/-- What else the placement of a FRESH rake does: its quad, its quad memory, and NEXT of its haul. -/
theorem State.place_fresh_spec (s : State) (h : Haul) (r : Rake) (ps : List (Coach × Nat)) (hm : Memory.wf s.mem = true)
    (hq : (s.quad r.quad).haul = none ∨ (s.quad r.quad).haul = some h.id) :
    let t := s.place h r ps none
    t.rakes = s.rakes ++ [r] ∧ t.co = s.co ∧ (t.quad r.quad).haul = some h.id ∧ (t.quad r.quad).power = .on ∧
      (∀ x, x < h.hdr.qmb → Memory.get t.mem (homeQm r.quad r.qmBase + x) = 0) ∧
      ∀ k ∈ t.hauls, k.id = h.id → ∃ g ∈ s.hauls, g.id = h.id ∧ k.nextRake = g.nextRake + 1 := by
  rw [State.place_fresh]
  intro t
  obtain ⟨l, -, -, hco, hmem, hquads, hhauls⟩ := State.seatAll_spec r ps (s.cleared h r)
  have hmanning := s.cleared_manning h r
  simp only [State.manning, Prod.mk.injEq] at hmanning
  obtain ⟨mco, -, mrakes, mhauls⟩ := hmanning
  have hquad : t.quad r.quad = (s.cleared h r).quad r.quad := congrArg (fun qs => tget quadReset qs r.quad) hquads
  rw [hquad]
  refine ⟨congrArg (· ++ [r]) mrakes, hco.trans mco, (State.cleared_quad hq).1, (State.cleared_quad hq).2, fun x hx => ?_,
    fun k hk hid => ?_⟩
  · have hget : Memory.get t.mem = Memory.get (s.cleared h r).mem := congrArg Memory.get hmem
    rw [hget]
    exact State.cleared_mem hm hx
  · let u : State := { (s.cleared h r).seatAll r ps with rakes := (s.cleared h r).rakes ++ [r] }
    have hmap : t.hauls.map (fun k => (k.id, k.nextRake)) =
        (u.modHaul h.id (Haul.placed r)).hauls.map fun k => (k.id, k.nextRake) := State.map_recountWatch fun _ _ _ => rfl
    have hin : (k.id, k.nextRake) ∈ t.hauls.map fun k => (k.id, k.nextRake) := List.mem_map.mpr ⟨k, hk, rfl⟩
    rw [hmap] at hin
    obtain ⟨j, hj, he⟩ := List.mem_map.mp hin
    obtain ⟨g, hg, rfl⟩ := List.mem_map.mp hj
    have hg : g ∈ s.hauls := by
      rw [← mhauls, ← hhauls]
      exact hg
    obtain ⟨hjid, hjnext⟩ := Prod.mk.inj he
    by_cases hgid : g.id = h.id
    · rw [if_pos hgid] at hjnext
      exact ⟨g, hg, hgid, hjnext.symm⟩
    · rw [if_neg hgid] at hjid
      exact absurd (hjid.trans hid) hgid

end placed

/-! ## Pre-emption requests (R350) -/

theorem State.allCoaches_modRake {haul rake : Nat} {f : Coach → Coach} (hf : ∀ c, (f c).present = c.present) :
    (s.modRake haul rake f).allCoaches = s.allCoaches.map fun c => if c.of haul rake then f c else c :=
  State.allCoaches_map (f := fun c => if c.of haul rake then f c else c) fun k _ => by
    split
    · exact hf k
    · rfl

theorem Coach.request_frame (c : Coach) (now : Dword) :
    (c.request now).present = c.present ∧ (c.request now).ident = c.ident ∧ (c.request now).preempt.pending = true := by
  unfold Coach.request
  split
  · exact ⟨rfl, rfl, ‹_›⟩
  · exact ⟨rfl, rfl, rfl⟩

theorem State.mem_requestRake {haul rake : Nat} {c : Coach} (hc : c ∈ (s.requestRake haul rake).allCoaches) :
    ∃ k ∈ s.allCoaches, c = if k.of haul rake then k.request s.dev.time else k := by
  rw [State.requestRake, State.allCoaches_modRake fun c => (c.request_frame _).1] at hc
  obtain ⟨k, hk, rfl⟩ := List.mem_map.mp hc
  exact ⟨k, hk, rfl⟩

/-- A request pends at every coach of a rake. -/
def State.Pends (s : State) (haul rake : Nat) : Prop := ∀ c ∈ s.allCoaches, c.of haul rake = true → c.preempt.pending = true

theorem State.requestRake_pends (s : State) (haul rake : Nat) : (s.requestRake haul rake).Pends haul rake := by
  intro c hc hof
  obtain ⟨k, -, rfl⟩ := State.mem_requestRake hc
  by_cases hk : k.of haul rake = true
  · rw [if_pos hk]
    exact (k.request_frame _).2.2
  · rw [if_neg hk] at hof
    exact absurd hof hk

theorem State.Pends.requestRake {haul rake : Nat} (h : s.Pends haul rake) (haul' rake' : Nat) :
    (s.requestRake haul' rake').Pends haul rake := by
  intro c hc hof
  obtain ⟨k, hk, rfl⟩ := State.mem_requestRake hc
  by_cases hk' : k.of haul' rake' = true
  · rw [if_pos hk']
    exact (k.request_frame _).2.2
  · rw [if_neg hk'] at hof ⊢
    exact h k hk hof

theorem State.foldl_requestRake_pends {r : Rake} (l : List Rake) (s : State) (h : r ∈ l ∨ s.Pends r.haul r.rake) :
    (l.foldl (fun s r => s.requestRake r.haul r.rake) s).Pends r.haul r.rake := by
  induction l generalizing s with
  | nil => exact h.resolve_left List.not_mem_nil
  | cons x l ih =>
    refine ih _ ?_
    rcases h with h | h
    · rcases List.mem_cons.mp h with rfl | h
      · exact .inr (State.requestRake_pends _ _ _)
      · exact .inl h
    · exact .inr (State.Pends.requestRake h _ _)

/-- A quad is asked to drain: a request pends at every coach of its rakes. -/
theorem State.requestWhere_spec (s : State) (q : Nat) :
    let t := (s.requestWhere fun r => r.quad == q).modQuad q fun q => { q with draining := true }
    t.mem = s.mem ∧ t.rakes = s.rakes ∧ (t.quad q).draining = true ∧
      ∀ r ∈ s.rakes, r.quad = q → t.Pends r.haul r.rake := by
  have hframe : ∀ (l : List Rake) (s : State), (l.foldl (fun s r => s.requestRake r.haul r.rake) s).mem = s.mem ∧
      (l.foldl (fun s r => s.requestRake r.haul r.rake) s).rakes = s.rakes := fun l s =>
    ⟨foldl_frame (g := State.mem) (fun _ _ => by rfl) l s, foldl_frame (g := State.rakes) (fun _ _ => by rfl) l s⟩
  refine ⟨(hframe _ s).1, (hframe _ s).2, ?_, fun r hr hq => ?_⟩
  · rw [State.quad_modQuad_same]
  · exact State.foldl_requestRake_pends _ s (.inl (List.mem_filter.mpr ⟨hr, by simpa using hq⟩))

theorem State.victim_mem {q : Nat} {v : Rake} (h : s.victim q = some v) : v ∈ s.rakes ∧ v.quad = q := by
  have hpick : ∀ (l : List Rake) (r : Rake), l.foldl (fun a b => if b.older a then b else a) r ∈ r :: l := by
    intro l
    induction l with
    | nil => exact fun r => List.mem_singleton_self r
    | cons x l ih =>
      intro r
      rcases List.mem_cons.mp (ih (if x.older r then x else r)) with h | h
      · rw [List.foldl_cons, h]
        split <;> simp
      · exact List.mem_cons_of_mem _ (List.mem_cons_of_mem _ h)
  have hmem : v ∈ s.rakes.filter fun r => r.quad == q := by
    unfold State.victim at h
    split at h
    · cases h
    · rename_i r l hl
      rw [hl]
      dsimp only at h
      split at h
      · cases h
      · split at h
        · exact Option.some.inj h ▸ hpick l r
        · cases h
  simpa using List.mem_filter.mp hmem

/-! ## Quads change hands (R72, R358) -/

theorem State.core_modCore (s : State) (n : Nat) (f : Core → Core) (k : Nat) :
    (s.modCore n f).core k = if k = n then f (s.core n) else s.core k := tget_tset ..

theorem State.quad_modQuad (s : State) (n : Nat) (f : Quad → Quad) (k : Nat) :
    (s.modQuad n f).quad k = if k = n then f (s.quad n) else s.quad k := tget_tset ..

theorem foldl_vacate_core (n : Nat) (k : Nat) (l : List Nat) (s : State)
    (h : k ∈ l ∨ (s.core (n + k)).banks = [] ∧ (s.core (n + k)).token = 0) :
    let t := l.foldl (fun s j => s.modCore (n + j) Core.vacate) s
    (t.core (n + k)).banks = [] ∧ (t.core (n + k)).token = 0 := by
  induction l generalizing s with
  | nil => exact h.resolve_left List.not_mem_nil
  | cons j l ih =>
    refine ih _ ?_
    rw [State.core_modCore]
    by_cases hj : k = j
    · rw [if_pos (by omega)]
      exact .inr ⟨rfl, rfl⟩
    · rw [if_neg (by omega)]
      exact h.imp_left fun h => (List.mem_cons.mp h).resolve_left hj

theorem State.vacate_spec (s : State) (q : Nat) :
    (s.vacate q).mem = s.mem ∧ (s.vacate q).co = s.co ∧
      (s.vacate q).quad q = { s.quad q with haul := none, lifts := [], draining := false } ∧
      ∀ j, j < 4 → ((s.vacate q).core (4 * q + j)).banks = [] ∧ ((s.vacate q).core (4 * q + j)).token = 0 := by
  let u := s.modQuad q Quad.vacate
  have hframe : ∀ {β : Type} (g : State → β) (hg : ∀ (s : State) j, g (s.modCore (4 * q + j) Core.vacate) = g s),
      g (s.vacate q) = g u := fun g hg => foldl_frame (f := fun s j => s.modCore (4 * q + j) Core.vacate) hg _ _
  refine ⟨hframe State.mem fun _ _ => rfl, hframe State.co fun _ _ => rfl, ?_, fun j hj => ?_⟩
  · exact (hframe (fun s => s.quad q) fun _ _ => rfl).trans (State.quad_modQuad_same ..)
  · exact foldl_vacate_core (4 * q) j (List.range 4) u (.inl (List.mem_range.mpr hj))

/-- Of the VFs that share a quad the only other one that waits is the next that it serves. -/
theorem State.sharers_only {q n : Nat} (hv : (s.quad q).vf < 32) (hn : n < 32) (hne : n ≠ (s.quad q).vf)
    (hlist : s.lists n q = true) (hshr : (s.vf n).shr = true) (hwait : s.swapIn n ≠ [])
    (honly : ∀ m, s.lists m q = true → (s.vf m).shr = true → s.swapIn m ≠ [] → m = (s.quad q).vf ∨ m = n) :
    ∃ rest, s.sharers q = n :: rest := by
  have hmem : n ∈ s.sharers q := by
    refine List.mem_filter.mpr ⟨List.mem_map.mpr ⟨(n + 31 - (s.quad q).vf) % 32, List.mem_range.mpr (by omega), by omega⟩, ?_⟩
    simp [hlist, hshr, hwait]
  have hall : ∀ m ∈ s.sharers q, m = n := by
    intro m hm
    obtain ⟨hm, hwaits⟩ := List.mem_filter.mp hm
    obtain ⟨i, hi, rfl⟩ := List.mem_map.mp hm
    rw [List.mem_range] at hi
    simp only [Bool.and_eq_true, bne_iff_ne] at hwaits
    obtain ⟨⟨hl, hs⟩, hw⟩ := hwaits
    exact (honly _ hl hs hw).resolve_left (by omega)
  cases hl : s.sharers q with
  | nil =>
    rw [hl] at hmem
    exact absurd hmem List.not_mem_nil
  | cons m rest => exact ⟨rest, by rw [hall m (by rw [hl]; exact List.mem_cons_self)]⟩

/-! ## The obligation -/

theorem exec_preemptionRequest {h r : Nat} {g : Haul} {k : Rake} (hg : s.haul? h = some g) (hk : s.rake? h r = some k) :
    exec (.preemptionRequest h r) s = .next (if s.asked g k then s.requestRake h r else s) := by
  simp only [exec, execPreemptionRequest, hg, hk]

theorem State.asked_iff {g : Haul} {k : Rake} : s.asked g k = true ↔ g.saving.isSome = true ∨
    (s.vf g.vf).locking.isSome = true ∨ (s.quad k.quad).draining = true ∨
      (s.swapIn (s.quad k.quad).vf ≠ [] ∧ s.victim k.quad = some k) := by
  simp [State.asked, or_assoc]

theorem exec_preemptionDeadline {h : Haul} (hh : s.haul? h.id = some h) (r : Nat) :
    exec (.preemptionDeadline h.id r) s = .next (s.modRake h.id r fun c =>
      if c.preempt.pending && !c.preempt.atSave && c.issue.rex.isNone &&
          decide (h.hdr.deadlineUs * ticksPerUs ≤ (s.dev.time - c.preempt.since).toNat) then
        { c with preempt := { c.preempt with atSave := true, full := true } }
      else c) := by
  simp only [exec, execPreemptionDeadline, hh]

theorem exec_timeSlice {q : Nat} {v : Rake} {w : Waiting} {rest : List Waiting} (hv : s.victim q = some v)
    (hw : s.swapIn (s.quad q).vf = w :: rest) : exec (.timeSlice q) s = .next (
      if w.haul = v.haul then s.requestRake v.haul v.rake
      else (s.requestWhere fun r => r.quad == q).modQuad q fun q => { q with draining := true }) := by
  simp only [exec, execTimeSlice, hv, hw]

theorem exec_swapInPromote {h : Haul} {r : Nat} {w : Waiting} (hh : s.haul? h.id = some h)
    (hw : h.waiting.find? (fun w => w.rake == r) = some w) : exec (.swapInPromote h.id r) s = .next (
      if s.runs h ∧ !w.front ∧ w.since + 8 * h.hdr.sliceUs * ticksPerUs < s.dev.time.toNat then
        s.modHaul h.id fun h => { h with promoted := h.promoted ++ [r] }
      else s) := by
  simp only [exec, execSwapInPromote, hh, hw]

theorem exec_quadHaulChange {q h : Nat} (hq : (s.quad q).haul = some h) (hd : s.drained q h = true) :
    exec (.quadHaulChange q) s = .next (s.vacate q) := by
  simp only [exec, execQuadHaulChange, hq, hd, if_true]

theorem exec_vfSliceSwitch {q n : Nat} {rest : List Nat} (hs : s.sharers q = n :: rest) (ho : s.vfOver q = true) :
    exec (.vfSliceSwitch q) s = .next (
      if (s.quad q).haul = none then s.modQuad q fun q => { q with vf := n, vfSince := s.dev.time, draining := false }
      else (s.requestWhere fun r => r.quad == q).modQuad q fun q => { q with draining := true }) := by
  simp only [exec, execVfSliceSwitch, hs, ho, Bool.not_true, Bool.false_eq_true, if_false]

/-- Settles O53: the last steps of coaches and hauls go by what they leave alone (`State.retireCoach_frame`,
`State.roster`), a placement by its coaches one by one (`State.seatAll_spec`), the requests by the coaches of a rake. -/
theorem rakesAndHauls : Obligations.RakesAndHauls := by
  refine ⟨?retire, ⟨?done, ?record, ?ended, ?signal⟩, ?place, ?request, ?deadline, ?slice, ?promote, ?change, ?switch⟩
  case retire =>
    intro s c n hphase hclock htickets harray hpages hgang hid hother hsaved
    have hmay : s.mayRetire = true := by
      simp only [State.mayRetire, Bool.and_eq_true, Bool.or_eq_true, beq_iff_eq, decide_eq_true_eq]
      exact ⟨⟨congrArg not harray, List.isEmpty_iff.mpr htickets⟩, hpages⟩
    obtain ⟨hco, hcoaches, hmem, hbanks⟩ := State.retireCoach_frame hgang hsaved
    have hfocus : s.retireCoach.focus s.co.ident.id = s.retireCoach :=
      State.focus_absent (by rw [hco]; exact Ne.symm hid) (by rw [hcoaches]; exact hother)
    refine ⟨s.retireCoach, ?_, hco, hcoaches, hmem, hbanks, fun hl => ?_, fun hl => ?_, fun hl r i v hv hview =>
      State.retireCoach_view hgang hl hv hview⟩
    · rw [exec_coachRetire_own hphase hclock htickets hmay, hfocus]
    · exact (State.retireCoach_rake hgang hsaved hl).1
    · exact (State.retireCoach_rake hgang hsaved hl).2
  case done =>
    intro s h hh hr hd he hdone hv hs hsave hflr g u
    refine ⟨_, exec_haulRetire_done hh hr hd he hdone hv hs hsave hflr, fun hl => ?_, ?_⟩
    · rw [hl]
      rfl
    · intro v p l b hl htcb hpacket hsig hrec halign hm hx hhost
      have hvm : Memory.wf v.mem = true := wf_of_eq hx (State.translate_wf _ _ _ hm)
      have huv : u.Accesses v := .of_eq hx ((State.Accesses.refl u).translate _ _ _)
      have hlen := (recordBytes_fields 0 0 h.image h.launchNo.toNat h.rakesDone h.tAccept s.dev.time 0).1
      rw [hl, if_pos rfl, State.retirement_record hh he hsave hflr htcb hpacket hsig hrec halign hx hhost]
      refine ⟨?_, huv.co, fun a ha => Memory.get_wr_outside hvm (by rwa [hlen])⟩
      have hrd := State.rd_wr_same hvm p (recordBytes 0 0 h.image h.launchNo.toNat h.rakesDone h.tAccept s.dev.time 0)
      rwa [hlen] at hrd
  case record => exact fun st de ad im no dn ta te => recordBytes_fields st de im no dn ta te ad
  case ended =>
    intro s h e hh hr hd he ha
    obtain ⟨t, hexec, ⟨hcoaches, hrakes, hviews⟩, hretired⟩ := exec_haulRetire_ended hh hr hd he ha
    exact ⟨t, hexec, hcoaches, hrakes, hviews, hretired⟩
  case signal =>
    intro s v x sig p l b hm h0 hx hhost hok t
    have hvm : Memory.wf v.mem = true := wf_of_eq hx (State.translate_wf _ _ _ hm)
    have ht : t = (v.wrNat p 8 ((v.rdNat p 8 + (2 ^ 64 - 1)) % 2 ^ 64), true) :=
      (State.recordAndSignal_signal x h0 []).trans (State.atomicVa_made hx hok hhost)
    rw [ht]
    refine ⟨rfl, ?_, fun a ha => Memory.get_wr_outside hvm (by rwa [leBytes_length])⟩
    rw [State.wrNat, State.rdNat_wr_same hvm]
    omega
  case place =>
    intro s h rake q rot slots hh hs hm hroom hnext hslots
    have hlen : slots.length = h.hdr.ncoach := by
      rw [State.slots_length hslots, Haul.coachesToSeat_fresh hs]
      simp
    have hquad := State.room_quad hroom
    let r := s.newRake h rake q rot
    let cs := (List.range h.hdr.ncoach).map fun i => h.freshCoach rake i
    obtain ⟨l, hcoaches, hl, hstarts⟩ := s.place_fresh_coaches h r hlen
    obtain ⟨hrakes, hco, hhaul, hpower, hmem, hhauls⟩ := s.place_fresh_spec h r (cs.zip slots) hm hquad
    refine ⟨s.place h r (cs.zip slots) none, r, l, exec_rakePlace_fresh hh hs hroom hnext hslots, hrakes, rfl, rfl, rfl, rfl,
      hco, hcoaches, hl, fun i c hc => ?_, hhaul, hpower, hmem, fun k hk hid => ?_⟩
    · obtain ⟨⟨hcidx, hrake, hhaul, hlevel, hcore, hstart⟩, hslot⟩ := hstarts i c hc
      exact ⟨hcidx, hrake, hhaul, hlevel, hcore, hslot, hstart⟩
    · obtain ⟨g, hg, hgid, hnext⟩ := hhauls k hk hid
      by_cases hgh : g = h
      · exact .inl (hgh ▸ hnext)
      · exact .inr ⟨g, hg, hgh, hgid⟩
  case request =>
    intro h r s g k hg hk asked
    rw [exec_preemptionRequest hg hk]
    refine ⟨fun hn => by rw [if_neg (mt State.asked_iff.mp hn)], fun ha => ?_⟩
    rw [if_pos (State.asked_iff.mpr ha)]
    refine ⟨_, rfl, rfl, ?_⟩
    rw [State.requestRake, State.allCoaches_modRake fun c => (c.request_frame _).1]
    refine List.map_congr_left fun c _ => ?_
    by_cases hof : c.of h r = true
    · rw [if_pos hof, Coach.request]
      by_cases hp : c.preempt.pending = true
      · rw [if_pos hp, if_neg (by simp [hp])]
      · rw [if_neg hp, if_pos ⟨hof, by simpa using hp⟩]
        rfl
    · rw [if_neg hof, if_neg fun h => hof h.1]
  case deadline =>
    intro s h r hh
    refine ⟨_, exec_preemptionDeadline hh r, rfl, ?_⟩
    rw [State.allCoaches_modRake fun c => by split <;> rfl]
    refine List.map_congr_left fun c _ => ?_
    rw [← ite_and]
    refine if_congr ?_ rfl rfl
    simp only [Bool.and_eq_true, Bool.not_eq_eq_eq_not, Bool.not_true, Option.isNone_iff_eq_none, decide_eq_true_iff, and_assoc]
    exact Iff.rfl
  case slice =>
    intro q s v w rest hv hw
    refine ⟨_, exec_timeSlice hv hw, ?_⟩
    obtain ⟨hvmem, hvq⟩ := State.victim_mem hv
    obtain ⟨hmem, hrakes, hdrain, hpend⟩ := s.requestWhere_spec q
    by_cases hsame : w.haul = v.haul
    · rw [if_pos hsame]
      exact ⟨rfl, rfl, State.requestRake_pends _ _ _, fun hne => absurd hsame hne, fun _ => rfl⟩
    · rw [if_neg hsame]
      exact ⟨hmem, hrakes, hpend v hvmem hvq, fun _ => ⟨hdrain, hpend⟩, fun he => absurd he hsame⟩
  case promote =>
    intro s h r w hh hw hruns hfront hlate
    rw [exec_swapInPromote hh hw, if_pos ⟨hruns, by simp [hfront], hlate⟩]
    refine ⟨_, rfl, rfl, (State.haul?_modHaul fun _ => by rfl).trans ?_⟩
    rw [hh]
    rfl
  case change =>
    intro s q h hq hd
    exact ⟨_, exec_quadHaulChange hq hd, s.vacate_spec q⟩
  case switch =>
    intro q s n v hshr hslice honly hn hne hv hlist hnshr hwait
    obtain ⟨rest, hs⟩ := State.sharers_only hv hn hne hlist hnshr hwait honly
    have hover : s.vfOver q = true := by
      simp only [State.vfOver, Bool.and_eq_true, decide_eq_true_eq, bne_iff_ne]
      exact ⟨⟨hshr, hslice⟩, by rw [hs]; exact List.cons_ne_nil _ _⟩
    refine ⟨_, exec_vfSliceSwitch hs hover, ?_⟩
    obtain ⟨hmem, -, hdrain, hpend⟩ := s.requestWhere_spec q
    by_cases hhaul : (s.quad q).haul = none
    · rw [if_pos hhaul]
      exact ⟨rfl, fun _ => ⟨rfl, s.quad_modQuad q _⟩, fun h => absurd hhaul h⟩
    · rw [if_neg hhaul]
      exact ⟨hmem, fun h => absurd h hhaul, fun _ => ⟨hdrain, hpend⟩⟩

end Sys2Proof.Machine
end

section
/-! # O25: the check of an access and translation (R45, R194 to R196, R201, R202, R206, R214, R321, R357, R359, R381; log 11)

A walk of the tables does nothing to memory but set A and D and, at a controller's or a host's port, count what the port
refuses (`State.Walks`); what a translation finds has passed the leaf (`Granted`) and the port, or the IOMMU (`Reached`). -/

namespace Sys2Proof.Machine
variable {s t : State}

/-! ## What a walk does to memory (R201, R357) -/

/-- What a walk of the tables for a requester port may make of the byte b at x. -/
def WalkedByte (port x : Nat) (b c : Byte) : Prop :=
  c = b ∨ (x % 8 = 0 ∧ ∃ k : Byte, k &&& 0x3F = 0 ∧ c = b ||| k) ∨ 64 ≤ port ∧ homeWin 0x1000 ≤ x ∧ x < homeWin 0x1800

theorem WalkedByte.trans {port x : Nat} {a b c : Byte} (h : WalkedByte port x a b) (k : WalkedByte port x b c) :
    WalkedByte port x a c := by
  obtain rfl | ⟨hx, m, hm, rfl⟩ | h := h
  · exact k
  · obtain rfl | ⟨-, n, hn, rfl⟩ | k := k
    · exact .inr (.inl ⟨hx, m, hm, rfl⟩)
    · exact .inr (.inl ⟨hx, m ||| n, by rw [BitVec.and_or_distrib_right, hm, hn]; rfl, BitVec.or_assoc ..⟩)
    · exact .inr (.inr k)
  · exact .inr (.inr h)

/-- From s to t memory has been read through the tables for a requester port: A and D of table entries may have been set,
refused accesses counted, and the TLBs may have taken entries. -/
structure State.Walks (port : Nat) (s t : State) : Prop where
  accesses : s.Accesses t
  moves : t.migrations.length = s.migrations.length
  wf : Memory.wf s.mem = true → Memory.wf t.mem = true
  bytes : Memory.wf s.mem = true → ∀ x, WalkedByte port x (Memory.get s.mem x) (Memory.get t.mem x)

theorem leBytes_leNat (l : List Byte) : leBytes l.length (leNat l) = l := by
  induction l with
  | nil => rfl
  | cons b l ih =>
    have hb : b.toNat < 256 := b.isLt
    have hq : (b.toNat + 256 * leNat l) / 256 = leNat l := by omega
    have hr : BitVec.ofNat 8 (b.toNat + 256 * leNat l) = b := by
      refine BitVec.eq_of_toNat_eq ?_
      rw [BitVec.toNat_ofNat]
      omega
    rw [List.length_cons, leNat, leBytes, hq, hr, ih]

/-- The number of a dword with a bit of its first byte set differs from the number in that byte alone. -/
theorem leBytes_or_bit (b : Byte) (l : List Byte) {bit : Nat} (hbit : bit < 8) :
    leBytes (l.length + 1) (leNat (b :: l) ||| 2 ^ bit) = (b ||| BitVec.ofNat 8 (2 ^ bit)) :: l := by
  have hb : b.toNat < 256 := b.isLt
  have hbelow : 2 ^ bit < 256 := Nat.pow_lt_pow_right (by omega : 1 < 2) hbit
  have hq : (leNat (b :: l) ||| 2 ^ bit) / 256 = leNat l := by
    have h8 : (256 : Nat) = 2 ^ 8 := rfl
    rw [h8, ← Nat.shiftRight_eq_div_pow, Nat.shiftRight_or_distrib, Nat.shiftRight_eq_div_pow, Nat.shiftRight_eq_div_pow,
      Nat.div_eq_of_lt hbelow, Nat.or_zero, leNat]
    omega
  have hr : BitVec.ofNat 8 (leNat (b :: l)) = b := by
    refine BitVec.eq_of_toNat_eq ?_
    rw [BitVec.toNat_ofNat, leNat]
    omega
  rw [leBytes, hq, leBytes_leNat, BitVec.ofNat_or, hr]

theorem State.get_setEntryBit (hm : Memory.wf s.mem = true) (pa : Nat) {bit : Nat} (hbit : bit < 8) (x : Nat) :
    Memory.get (s.setEntryBit pa bit).mem x = Memory.get s.mem x ∨
      (x = pa ∧ Memory.get (s.setEntryBit pa bit).mem x = Memory.get s.mem x ||| BitVec.ofNat 8 (2 ^ bit)) := by
  unfold State.setEntryBit
  dsimp only
  split
  · exact .inl rfl
  · have hbytes : leBytes 8 (s.rdNat pa 8 ||| 2 ^ bit) =
        (Memory.get s.mem pa ||| BitVec.ofNat 8 (2 ^ bit)) :: Memory.getAll s.mem (pa + 1) 7 := by
      have h := leBytes_or_bit (Memory.get s.mem pa) (Memory.getAll s.mem (pa + 1) 7) hbit
      rwa [Memory.getAll_length] at h
    rw [State.wrNat, hbytes, State.wr_mem, Memory.get_putAll _ _ _ hm]
    split
    · rename_i hr
      simp only [List.length_cons, Memory.getAll_length] at hr
      by_cases hx : x = pa
      · subst hx
        exact .inr ⟨rfl, by simp⟩
      · obtain ⟨i, rfl⟩ : ∃ i, x = pa + 1 + i := ⟨x - (pa + 1), by omega⟩
        rw [show pa + 1 + i - pa = i + 1 by omega, List.getElem?_cons_succ,
          Memory.getAll_getElem? _ _ _ _ (by omega)]
        exact .inl rfl
    · exact .inl rfl

theorem State.ownerOf_lt (s : State) (a : Nat) : s.ownerOf a < 32 := by
  unfold State.ownerOf
  cases h : (List.range 32).find? fun n => (s.vf n).memp.getLsbD (groupOf a) with
  | none => exact Nat.zero_lt_succ _
  | some n => exact List.mem_range.mp (List.mem_of_find?_eq_some h)

namespace State.Walks
variable {port : Nat}

theorem refl (port : Nat) (s : State) : s.Walks port s := ⟨.refl s, rfl, id, fun _ _ => .inl rfl⟩

theorem of_eq {α : Type} {r : State × α} {a : α} (e : r = (t, a)) (h : s.Walks port r.1) : s.Walks port t := by
  subst e
  exact h

theorem setEntryBit (h : s.Walks port t) {pa bit : Nat} (ha : pa % 8 = 0) (hbit : bit = eA ∨ bit = eD) :
    s.Walks port (t.setEntryBit pa bit) := by
  refine ⟨h.accesses.setEntryBit .., ?_, fun hm => State.setEntryBit_wf pa bit (h.wf hm), fun hm x => (h.bytes hm x).trans ?_⟩
  · rw [← h.moves]
    unfold State.setEntryBit
    dsimp only
    split
    · rfl
    · exact List.length_map _
  · have h8 : bit < 8 := by rcases hbit with rfl | rfl <;> decide
    obtain he | ⟨rfl, he⟩ := State.get_setEntryBit (h.wf hm) pa h8 x
    · exact .inl he
    · refine .inr (.inl ⟨ha, _, ?_, he⟩)
      rcases hbit with rfl | rfl <;> rfl

theorem refusePort (h : s.Walks port t) (a : Nat) : s.Walks port (t.refusePort port a) := by
  refine ⟨h.accesses.refusePort .., ?_, fun hm => State.refusePort_wf port a (h.wf hm), fun hm x => (h.bytes hm x).trans ?_⟩
  · rw [← h.moves]
    unfold State.refusePort
    split
    · rfl
    · exact List.length_map _
  · unfold State.refusePort
    split
    · exact .inl rfl
    · have hown := t.ownerOf_lt a
      rw [State.countRefused, State.bumpVf, State.wrNat, State.wr_mem, Memory.get_putAll _ _ _ (h.wf hm), leBytes_length]
      split
      · refine .inr (.inr ?_)
        unfold homeWin at *
        omega
      · exact .inl rfl

theorem tlbTake (h : s.Walks port t) (e : TlbEntry) : s.Walks port (t.tlbTake e) :=
  ⟨h.accesses.tlbTake e, h.moves, h.wf, h.bytes⟩

theorem coreTakes (h : s.Walks port t) (x : Ctx) (e : TlbEntry) : s.Walks port (t.coreTakes x e) := by
  unfold State.coreTakes
  split
  · exact h
  · exact h.tlbTake _


end State.Walks

/-! ## Table entries are aligned dwords (R199, R200) -/

theorem entryPa_aligned (e : Dword) : entryPa e % 8 = 0 := by
  unfold entryPa
  omega

/-- A leaf that a second-stage walk answers stands at an aligned dword and maps a page of a size that a level has. -/
theorem walk2_ok {port vf gpa : Nat} {l : List (Nat × Nat × Nat)} {table bits pa : Nat} {e : Dword}
    (h : walk2 port vf gpa l table s = (t, .ok (e, bits, pa))) (ha : table % 8 = 0) :
    pa % 8 = 0 ∧ bits ≠ 0 ∧ bits ∈ l.map (·.2.2) := by
  induction l generalizing table s with
  | nil => cases h
  | cons a l ih =>
    obtain ⟨sh, wd, b⟩ := a
    unfold walk2 at h
    dsimp only at h
    split at h
    · cases h
    split at h
    · cases h
    split at h
    · cases h
    split at h
    · cases h
    rename_i hok
    split at h
    · rename_i hleaf
      split at h
      · simp only [Prod.mk.injEq, Except.ok.injEq] at h
        obtain ⟨-, -, rfl, rfl⟩ := h
        refine ⟨by omega, ?_, List.mem_cons_self⟩
        simp only [Bool.or_eq_true, Bool.not_eq_true', not_or, Bool.not_eq_false] at hok
        obtain ⟨-, hok⟩ := hok
        simp only [entryOk, hleaf, if_true, Bool.and_eq_true, bne_iff_ne] at hok
        exact hok.2.1.1
      · cases h
    · obtain ⟨hpa, hb, hmem⟩ := ih h (entryPa_aligned _)
      exact ⟨hpa, hb, List.mem_cons_of_mem _ hmem⟩

/-- What the second stage makes of a guest physical address keeps its place in an aligned dword. -/
theorem State.stage2_ok {port vf gpa da p b : Nat} {e : Dword} (h : s.stage2 port vf gpa = (t, .ok (da, e, p, b))) :
    p % 8 = 0 ∧ da % 8 = gpa % 8 := by
  unfold State.stage2 at h
  split at h
  · cases h
  · rename_i hw
    cases h
    obtain ⟨hp, hb, hmem⟩ := walk2_ok hw (by omega)
    refine ⟨hp, ?_⟩
    have he := entryPa_aligned e
    simp only [levels, List.map_cons, List.map_nil, List.mem_cons, List.not_mem_nil, or_false] at hmem
    obtain rfl | rfl | rfl | rfl := hmem
    · exact absurd rfl hb
    all_goals omega

/-- A leaf that a first-stage walk answers stands at an aligned dword, and so does the second-stage leaf of its table page. -/
theorem walk1_ok {port vf va : Nat} {l : List (Nat × Nat × Nat)} {table bits pa pa2 : Nat} {e : Dword}
    (h : walk1 port vf va l table s = (t, .ok (e, bits, pa, pa2))) (ha : table % 8 = 0) : pa % 8 = 0 ∧ pa2 % 8 = 0 := by
  induction l generalizing table s with
  | nil => cases h
  | cons a l ih =>
    unfold walk1 at h
    split at h
    · cases h
    · rename_i h2
      obtain ⟨hp2, hp⟩ := State.stage2_ok h2
      dsimp only at h
      split at h
      · cases h
      split at h
      · cases h
      split at h
      · cases h
      split at h
      · cases h
      split at h
      · simp only [Prod.mk.injEq, Except.ok.injEq] at h
        obtain ⟨-, -, -, rfl, rfl⟩ := h
        exact ⟨by omega, hp2⟩
      · exact ih h (entryPa_aligned _)

/-- The second-stage leaf of a frame stands at an aligned dword. -/
theorem State.frameOf_ok_aligned {x : Ctx} {acc : Acc} {va bits home : Nat} {e : Dword} {s2 : Option (Dword × Nat × Nat)}
    (h : s.frameOf x acc va e bits = (t, .ok (home, s2))) : ∀ q ∈ s2, q.2.1 % 8 = 0 := by
  unfold State.frameOf at h
  dsimp only at h
  split at h
  case h_1 =>
    split at h <;> cases h
    simp
  case h_2 =>
    cases h
    simp
  case h_3 =>
    split at h
    · cases h
    split at h
    · cases h
    rename_i h2
    split at h
    · cases h
    split at h
    · cases h
    · cases h
      simpa using (State.stage2_ok h2).1

namespace State.Walks
variable {port : Nat}

theorem walk2 (h : s.Walks port t) (vf gpa : Nat) (l : List (Nat × Nat × Nat)) {table : Nat} (ha : table % 8 = 0) :
    s.Walks port (Machine.walk2 port vf gpa l table t).1 := by
  induction l generalizing table t with
  | nil => exact h
  | cons a l ih =>
    obtain ⟨sh, wd, b⟩ := a
    unfold Machine.walk2
    dsimp only
    have hset : s.Walks port (t.setEntryBit (table + 8 * (gpa / 2 ^ sh % 2 ^ wd)) eA) :=
      h.setEntryBit (by omega) (.inl rfl)
    split
    · exact h
    split
    · exact h.refusePort _
    split
    · exact h
    split
    · exact h
    split
    · split
      · exact hset
      · exact h
    · exact ih hset (entryPa_aligned _)

theorem stage2 (h : s.Walks port t) (vf gpa : Nat) : s.Walks port (t.stage2 port vf gpa).1 := by
  have hw := h.walk2 vf gpa levels (table := (t.vf vf).s2base.toNat % 2 ^ 52 / 4096 * 4096) (by omega)
  unfold State.stage2
  split <;> exact of_eq ‹_› hw

theorem walk1 (h : s.Walks port t) (vf va : Nat) (l : List (Nat × Nat × Nat)) {table : Nat} (ha : table % 8 = 0) :
    s.Walks port (Machine.walk1 port vf va l table t).1 := by
  induction l generalizing table t with
  | nil => exact h
  | cons a l ih =>
    unfold Machine.walk1
    split
    · rename_i h2
      exact of_eq h2 (h.stage2 ..)
    · rename_i u pa e2 pa2 b h2
      have hu : s.Walks port u := of_eq h2 (h.stage2 ..)
      obtain ⟨hp2, hp⟩ := State.stage2_ok h2
      dsimp only
      split
      · exact hu
      split
      · exact hu.refusePort _
      split
      · exact hu
      split
      · exact hu
      have hmarked : s.Walks port (if (BitVec.ofNat 64 (u.rdNat pa 8)).getLsbD eA then u
          else (u.setEntryBit pa eA).setEntryBit pa2 eD) := by
        split
        · exact hu
        · exact (hu.setEntryBit (by omega) (.inl rfl)).setEntryBit hp2 (.inr rfl)
      split
      · exact hmarked
      · exact ih hmarked (entryPa_aligned _)

theorem markDirty (h : s.Walks port t) (acc : Acc) (e : Dword) {pa pa2 : Nat} {s2 : Option (Dword × Nat)}
    (ha : pa % 8 = 0) (ha2 : pa2 % 8 = 0) (hs2 : ∀ q ∈ s2, q.2 % 8 = 0) : s.Walks port (t.markDirty acc e pa pa2 s2) := by
  unfold State.markDirty
  split
  · exact h
  · cases s2 with
    | none =>
      dsimp only
      split
      · exact h
      · exact (h.setEntryBit ha (.inr rfl)).setEntryBit ha2 (.inr rfl)
    | some q =>
      have hq := h.setEntryBit (hs2 q rfl) (.inr rfl : eD = eA ∨ eD = eD)
      dsimp only
      split
      · exact hq
      · exact (hq.setEntryBit ha (.inr rfl)).setEntryBit ha2 (.inr rfl)

variable {x : Ctx}

theorem frameOf (h : s.Walks x.port t) (acc : Acc) (va : Nat) (e : Dword) (bits : Nat) :
    s.Walks x.port (t.frameOf x acc va e bits).1 := by
  unfold State.frameOf
  dsimp only
  split
  · exact h
  · exact h
  · split
    · exact h
    · rename_i g _
      have h2 := h.stage2 x.vf g
      split
      · exact of_eq ‹_› h2
      · have hu := of_eq ‹_› h2
        split
        · exact hu
        split
        · exact hu.refusePort _
        · exact hu

theorem resolve (h : s.Walks x.port t) (acc : Acc) (va : Nat) (e : Dword) (bits : Nat) {pa pa2 : Nat} (ha : pa % 8 = 0)
    (ha2 : pa2 % 8 = 0) : s.Walks x.port (t.resolve x acc va e bits pa pa2).1 := by
  have hf := h.frameOf acc va e bits
  unfold State.resolve
  split
  · exact of_eq ‹_› hf
  · rename_i u home s2 hfo
    have hu := of_eq hfo hf
    dsimp only
    split
    · exact hu
    · refine ((hu.markDirty acc e ha ha2 fun q hq => ?_).tlbTake _).coreTakes x _
      obtain ⟨r, hr, rfl⟩ := Option.mem_map.mp hq
      exact State.frameOf_ok_aligned hfo r hr

theorem translateWalk (h : s.Walks x.port t) (acc : Acc) (va : Nat) : s.Walks x.port (t.translateWalk x acc va).1 := by
  have hroot : x.root.toNat % 2 ^ 52 / 4096 * 4096 % 8 = 0 := by omega
  have hw := h.walk1 x.vf va levels hroot
  unfold State.translateWalk
  split
  · exact of_eq ‹_› hw
  · rename_i hok
    obtain ⟨hpa, hpa2⟩ := walk1_ok hok hroot
    have hu := of_eq hok hw
    split
    · exact hu
    split
    · split <;> exact hu
    · exact hu.resolve acc va _ _ hpa hpa2

theorem translateHit (h : s.Walks x.port t) (acc : Acc) (va : Nat) (e : TlbEntry) :
    s.Walks x.port (t.translateHit x acc va e).1 := by
  have hf := h.frameOf acc va e.leaf e.pbits
  unfold State.translateHit
  split
  · exact h
  split
  · dsimp only
    split
    · exact h
    split
    · exact h.refusePort _
    split <;> exact h
  · split
    · exact of_eq ‹_› hf
    · rename_i hfo
      have hu := of_eq hfo hf
      split
      · exact hu
      · refine hu.markDirty acc e.leaf rfl rfl fun q hq => ?_
        obtain ⟨r, hr, rfl⟩ := Option.mem_map.mp hq
        exact State.frameOf_ok_aligned hfo r hr

theorem translate (h : s.Walks x.port t) (acc : Acc) (va : Nat) : s.Walks x.port (t.translate x acc va).1 := by
  unfold State.translate
  split
  · exact h
  split
  · split
    · exact h
    split <;> exact h
  · split
    · exact (h.coreTakes x _).translateHit acc va _
    · exact h.translateWalk acc va

end State.Walks

/-! ## What a found home has passed (R202, R214, R321, R357, R359) -/

/-- The leaf grants the access, and a speculative task writes its own publish sets alone. -/
def Granted (x : Ctx) (acc : Acc) (leaf : Dword) : Prop :=
  (x.user = true → leaf.getLsbD eU = true) ∧ (acc.writes = true → leaf.getLsbD eW = true) ∧
  (acc = .fetch → leaf.getLsbD eX = true) ∧
  ∀ sets, x.spec = some sets → acc.writes = true → leafKind leaf = 3 ∧ (leaf.extractLsb' 12 16).toNat ∈ sets

theorem granted_of_checks {x : Ctx} {acc : Acc} {leaf : Dword} (hd : ¬ leafDenies x acc leaf = true)
    (ho : ¬ outsideSets x acc leaf = true) : Granted x acc leaf := by
  simp only [leafDenies, Bool.or_eq_true, Bool.and_eq_true, Bool.not_eq_true', not_or, not_and, Bool.not_eq_false,
    beq_iff_eq] at hd
  obtain ⟨⟨⟨hu, hw⟩, hx⟩, -⟩ := hd
  refine ⟨hu, hw, hx, fun sets hs ha => ?_⟩
  simp only [outsideSets, hs, ha, Bool.true_and, Bool.not_eq_true', Bool.not_eq_false, Bool.and_eq_true, beq_iff_eq,
    List.contains_iff_mem] at ho
  exact ho

/-- The home lies in device memory that the port's row and, for a quad's port, the serving VF's MEMP allow, in host memory that
the IOMMU allows, or in another device of the pod. -/
def State.Reached (s : State) (x : Ctx) (acc : Acc) (home : Nat) : Prop :=
  (home < devBytes ∧ (vget s.dev.cmxrow x.port).getLsbD (groupOf home) = true ∧
    (x.port < 64 → (s.vf (s.quad x.port).vf).memp.getLsbD (groupOf home) = true)) ∨
  (∃ a, home = homeHost x.pasid a ∧ Config.iommuAllows x.pasid a acc.writes = true ∧ acc ≠ .atom ∧ acc ≠ .cell) ∨
  ∃ d a, home = homePod d a

theorem State.reached_of_portAllows {x : Ctx} {acc : Acc} {home : Nat} (h : s.portAllows x.port home = true) :
    s.Reached x acc home := by
  simp only [State.portAllows, Bool.and_eq_true, decide_eq_true_eq] at h
  obtain ⟨hdev, hmask⟩ := h
  refine .inl ⟨hdev, ?_⟩
  split at hmask
  · rw [BitVec.getLsbD_and, Bool.and_eq_true] at hmask
    exact ⟨hmask.1, fun _ => hmask.2⟩
  · rename_i hport
    exact ⟨hmask, fun h => absurd h hport⟩

theorem State.Accesses.reached {x : Ctx} {acc : Acc} {home : Nat} (h : s.Accesses t) (hr : t.Reached x acc home) :
    s.Reached x acc home := by
  have hq : t.quad x.port = s.quad x.port := by rw [State.quad, h.quads, State.quad]
  simpa only [State.Reached, h.cmxrow, hq, h.vf] using hr

theorem State.frameOf_reached {x : Ctx} {acc : Acc} {va bits home : Nat} {e : Dword} {s2 : Option (Dword × Nat × Nat)}
    (h : s.frameOf x acc va e bits = (t, .ok (home, s2))) (hd : ¬ leafDenies x acc e = true) : s.Reached x acc home := by
  unfold State.frameOf at h
  dsimp only at h
  split at h
  case h_1 hk =>
    split at h
    · rename_i hi
      cases h
      have hkind : leafKind e = 1 := BitVec.eq_of_toNat_eq hk
      have hno : acc.noHost = false := by
        simp only [leafDenies, hkind, beq_self_eq_true, Bool.and_true, Bool.or_eq_true, not_or, Bool.not_eq_true] at hd
        exact hd.2
      have hatom : acc ≠ .atom := by rintro rfl; cases hno
      have hcell : acc ≠ .cell := by rintro rfl; cases hno
      exact .inr (.inl ⟨_, rfl, hi, hatom, hcell⟩)
    · cases h
  case h_2 =>
    cases h
    exact .inr (.inr ⟨_, _, rfl⟩)
  case h_3 =>
    split at h
    · cases h
    split at h
    · cases h
    rename_i u da e2 p2 b2 h2
    split at h
    · cases h
    split at h
    · cases h
    · rename_i hport
      cases h
      refine (State.Accesses.of_eq h2 ((State.Accesses.refl s).stage2 ..)).reached (State.reached_of_portAllows ?_)
      simpa using hport

theorem State.resolve_found {x : Ctx} {acc : Acc} {va bits pa pa2 home b : Nat} {e leaf : Dword}
    (h : s.resolve x acc va e bits pa pa2 = (t, .found home leaf b)) (hd : ¬ leafDenies x acc e = true) :
    Granted x acc leaf ∧ s.Reached x acc home := by
  unfold State.resolve at h
  split at h
  · rename_i hf
    cases h
    exact absurd (congrArg Prod.snd hf) State.frameOf_ne_found
  · rename_i hf
    dsimp only at h
    split at h
    · cases h
    · rename_i ho
      cases h
      exact ⟨granted_of_checks hd ho, State.frameOf_reached hf hd⟩

theorem State.translateWalk_found {x : Ctx} {acc : Acc} {va home b : Nat} {leaf : Dword}
    (h : s.translateWalk x acc va = (t, .found home leaf b)) : Granted x acc leaf ∧ s.Reached x acc home := by
  unfold State.translateWalk at h
  split at h
  · rename_i hw
    cases h
    exact absurd (congrArg Prod.snd hw) walk1_ne_found
  · rename_i hw
    split at h
    · cases h
    rename_i hd
    split at h
    · split at h <;> cases h
    · obtain ⟨hg, hr⟩ := State.resolve_found h hd
      exact ⟨hg, (State.Accesses.of_eq hw ((State.Accesses.refl s).walk1 ..)).reached hr⟩

theorem State.translateHit_found {x : Ctx} {acc : Acc} {va home b : Nat} {leaf : Dword} {e : TlbEntry}
    (h : s.translateHit x acc va e = (t, .found home leaf b)) : Granted x acc leaf ∧ s.Reached x acc home := by
  unfold State.translateHit at h
  split at h
  · cases h
  rename_i hd
  split at h
  · dsimp only at h
    split at h
    · cases h
    split at h
    · cases h
    rename_i hport
    split at h
    · cases h
    · rename_i ho
      cases h
      exact ⟨granted_of_checks hd ho, State.reached_of_portAllows (by simpa using hport)⟩
  · split at h
    · rename_i hf
      cases h
      exact absurd (congrArg Prod.snd hf) State.frameOf_ne_found
    · rename_i hf
      split at h
      · cases h
      · rename_i ho
        cases h
        exact ⟨granted_of_checks hd ho, State.frameOf_reached hf hd⟩

/-- The host window's leaf grants every access but a speculative task's write. -/
theorem granted_window {x : Ctx} {acc : Acc} (h : ¬ (acc.writes = true ∧ x.spec.isSome = true)) :
    Granted x acc 0x3F#64 :=
  ⟨fun _ => rfl, fun _ => rfl, fun _ => rfl, fun _ hs ha => absurd ⟨ha, by rw [hs]; rfl⟩ h⟩

/-- What a translation that finds a home has passed (R202, R45, R357, R359). -/
theorem State.translate_found {x : Ctx} {acc : Acc} {va home b : Nat} {leaf : Dword}
    (h : s.translate x acc va = (t, .found home leaf b)) :
    va < 2 ^ 52 ∧ Granted x acc leaf ∧
    (winBase ≤ va → home = homeWin (va - winBase) ∧ (acc.writes = true → 65536 ≤ va - winBase)) ∧
    (va < winBase → s.Reached x acc home) := by
  unfold State.translate at h
  split at h
  · cases h
  rename_i hva
  refine ⟨by omega, ?_⟩
  split at h
  · rename_i hwin
    split at h
    · cases h
    rename_i hlow
    split at h
    · cases h
    · rename_i hspec
      obtain ⟨-, hx⟩ := Prod.mk.inj h
      obtain ⟨rfl, rfl, -⟩ := Xl.found.inj hx
      exact ⟨granted_window hspec, fun _ => ⟨rfl, fun ha => Nat.le_of_not_lt fun hl => hlow ⟨ha, hl⟩⟩,
        fun hl => absurd hwin (by omega)⟩
  · rename_i hwin
    suffices hgr : Granted x acc leaf ∧ s.Reached x acc home from
      ⟨hgr.1, fun hl => absurd hl hwin, fun _ => hgr.2⟩
    split at h
    · obtain ⟨hg, hr⟩ := State.translateHit_found h
      exact ⟨hg, ((State.Accesses.refl s).coreTakes x _).reached hr⟩
    · exact State.translateWalk_found h

/-! ## The check of an access (R194 to R196, R206) -/

theorem State.accessNamed_misaligned {acc : Acc} {a : Int} {n : Nat} (h : a % n ≠ 0) :
    s.accessNamed acc a n = (s, .error (causeAddr cMisal a)) := if_pos h

theorem State.accessNamed_beyond {acc : Acc} {a : Int} {n : Nat} (h : a % n = 0) (hr : a < 0 ∨ 2 ^ 52 ≤ a) :
    s.accessNamed acc a n = (s, .error (causeAddr cProt a)) := by
  rw [State.accessNamed, if_neg (not_not_intro h)]
  split
  · rfl
  · have ht : s.translate s.ctx acc a.toNat = (s, .prot) := if_pos (by omega)
    rw [ht]

theorem State.Walks.accessNamed (s : State) (acc : Acc) (a : Int) (n : Nat) :
    s.Walks s.ctx.port (s.accessNamed acc a n).1 := by
  have ht := (State.Walks.refl s.ctx.port s).translate (x := s.ctx) acc a.toNat
  unfold State.accessNamed
  split
  · exact .refl ..
  split
  · exact .refl ..
  split <;> exact State.Walks.of_eq ‹_› ht

theorem State.accessNamed_error {acc : Acc} {a : Int} {n : Nat} {k : Cause} (h : (s.accessNamed acc a n).2 = .error k)
    (ha : a % n = 0) : k = causeAddr cProt a ∨ k = causeAddr cSpecw a ∨ k = causeAddr cEcc a := by
  rw [State.accessNamed, if_neg (not_not_intro ha)] at h
  split at h
  · exact .inl (Except.error.inj h).symm
  split at h
  · exact .inl (Except.error.inj h).symm
  · exact .inr (.inr (Except.error.inj h).symm)
  · exact .inr (.inl (Except.error.inj h).symm)
  · cases h
  · cases h

/-- An access that names no snapshot is refused as the check says. -/
theorem State.access_error {acc : Acc} {a : Int} {n : Nat} {k : Cause} :
    (s.access acc a n).2 = .error k ↔ (s.accessNamed acc a n).2 = .error k := by
  unfold State.access
  split <;> rename_i h <;> simp [h]

theorem State.access_of_error {acc : Acc} {a : Int} {n : Nat} {k : Cause} (h : s.accessNamed acc a n = (t, .error k)) :
    s.access acc a n = (t, .error k) := by
  rw [State.access, h]

/-- An access leaves what its check leaves, but for what the snapshot keeps of a set's base range. -/
theorem State.access_fst (s : State) (acc : Acc) (a : Int) (n : Nat) :
    ∃ sets, (s.access acc a n).1 = { (s.accessNamed acc a n).1 with co := { (s.accessNamed acc a n).1.co with sets := sets } } := by
  unfold State.access
  split
  all_goals rename_i h
  all_goals simp only [h]
  iterate 3 exact ⟨_, rfl⟩
  split
  · exact ⟨_, rfl⟩
  · exact ⟨_, rfl⟩

/-- Settles O25: the check asks for the alignment and the range first and then walks the tables, which marks entries alone
(`State.Walks`); a home is found only behind the checks of the leaf and of the port (`State.translate_found`). -/
theorem accessAndTranslation : Obligations.AccessAndTranslation := by
  refine ⟨fun s acc a n _ hm => ?_, fun s x acc va home leaf bits h => ?_⟩
  · obtain ⟨sets, hsets⟩ := s.access_fst acc a n
    have hw := State.Walks.accessNamed s acc a n
    refine ⟨?_, ?_, fun h => State.access_of_error (State.accessNamed_misaligned h),
      fun h hr => State.access_of_error (State.accessNamed_beyond h hr),
      fun k hk ha => State.accessNamed_error (State.access_error.mp hk) ha⟩
    · obtain ⟨_, _, _, _, he⟩ := hw.accesses
      rw [hsets, he]
    · rw [hsets]
      exact hw.bytes hm
  · obtain ⟨hva, ⟨hu, hwr, hx, hspec⟩, hwin, hreach⟩ := State.translate_found (Prod.eq_iff_fst_eq_snd_eq.mpr ⟨rfl, h⟩)
    exact ⟨hva, hu, hwr, hx, hspec, hwin, hreach⟩

end Sys2Proof.Machine
end

section
/-! # What the service of queues, packets and completions leaves alone (R52 to R59, R65 to R67, R79 to R82, R372, R400)

`State.backdrop` is kept by everything that a controller does for queues, packets, tasks and completions; the obligations on
kicks, commands and the lease read off it what they need. -/

namespace Sys2Proof.Machine
variable {s t u : State}

/-! ## Controllers' accesses by guest physical address, and the queue table (R54, R57, R359) -/

theorem State.Accesses.leaderDie (h : s.Accesses t) : t.leaderDie = s.leaderDie := by
  obtain ⟨_, _, _, _, rfl⟩ := h
  rfl

namespace State.Walks
variable {port : Nat}

theorem trans (h : s.Walks port t) (k : t.Walks port u) : s.Walks port u := by
  refine ⟨?_, k.moves.trans h.moves, fun hm => k.wf (h.wf hm), fun hm x => (h.bytes hm x).trans (k.bytes (h.wf hm) x)⟩
  obtain ⟨_, _, _, _, rfl⟩ := h.accesses
  obtain ⟨_, _, _, _, rfl⟩ := k.accesses
  exact ⟨_, _, _, _, rfl⟩

theorem gpaHome (s : State) (vf gpa : Nat) (write : Bool) : s.Walks (ctrlPort s.leaderDie) (s.gpaHome vf gpa write).1 := by
  have h2 := (State.Walks.refl (ctrlPort s.leaderDie) s).stage2 vf gpa
  unfold State.gpaHome
  dsimp only
  split
  · exact of_eq ‹_› h2
  · rename_i hok
    have hu := of_eq hok h2
    split
    · exact hu
    split
    · exact hu.refusePort _
    split
    · exact hu.setEntryBit (State.stage2_ok hok).1 (.inr rfl)
    · exact hu

/-- Two walks of a controller one after the other. -/
theorem gpaHome_then {vf gpa : Nat} {write : Bool} {a : Option Nat} (h : s.gpaHome vf gpa write = (t, a))
    (k : t.Walks (ctrlPort t.leaderDie) u) : s.Walks (ctrlPort s.leaderDie) u := by
  have hs : s.Walks (ctrlPort s.leaderDie) t := of_eq h (gpaHome ..)
  rw [hs.accesses.leaderDie] at k
  exact hs.trans k

theorem walkQueue (s : State) (vf pasid qno : Nat) : s.Walks (ctrlPort s.leaderDie) (s.walkQueue vf pasid qno).1 := by
  unfold State.walkQueue
  dsimp only
  split
  · exact .refl ..
  split
  · exact of_eq ‹_› (gpaHome ..)
  · rename_i h1
    have hs := gpaHome_then h1 (.refl ..)
    split
    · exact hs
    split
    · exact hs
    split
    · exact gpaHome_then h1 (of_eq ‹_› (gpaHome ..))
    · rename_i h2
      have hu := gpaHome_then h1 (of_eq h2 (gpaHome ..))
      split
      · exact hu
      split <;> exact hu

theorem readSpans (x : Ctx) (l : List (Nat × Nat)) (s : State) : s.Walks x.port (State.readSpans x l s).1 := by
  induction l generalizing s with
  | nil => exact .refl ..
  | cons p l ih =>
    have hx := (State.Walks.refl x.port s).translate (x := x) .load p.1
    unfold State.readSpans
    split
    · rename_i hfound
      have hv := of_eq hfound hx
      split
      · exact hv
      · dsimp only
        split
        · exact hv.trans (of_eq ‹_› (ih _))
        · exact hv.trans (ih _)
    all_goals exact of_eq ‹_› hx

theorem writeHomes (x : Ctx) (l : List (Nat × Nat)) (s : State) : s.Walks x.port (State.writeHomes x l s).1 := by
  induction l generalizing s with
  | nil => exact .refl ..
  | cons p l ih =>
    have hx := (State.Walks.refl x.port s).translate (x := x) .store p.1
    unfold State.writeHomes
    split
    · rename_i hfound
      have hv := of_eq hfound hx
      split
      · exact hv.trans (of_eq ‹_› (ih _))
      · exact hv.trans (ih _)
    all_goals exact of_eq ‹_› hx

end State.Walks

/-! ## The backdrop -/

/-- The device's registers but the poisoned granules, the number of page migrations, which hauls have retired or ended, and of
each VF its launches, its publish-set table and its rings. -/
def State.backdrop (s : State) :
    Device × Nat × List (Bool × Option (Nat × Word × Dword)) × (Nat → Word × (Nat × Nat) × List Rings) :=
  ({ s.dev with poison := [] }, s.migrations.length, s.hauls.map fun h => (h.retired, h.ended),
    fun n => ((s.vf n).launches, (s.vf n).pstable, (s.vf n).rings))

theorem State.Walks.backdrop {port : Nat} (h : s.Walks port t) : t.backdrop = s.backdrop := by
  have hmoves := h.moves
  obtain ⟨_, _, _, _, rfl⟩ := h.accesses
  simp only [State.backdrop, State.vf] at hmoves ⊢
  rw [hmoves]

theorem State.backdrop_modVf {n : Nat} {f : Vf → Vf}
    (hf : ∀ v, (f v).launches = v.launches ∧ (f v).pstable = v.pstable ∧ (f v).rings = v.rings) :
    (s.modVf n f).backdrop = s.backdrop := by
  have hvf : (fun k => (((s.modVf n f).vf k).launches, ((s.modVf n f).vf k).pstable, ((s.modVf n f).vf k).rings)) =
      fun k => ((s.vf k).launches, (s.vf k).pstable, (s.vf k).rings) := by
    funext k
    rw [State.vf_modVf]
    split
    · obtain ⟨hl, hp, hr⟩ := hf (s.vf n)
      rw [‹k = n›, hl, hp, hr]
    · rfl
  rw [State.backdrop, hvf]
  rfl

theorem State.backdrop_mapHauls {f : Haul → Haul} (hf : ∀ h, (f h).retired = h.retired ∧ (f h).ended = h.ended) :
    ({ s with hauls := s.hauls.map f } : State).backdrop = s.backdrop := by
  have hmap : (s.hauls.map f).map (fun h => (h.retired, h.ended)) = s.hauls.map fun h => (h.retired, h.ended) := by
    rw [List.map_map]
    exact List.map_congr_left fun h _ => Prod.ext (hf h).1 (hf h).2
  simp only [State.backdrop]
  rw [hmap]
  rfl

theorem State.backdrop_modHaul {id : Nat} {f : Haul → Haul} (hf : ∀ h, (f h).retired = h.retired ∧ (f h).ended = h.ended) :
    (s.modHaul id f).backdrop = s.backdrop :=
  State.backdrop_mapHauls fun h => by
    split
    · exact hf h
    · exact ⟨rfl, rfl⟩

section backdrop
variable {x : Ctx}

@[simp] theorem State.backdrop_wr (s : State) (a : Nat) (b : List Byte) : (s.wr a b).backdrop = s.backdrop := by
  simp only [State.backdrop, State.wr, List.length_map]
  rfl

@[simp] theorem State.backdrop_wrNat (s : State) (a n y : Nat) : (s.wrNat a n y).backdrop = s.backdrop := s.backdrop_wr ..
@[simp] theorem State.backdrop_modQuad (s : State) (n : Nat) (f : Quad → Quad) : (s.modQuad n f).backdrop = s.backdrop := rfl
@[simp] theorem State.backdrop_modQueue (s : State) (n : Nat) (f : Queue → Queue) : (s.modQueue n f).backdrop = s.backdrop := rfl
@[simp] theorem State.backdrop_modPacket (s : State) (n i : Nat) (f : Packet → Packet) :
    (s.modPacket n i f).backdrop = s.backdrop := rfl
@[simp] theorem State.backdrop_endCommand (s : State) (b n k : Nat) (y : Dword) : (s.endCommand b n k y).backdrop = s.backdrop :=
  rfl
@[simp] theorem State.backdrop_countRefused (s : State) (a : Nat) : (s.countRefused a).backdrop = s.backdrop := s.backdrop_wr ..

@[simp] theorem State.backdrop_dropQueues (s : State) (f : Queue → Bool) : (s.dropQueues f).backdrop = s.backdrop :=
  State.backdrop_mapHauls fun h => by split <;> exact ⟨rfl, rfl⟩

@[simp] theorem State.backdrop_refusePort (s : State) (port a : Nat) : (s.refusePort port a).backdrop = s.backdrop :=
  ((State.Walks.refl port s).refusePort a).backdrop

theorem State.backdrop_atPort {port a : Nat} {f : State → State} (hf : (f s).backdrop = s.backdrop) :
    (s.atPort port a f).backdrop = s.backdrop := by
  unfold State.atPort
  split
  · exact hf
  · exact s.backdrop_refusePort ..

@[simp] theorem State.backdrop_wrHostCopy (s : State) (o : Nat × BitVec 16) (a : Nat) (b : List Byte) :
    (s.wrHostCopy o a b).backdrop = s.backdrop :=
  foldl_frame (g := State.backdrop) (f := fun s g => s.ownCopy o g (overlay g (s.homeWord g) a b) true) (fun _ _ => rfl) _ s

@[simp] theorem State.backdrop_poke (s : State) (o : Nat × BitVec 16) (a : Nat) (b : List Byte) :
    (s.poke o a b).backdrop = s.backdrop := by
  unfold State.poke
  split <;> simp

@[simp] theorem State.backdrop_pokeAll (s : State) (o : Nat × BitVec 16) (l : List (Nat × Nat)) (b : List Byte) :
    (s.pokeAll o l b).backdrop = s.backdrop := by
  induction l generalizing s b with
  | nil => rfl
  | cons p l ih => rw [State.pokeAll, ih, State.backdrop_poke]

@[simp] theorem State.backdrop_writeVa (s : State) (x : Ctx) (a : Nat) (b : List Byte) :
    (s.writeVa x a b).1.backdrop = s.backdrop := by
  have hw := (State.Walks.writeHomes x (spans a b.length) s).backdrop
  unfold State.writeVa
  split
  · rename_i he
    rw [he] at hw
    exact (State.backdrop_pokeAll ..).trans hw
  · rename_i he
    rwa [he] at hw

@[simp] theorem State.backdrop_atomicAt (s : State) (a n : Nat) (f : Nat → Nat) : (s.atomicAt a n f).backdrop = s.backdrop := by
  have hback (s : State) (h : HostCopy) : (s.writeBack h).backdrop = s.backdrop := s.backdrop_wrNat ..
  have hsink : (s.sinkHost a n).backdrop = s.backdrop := by
    unfold State.sinkHost
    split
    · exact foldl_frame (f := State.writeBack) (g := State.backdrop) hback _ s
    · rfl
  unfold State.atomicAt
  dsimp only
  split <;> simp [hsink]

@[simp] theorem State.backdrop_atomicVa (s : State) (x : Ctx) (a n : Nat) (f : Nat → Nat) :
    (s.atomicVa x a n f).1.backdrop = s.backdrop := by
  have hx := ((State.Walks.refl x.port s).translate (x := x) .store a).backdrop
  unfold State.atomicVa
  split
  · rename_i he
    rw [he] at hx
    split
    · exact hx
    · exact (State.backdrop_atomicAt ..).trans hx
  · rename_i he
    rwa [he] at hx

/-! Queues and packets (R55, R59, R66, R67) -/

@[simp] theorem State.backdrop_qcbPut (s : State) (q : Queue) (off : Nat) (b : List Byte) :
    (s.qcbPut q off b).backdrop = s.backdrop := State.backdrop_atPort (State.backdrop_wr ..)

@[simp] theorem State.backdrop_activateDeferred (s : State) (vf : Nat) : (s.activateDeferred vf).backdrop = s.backdrop := by
  unfold State.activateDeferred
  split
  · rfl
  split
  · rfl
  rename_i rest _ _
  have hv : (s.modVf vf fun v => { v with deferred := rest }).backdrop = s.backdrop :=
    State.backdrop_modVf fun _ => ⟨rfl, rfl, rfl⟩
  dsimp only
  split
  · exact hv
  · exact (State.backdrop_qcbPut ..).trans hv

@[simp] theorem State.backdrop_setQstate (s : State) (q : Queue) (n : Nat) : (s.setQstate q n).backdrop = s.backdrop := by
  unfold State.setQstate
  dsimp only
  split <;> simp

@[simp] theorem State.backdrop_writeErrsig (s : State) (q : Queue) : (s.writeErrsig q).backdrop = s.backdrop := by
  unfold State.writeErrsig
  dsimp only
  split <;> simp

@[simp] theorem State.backdrop_queueError (s : State) (q : Queue) (n : Nat) : (s.queueError q n).backdrop = s.backdrop := by
  have hv : (s.modVf q.vf fun v => { v with deferred := v.deferred.filter (· != q.id) }).backdrop = s.backdrop :=
    State.backdrop_modVf fun _ => ⟨rfl, rfl, rfl⟩
  unfold State.queueError
  split
  · rfl
  · simp [hv]

@[simp] theorem State.backdrop_settleQueue (s : State) (id : Nat) : (s.settleQueue id).backdrop = s.backdrop := by
  have hcommands (l : List (Nat × Nat)) (s : State) :
      (l.foldl (fun s p => s.endCommand p.1 p.2 0 0) s).backdrop = s.backdrop :=
    foldl_frame (f := fun s (p : Nat × Nat) => s.endCommand p.1 p.2 0 0) (fun _ _ => rfl) l s
  unfold State.settleQueue
  split
  · rfl
  split
  · rfl
  split
  · simp
  split
  · rw [State.backdrop_dropQueues, hcommands, State.backdrop_wrNat]
    split <;> simp
  split <;> simp

@[simp] theorem State.backdrop_packetDone (s : State) (id i : Nat) : (s.packetDone id i).backdrop = s.backdrop := by
  rw [State.packetDone, State.backdrop_settleQueue, State.backdrop_modPacket]

@[simp] theorem State.backdrop_failPacket (s : State) (id i n : Nat) : (s.failPacket id i n).backdrop = s.backdrop := by
  unfold State.failPacket
  split <;> simp

/-! Tasks (R80, R81) -/

@[simp] theorem State.backdrop_tcbPut (s : State) (x : Ctx) (p off n y : Nat) :
    (s.tcbPut x p off n y).backdrop = s.backdrop := State.backdrop_atPort (State.backdrop_poke ..)

@[simp] theorem State.backdrop_hold (s : State) (vf : Nat) (h : Held) : (s.hold vf h).backdrop = s.backdrop := by
  unfold State.hold
  split
  · rfl
  · exact State.backdrop_modVf fun _ => ⟨rfl, rfl, rfl⟩

@[simp] theorem State.backdrop_unhold (s : State) (vf p : Nat) : (s.unhold vf p).backdrop = s.backdrop :=
  State.backdrop_modVf fun _ => ⟨rfl, rfl, rfl⟩

@[simp] theorem State.backdrop_makeReady (s : State) (vf : Nat) (x : Ctx) (p : Nat) :
    (s.makeReady vf x p).backdrop = s.backdrop := by
  refine (State.backdrop_modVf ?_).trans (s.backdrop_tcbPut x p 0 1 tReady)
  exact fun _ => ⟨rfl, rfl, rfl⟩

@[simp] theorem State.backdrop_releaseStep (s : State) (h : Haul) (quad va : Nat) :
    (s.releaseStep h quad va).1.backdrop = s.backdrop := by
  have hx := ((State.Walks.refl quad s).translate (x := s.releaseCtx h quad) .store va).backdrop
  unfold State.releaseStep
  dsimp only
  split
  · rfl
  split
  · rename_i he
    rw [he] at hx
    rw [← hx]
    split
    · rfl
    split
    · simp
    split
    · simp
    split <;> simp
  · rename_i he
    rwa [he] at hx

theorem State.backdrop_releaseEach (h : Haul) (quad : Nat) (src : Byte) (l : List Nat) (s : State) :
    (State.releaseEach h quad src l s).backdrop = s.backdrop := by
  induction l generalizing s with
  | nil => rfl
  | cons va l ih => exact (ih _).trans (s.backdrop_releaseStep h quad va)

@[simp] theorem State.backdrop_releaseTask (s : State) (h : Haul) (quad : Nat) (src : Byte) :
    (s.releaseTask h quad src).backdrop = s.backdrop := by
  unfold State.releaseTask
  split
  · rfl
  rename_i p _
  split
  · rfl
  split
  · exact State.backdrop_modHaul fun _ => ⟨rfl, rfl⟩
  have hv : (s.modHaul h.id fun h => { h with released := true, heldRelease := false }).backdrop = s.backdrop :=
    State.backdrop_modHaul fun _ => ⟨rfl, rfl⟩
  generalize (s.modHaul h.id fun h => { h with released := true, heldRelease := false }) = v at hv ⊢
  dsimp only
  split
  · exact (State.backdrop_refusePort ..).trans hv
  have hx := (State.Walks.readSpans (v.releaseCtx h quad) (spans (v.peekNat (p + 8) 8) (8 * v.peekNat (p + 0x10) 4)) v).backdrop
  rw [← State.readVa] at hx
  split
  · rename_i he
    rw [he] at hx
    exact ((State.backdrop_releaseEach ..).trans hx).trans hv
  · rename_i he
    rw [he] at hx
    exact hx.trans hv

@[simp] theorem State.backdrop_retireTask (s : State) (h : Haul) : (s.retireTask h).backdrop = s.backdrop := by
  unfold State.retireTask
  split
  · rfl
  dsimp only
  split
  · rfl
  split
  · split <;> simp
  · simp

/-! Completion (R372, R373) -/

@[simp] theorem State.backdrop_putRecord (s : State) (x : Ctx) (record : Nat) (b : List Byte) :
    (s.putRecord x record b).1.backdrop = s.backdrop := by
  have hw := s.backdrop_writeVa x record b
  unfold State.putRecord
  split
  · rfl
  split
  · rfl
  split <;> rename_i he <;> rwa [he] at hw

@[simp] theorem State.backdrop_recordAndSignal (s : State) (x : Ctx) (record signal : Nat) (b : List Byte) :
    (s.recordAndSignal x record signal b).1.backdrop = s.backdrop := by
  rw [State.recordAndSignal_eq]
  split <;> simp

@[simp] theorem State.backdrop_completeHaul (s : State) (id : Nat) : (s.completeHaul id).backdrop = s.backdrop := by
  unfold State.completeHaul
  split
  · rfl
  dsimp only
  split
  · simp
  · split <;> simp

/-! Kicks (R54, R58, R59) -/

@[simp] theorem State.backdrop_walkQueue (s : State) (vf pasid qno : Nat) : (s.walkQueue vf pasid qno).1.backdrop = s.backdrop :=
  (State.Walks.walkQueue ..).backdrop

@[simp] theorem State.backdrop_knowQueue (s : State) (vf pasid qno qcb : Nat) :
    (s.knowQueue vf pasid qno qcb).backdrop = s.backdrop := by
  unfold State.knowQueue
  split <;> rfl

@[simp] theorem State.backdrop_examine (s : State) (q : Queue) : (s.examine q).backdrop = s.backdrop := by
  unfold State.examine
  split
  · simp
  split
  · rfl
  split
  · simp
  · exact State.backdrop_modVf fun _ => ⟨rfl, rfl, rfl⟩

theorem State.backdrop_discoverPasid (vf : Nat) (f : State → Nat → Bool) (s : State) (pasid : Nat) :
    (State.discoverPasid vf f s pasid).backdrop = s.backdrop := by
  refine foldl_frame (g := State.backdrop) (fun s qno => ?_) _ s
  have hw := s.backdrop_walkQueue vf pasid qno
  split
  · rename_i he
    rw [he] at hw
    split
    · exact (State.backdrop_knowQueue ..).trans hw
    · exact hw
  · rename_i he
    rwa [he] at hw

@[simp] theorem State.backdrop_discover (s : State) (f : State → Nat → Bool) : (s.discover f).backdrop = s.backdrop := by
  refine foldl_frame (g := State.backdrop) (fun s vf => ?_) _ s
  split
  · exact foldl_frame (g := State.backdrop) (State.backdrop_discoverPasid vf f) _ s
  · rfl

end backdrop
end Sys2Proof.Machine
end

section
/-! # O57: kicks (R54 to R59; logs 67, 70, 79)

A kick is refused, dropped by the walk of the queue table, held, or takes its queue (`State.walkKick_refused` and the lemmas after
it); taking a word of a bitmap examines the queues on its slots (`State.takeKicks_eq`). -/

namespace Sys2Proof.Machine
variable {s t u : State}

/-! ## Counters, single bytes and VFs -/

theorem State.Accesses.dev (h : s.Accesses t) : t.dev = { s.dev with poison := t.dev.poison } := by
  obtain ⟨_, _, _, _, rfl⟩ := h
  rfl

theorem State.rdNat_congr (h : t.mem = s.mem) (a n : Nat) : t.rdNat a n = s.rdNat a n := by
  rw [State.rdNat, State.rd, h, ← State.rd, ← State.rdNat]

theorem setsVf_modVf (s : State) (n : Nat) (f : Vf → Vf) : SetsVf s (s.modVf n f) n (f (s.vf n)) :=
  ⟨rfl, s.vf_modVf n f⟩

/-- From s to t the dword at a home has been counted up, and no other byte changed. -/
def CountsAt (s t : State) (a : Nat) : Prop :=
  t.rdNat a 8 = (s.rdNat a 8 + 1) % 2 ^ 64 ∧ ∀ x, x < a ∨ a + 8 ≤ x → Memory.get t.mem x = Memory.get s.mem x

theorem State.bumpVf_counts (hm : Memory.wf s.mem = true) (vf off : Nat) :
    CountsAt s (s.bumpVf vf off) (homeWin (0x1000 + 64 * vf + off)) :=
  ⟨State.rdNat_wr_same hm .., fun _ hx => Memory.get_wr_outside hm (by rwa [leBytes_length])⟩

/-- A bit set in a byte of memory is set there, whatever is written elsewhere. -/
theorem State.rdNat_wr_or (hm : Memory.wf s.mem = true) (a k : Nat) {i : Nat} (hi : i < 8) (hk : k.testBit i = true) :
    ((s.wrNat a 1 (s.rdNat a 1 ||| k)).rdNat a 1).testBit i = true := by
  rw [State.wrNat, State.rdNat_wr_same hm, show 256 ^ 1 = 2 ^ 8 from rfl, Nat.testBit_mod_two_pow, Nat.testBit_or, hk]
  simp [hi]

/-! ## A kick (R56, R57) -/

section kick
variable {v : Nat} {w : Word} {y : BitVec 20}

theorem exec_kick (hv : v < 32) (w : Word) (p : Option (BitVec 20)) (s : State) :
    exec (.kick v w p) s = .next (s.walkKick v w (p.getD (s.vf v).dpasid)) := by
  simp [exec, execKick, hv]

theorem State.walkKick_refused (h : w.toNat / 1024 ≠ 0 ∨ (s.vf v).en = false ∨ (s.vf v).flrb = true) :
    s.walkKick v w y = s.bumpVf v 0 :=
  if_pos (by simpa [or_comm, or_left_comm] using h)

theorem State.walkKick_drop (hw : w.toNat / 1024 = 0) (he : (s.vf v).en = true) (hf : (s.vf v).flrb = false)
    (h : s.walkQueue v y.toNat (w.toNat % 1024) = (u, .drop)) : s.walkKick v w y = u.bumpVf v 0 := by
  rw [State.walkKick, if_neg (by simp [hw, he, hf]), h]

theorem State.walkKick_hold {e : Nat} (hw : w.toNat / 1024 = 0) (he : (s.vf v).en = true) (hf : (s.vf v).flrb = false)
    (h : s.walkQueue v y.toNat (w.toNat % 1024) = (u, .hold e)) :
    s.walkKick v w y = u.modVf v fun k => { k with heldKicks := k.heldKicks ++ [(e, w, y)] } := by
  rw [State.walkKick, if_neg (by simp [hw, he, hf]), h]

/-- The bytes that a kick of a queue writes: KICKED in its level-1 entry and its QCB, and the count of kicks. -/
def State.markKick (u : State) (a c : Nat) : State :=
  let s := u.wrNat a 1 (u.rdNat a 1 ||| 4)
  let s := s.wrNat c 1 (s.rdNat c 1 ||| 4)
  s.wrNat (c + 0x20) 4 (s.rdNat (c + 0x20) 4 + 1)

theorem State.walkKick_found {a c : Nat} (hw : w.toNat / 1024 = 0) (he : (s.vf v).en = true) (hf : (s.vf v).flrb = false)
    (h : s.walkQueue v y.toNat (w.toNat % 1024) = (u, .found a c)) :
    s.walkKick v w y = (((u.markKick a c).setKick ((u.markKick a c).rdNat (c + 6) 1) ((u.markKick a c).rdNat (c + 4) 2)).knowQueue v
      y.toNat (w.toNat % 1024) c) := by
  rw [State.walkKick, if_neg (by simp [hw, he, hf]), h]
  rfl

theorem State.markKick_spec (hm : Memory.wf u.mem = true) {a c : Nat} (hac : a + 8 ≤ c ∨ c + 64 ≤ a) :
    let r := u.markKick a c
    (r.rdNat a 1).testBit 2 = true ∧ (r.rdNat c 1).testBit 2 = true ∧
      r.rdNat (c + 0x20) 4 = (u.rdNat (c + 0x20) 4 + 1) % 2 ^ 32 ∧
      r.rdNat (c + 6) 1 = u.rdNat (c + 6) 1 ∧ r.rdNat (c + 4) 2 = u.rdNat (c + 4) 2 ∧
      ∀ x, x ≠ a → x ≠ c → (x < c + 0x20 ∨ c + 0x24 ≤ x) → Memory.get r.mem x = Memory.get u.mem x := by
  have h4 : Nat.testBit 4 2 = true := rfl
  unfold State.markKick
  dsimp only
  generalize hv : u.wrNat a 1 (u.rdNat a 1 ||| 4) = v
  have hvm : Memory.wf v.mem = true := by rw [← hv]; exact State.wrNat_wf _ _ _ hm
  have hva : (v.rdNat a 1).testBit 2 = true := by rw [← hv]; exact State.rdNat_wr_or hm a 4 (by omega) h4
  have hvo {x n : Nat} (hx : x + n ≤ a ∨ a + 1 ≤ x) : v.rdNat x n = u.rdNat x n := by
    rw [← hv]
    exact State.rdNat_wr_of_disjoint hm hx
  generalize hz : v.wrNat c 1 (v.rdNat c 1 ||| 4) = z
  have hzm : Memory.wf z.mem = true := by rw [← hz]; exact State.wrNat_wf _ _ _ hvm
  have hzc : (z.rdNat c 1).testBit 2 = true := by rw [← hz]; exact State.rdNat_wr_or hvm c 4 (by omega) h4
  have hzo {x n : Nat} (hx : x + n ≤ c ∨ c + 1 ≤ x) : z.rdNat x n = v.rdNat x n := by
    rw [← hz]
    exact State.rdNat_wr_of_disjoint hvm hx
  have hro {x n : Nat} (k : Nat) (hx : x + n ≤ c + 0x20 ∨ c + 0x20 + 4 ≤ x) :
      (z.wrNat (c + 0x20) 4 k).rdNat x n = z.rdNat x n := State.rdNat_wr_of_disjoint hzm hx
  refine ⟨?_, ?_, ?_, ?_, ?_, fun x hxa hxc hx => ?_⟩
  · rwa [hro _ (by omega), hzo (by omega)]
  · rwa [hro _ (by omega)]
  · rw [State.wrNat, State.rdNat_wr_same hzm, hzo (by omega), hvo (by omega)]
    rfl
  · rw [hro _ (by omega), hzo (by omega), hvo (by omega)]
  · rw [hro _ (by omega), hzo (by omega), hvo (by omega)]
  · rw [State.wrNat, Memory.get_wr_outside hzm (by rw [leBytes_length]; omega), ← hz, State.wrNat,
      Memory.get_wr_outside hvm (by rw [leBytes_length]; omega), ← hv, State.wrNat,
      Memory.get_wr_outside hm (by rw [leBytes_length]; omega)]

theorem State.knowQueue_dev (s : State) (vf pasid qno qcb : Nat) : (s.knowQueue vf pasid qno qcb).dev = s.dev := by
  unfold State.knowQueue
  split <;> rfl

theorem State.knowQueue_knows (s : State) (vf pasid qno qcb : Nat) :
    ∃ q ∈ (s.knowQueue vf pasid qno qcb).queues, q.vf = vf ∧ q.qcb = qcb := by
  unfold State.knowQueue
  split
  · rename_i h
    obtain ⟨q, hq, hk⟩ := List.any_eq_true.mp h
    exact ⟨q, hq, by simpa using hk⟩
  · exact ⟨_, List.mem_append_right _ List.mem_cons_self, rfl, rfl⟩

theorem State.setKick_set (s : State) {die slot : Nat} (hs : slot < 4096) :
    (vget (s.setKick die slot).dev.kicks die).getLsbD slot = true := by
  rw [State.setKick, State.modDev_dev, vget_vset, if_pos rfl, BitVec.getLsbD_or, BitVec.getLsbD_shiftLeft]
  simp [hs]

end kick

/-! ## Held kicks (R57) -/

section rewalk
variable {v e : Nat}

theorem exec_kickRewalk_idle (h : (∀ k ∈ (s.vf v).heldKicks, k.1 ≠ e) ∨ s.leads = false) :
    exec (.kickRewalk v e) s = .next s := by
  have hc : (s.vf v).heldKicks.filter (fun k => k.1 == e) = [] ∨ (!s.leads) = true := by
    refine h.imp (fun h => ?_) fun h => by rw [h]; rfl
    exact List.filter_eq_nil_iff.mpr fun k hk => by simpa using h k hk
  exact congrArg _ (if_pos hc)

theorem State.settleEntry_vfs (s : State) (e : Nat) : (s.settleEntry e).vfs = s.vfs := by
  unfold State.settleEntry State.atPort
  dsimp only
  split
  · split <;> rfl
  · unfold State.refusePort
    split <;> rfl

theorem or_two_of_testBit {x : Nat} (h : x.testBit 1 = false) : x ||| 2 = x + 2 := by
  have hr : x % 4 < 2 := by
    simp only [Nat.testBit_eq_decide_div_mod_eq, decide_eq_false_iff_not] at h
    omega
  have hx : 2 ^ 2 * (x / 4) ||| x % 4 = x := by
    rw [← Nat.two_pow_add_eq_or_of_lt (by omega)]
    omega
  calc x ||| 2
      = 2 ^ 2 * (x / 4) ||| (x % 4 ||| 2 ^ 1) := by
        rw [← Nat.or_assoc, hx]
        rfl
    _ = 2 ^ 2 * (x / 4) + (x % 4 + 2) := by
      rw [Nat.or_two_pow_eq_add_of_lt hr, Nat.two_pow_add_eq_or_of_lt (by omega)]
    _ = x + 2 := by omega

/-- What firmware makes of an entry that kicks are held for (R57; logs 70, 79). -/
theorem State.settleEntry_spec (s : State) (e : Nat) :
    let b := s.rdNat e 1
    if s.portSees (ctrlPort s.leaderDie) e = false then s.settleEntry e = s.countRefused e
    else if b.testBit 0 = true ∧ b.testBit 1 = false then
      s.settleEntry e = s.wrNat e 1 (b + 2) ∨ s.settleEntry e = s.wrNat e 1 (b - 1)
    else s.settleEntry e = s := by
  dsimp only
  cases hsee : s.portSees (ctrlPort s.leaderDie) e with
  | false =>
    have hport : ¬ ctrlPort s.leaderDie < 64 := by unfold ctrlPort; omega
    rw [if_pos rfl, State.settleEntry, State.atPort, hsee, if_neg (by decide), State.refusePort, if_neg hport]
  | true =>
    rw [if_neg (by decide), State.settleEntry, State.atPort, if_pos hsee]
    split
    · rename_i hb
      simp only [hb.1, hb.2, or_two_of_testBit hb.2, Bool.not_true, Bool.or_false, Bool.false_eq_true, if_false]
      split
      · exact .inl rfl
      · exact .inr rfl
    · rename_i hb
      refine if_pos ?_
      rw [not_and_or, Bool.not_eq_true, Bool.not_eq_false] at hb
      obtain hb | hb := hb <;> simp [hb]

/-- The device without the kicks that a VF holds. -/
def State.dropHeld (s : State) (v : Nat) : State := { s with vfs := (s.modVf v fun x => { x with heldKicks := [] }).vfs }

theorem exec_kickRewalk_one {w : Word} {y : BitVec 20} (h : (s.vf v).heldKicks = [(e, w, y)]) (hl : s.leads = true) :
    exec (.kickRewalk v e) s = .next (((s.settleEntry e).dropHeld v).walkKick v w y) := by
  have hfilter : (s.vf v).heldKicks.filter (fun k => k.1 == e) = [(e, w, y)] := by simp [h]
  have hvf : ((s.settleEntry e).vf v).heldKicks = [(e, w, y)] := by rw [State.vf, State.settleEntry_vfs, ← State.vf, h]
  have hdrop : (s.settleEntry e).modVf v (fun x => { x with heldKicks := x.heldKicks.filter fun k => k.1 != e }) =
      (s.settleEntry e).dropHeld v := by
    simp only [State.dropHeld, State.modVf, hvf]
    simp
  simp only [exec, execKickRewalk, hfilter, hl, hdrop]
  simp

end rewalk

/-! ## Taking kicks (R58, R59) -/

section take

/-- The bits of a word of a die's bitmap. -/
def State.kickWord (s : State) (d w : Nat) : BitVec kickBits := (vget s.dev.kicks d).extractLsb' (kickBits * w) kickBits

/-- A die's bitmap with a word swapped with zero. -/
def State.zeroKicks (s : State) (d w : Nat) : State :=
  { s with dev := { s.dev with
    kicks := vset s.dev.kicks d (vget s.dev.kicks d &&& ~~~((BitVec.allOnes kickBits).zeroExtend 4096 <<< (kickBits * w))) } }

/-- The device once a word has been taken and the queues on its slots are known. -/
def State.found (s : State) (d w : Nat) : State := (s.zeroKicks d w).discover (onSlot d w (s.kickWord d w))

theorem State.takeKicks_eq (s : State) (d w : Nat) :
    s.takeKicks d w = if s.kickWord d w = 0 then s
      else ((s.found d w).queues.filter fun q => onSlot d w (s.kickWord d w) (s.found d w) q.qcb).foldl State.examine (s.found d w) :=
  rfl

theorem exec_pendingKickTake {d w : Nat} (hl : s.leads = true) (hd : d < 4) (hw : w < 128) :
    exec (.pendingKickTake d w) s = .next (s.takeKicks d w) := by
  simp [exec, execPendingKickTake, hl, hd, kickBits, hw]

theorem State.takeKicks_kicks (h : s.kickWord d w ≠ 0) : (s.takeKicks d w).dev.kicks = (s.zeroKicks d w).dev.kicks := by
  have hb : (s.takeKicks d w).backdrop = (s.zeroKicks d w).backdrop := by
    rw [State.takeKicks_eq, if_neg h]
    exact (foldl_frame (g := State.backdrop) State.backdrop_examine _ _).trans (State.backdrop_discover ..)
  exact congrArg (fun b => Device.kicks b.1) hb

theorem getLsbD_kickMask (w i : Nat) : ((BitVec.allOnes kickBits).zeroExtend 4096 <<< (kickBits * w)).getLsbD i =
    decide (i < 4096 ∧ 32 * w ≤ i ∧ i < 32 * w + 32) := by
  rw [Bool.eq_iff_iff]
  simp only [BitVec.getLsbD_shiftLeft, BitVec.truncate_eq_setWidth, BitVec.getLsbD_setWidth, BitVec.getLsbD_allOnes, kickBits,
    Bool.and_eq_true, Bool.not_eq_true', decide_eq_true_eq, decide_eq_false_iff_not]
  omega

theorem State.zeroKicks_getLsbD (s : State) {d k w i : Nat} (hd : d < 4) (hk : k < 4) :
    (vget (s.zeroKicks d w).dev.kicks k).getLsbD i =
      ((vget s.dev.kicks k).getLsbD i && !decide (k = d ∧ 32 * w ≤ i ∧ i < 32 * w + 32)) := by
  simp only [State.zeroKicks, vget_vset, Nat.mod_eq_of_lt hd, Nat.mod_eq_of_lt hk]
  by_cases h : k = d
  · subst h
    rw [if_pos rfl, BitVec.getLsbD_and, BitVec.getLsbD_not, getLsbD_kickMask]
    by_cases hi : i < 4096
    · simp [hi]
    · rw [BitVec.getLsbD_of_ge _ i (Nat.le_of_not_lt hi)]
      rfl
  · simp [h]

/-- An idle queue with packets becomes ACTIVE, or joins the deferred list where the quota leaves no room (R59). -/
theorem State.examine_idle {q : Queue} (hm : Memory.wf u.mem = true) (hf : q.force = []) (hseen : u.qcbSeen q = true)
    (hst : u.qcb q 1 1 = 0) (hwr : u.qcb q 0x10 4 ≠ q.rdidx) (hd : (u.vf q.vf).deferred.contains q.id = false) :
    if u.quotaRoom q.vf = true then (u.examine q).qcb q 1 1 = 1 ∧
      ∀ x, x ≠ q.qcb + 1 → Memory.get (u.examine q).mem x = Memory.get u.mem x
    else SetsVf u (u.examine q) q.vf { u.vf q.vf with deferred := (u.vf q.vf).deferred ++ [q.id] } := by
  have hidle : u.qstate q = qIdle := hst
  have he : u.examine q = if u.quotaRoom q.vf then u.wr (q.qcb + 1) [1] else
      u.modVf q.vf fun v => { v with deferred := v.deferred ++ [q.id] } := by
    have hset : u.setQstate q qActive = u.wr (q.qcb + 1) [1] := by
      unfold State.setQstate
      dsimp only
      rw [State.qcbPut_eq hseen, if_neg (by simp [hidle, qIdle, qActive])]
      rfl
    have hc : ¬ (u.qstate q ≠ qIdle ∨ u.qcb q 0x10 4 = q.rdidx ∨ q.force ≠ [] ∨
        (u.vf q.vf).deferred.contains q.id = true) := by
      rintro (h | h | h | h)
      exacts [h hidle, hwr h, h hf, absurd h (by rw [hd]; decide)]
    rw [State.examine, if_neg (by simp [hseen]), if_neg hc, hset]
  rw [he]
  split
  · exact ⟨State.rdNat_wr_byte hm .., fun x hx => Memory.get_wr_outside hm (by simp only [List.length_singleton]; omega)⟩
  · exact setsVf_modVf ..

/-- Taking a word of a bitmap leaves it zero and every other bit as it is (R58). -/
theorem State.takeKicks_bits (s : State) {d w : Nat} (hd : d < 4) {i k : Nat} (hk : k < 4) :
    (vget (s.takeKicks d w).dev.kicks k).getLsbD i =
      ((vget s.dev.kicks k).getLsbD i && !decide (k = d ∧ 32 * w ≤ i ∧ i < 32 * w + 32)) := by
  by_cases h : s.kickWord d w = 0
  · rw [State.takeKicks_eq, if_pos h]
    by_cases hi : k = d ∧ 32 * w ≤ i ∧ i < 32 * w + 32
    · obtain ⟨rfl, hlo, hhi⟩ := hi
      have hbit : (s.kickWord k w).getLsbD (i - 32 * w) = false := by rw [h]; exact BitVec.getLsbD_zero
      rw [State.kickWord, BitVec.getLsbD_extractLsb', decide_eq_true (show i - 32 * w < kickBits by unfold kickBits; omega),
        Bool.true_and, show kickBits * w + (i - 32 * w) = i by unfold kickBits; omega] at hbit
      rw [hbit, Bool.false_and]
    · rw [decide_eq_false hi, Bool.not_false, Bool.and_true]
  · rw [State.takeKicks_kicks h, State.zeroKicks_getLsbD s hd hk]

/-- Where one queue lies on the slots taken, it is examined. -/
theorem State.takeKicks_one {d w : Nat} {q : Queue}
    (hq : ((s.found d w).queues.filter fun k => onSlot d w (s.kickWord d w) (s.found d w) k.qcb) = [q]) :
    s.takeKicks d w = (s.found d w).examine q := by
  have hne : s.kickWord d w ≠ 0 := by
    intro h
    have hmem : q ∈ (s.found d w).queues.filter fun k => onSlot d w (s.kickWord d w) (s.found d w) k.qcb := by
      rw [hq]
      exact List.mem_cons_self
    have hslot := (List.mem_filter.mp hmem).2
    simp [onSlot, h] at hslot
  rw [State.takeKicks_eq, if_neg hne, hq]
  rfl

end take

/-! ## The obligation -/

/-- Settles O57: a kick goes by the walk of the queue table (`State.walkKick_drop`, `_hold`, `_found`), a held one is walked again
behind what firmware makes of its entry (`exec_kickRewalk_one`), and a word taken is the bits of `State.takeKicks_bits`. -/
theorem kickSteps : Obligations.KickSteps := by
  refine ⟨fun v w p s hv hm => ⟨fun h => ?refused, fun u hw he hf h => ?drop, fun u e hw he hf h => ?hold⟩,
    fun v w p s u a c hv hw he hf hm h hac => ?found, fun v e s h => exec_kickRewalk_idle h,
    fun v e w y s h hv hl => ?rewalk, fun s d w hl hd hw => ?take⟩
  case refused =>
    exact ⟨_, exec_kick hv .., by rw [State.walkKick_refused h]; exact ⟨rfl, rfl, State.bumpVf_counts hm v 0⟩⟩
  case drop =>
    have hu : s.Accesses u := (State.Walks.of_eq h (State.Walks.walkQueue ..)).accesses
    have hum : Memory.wf u.mem = true := wf_of_eq h (State.walkQueue_wf _ _ _ hm)
    refine ⟨_, exec_kick hv .., ?_⟩
    have hk : u.dev.kicks = s.dev.kicks := by rw [hu.dev]
    rw [State.walkKick_drop hw he hf h]
    exact ⟨hu.queues, hk, State.bumpVf_counts hum v 0⟩
  case hold =>
    refine ⟨_, exec_kick hv .., ?_⟩
    rw [State.walkKick_hold hw he hf h]
    exact setsVf_modVf ..
  case found =>
    have hum : Memory.wf u.mem = true := wf_of_eq h (State.walkQueue_wf _ _ _ hm)
    obtain ⟨ha, hc, hcount, hdie, hslot, hframe⟩ := State.markKick_spec hum hac
    refine ⟨_, exec_kick hv .., ?_⟩
    rw [State.walkKick_found hw he hf h]
    have hmem : ∀ die slot, (((u.markKick a c).setKick die slot).knowQueue v (p.getD (s.vf v).dpasid).toNat
        (w.toNat % 1024) c).mem = (u.markKick a c).mem := fun _ _ => State.knowQueue_mem ..
    rw [State.rdNat_congr (hmem _ _), State.rdNat_congr (hmem _ _), State.rdNat_congr (hmem _ _), hdie, hslot]
    refine ⟨ha, hc, hcount, fun _ hs => ?_, State.knowQueue_knows .., fun x hxa hxc hx => ?_⟩
    · rw [State.knowQueue_dev]
      exact State.setKick_set _ hs
    · rw [hmem]
      exact hframe x hxa hxc hx
  case rewalk =>
    exact ⟨s.settleEntry e, _, exec_kickRewalk_one h hl, exec_kick hv w (some y) _, s.settleEntry_spec e⟩
  case take =>
    have hbits {i k : Nat} (hk : k < 4) := s.takeKicks_bits (w := w) hd (i := i) hk
    refine ⟨_, exec_pendingKickTake hl hd hw, fun h => if_pos h, fun i hlo hhi => ?_, fun i k hk hne => ?_,
      fun q hq hm hf hseen hst hwr hdef => ?_⟩
    · rw [hbits hd, decide_eq_true ⟨rfl, hlo, hhi⟩, Bool.not_true, Bool.and_false]
    · rw [hbits hk, decide_eq_false hne, Bool.not_false, Bool.and_true]
    · rw [State.takeKicks_one hq]
      exact State.examine_idle hm hf hseen hst hwr hdef

end Sys2Proof.Machine
end

section
/-! # What a controller that begins to serve leaves alone (R46, R47, R59, R63, R65)

`State.office` is who leads, the firmware that runs, and which hauls have ended; a controller that begins to serve changes of it
only the leader (`State.serve_office`). On a calm device it writes only the mailbox (`State.serve_calm`). -/

namespace Sys2Proof.Machine
variable {s t : State}

/-! ## The office -/

/-- Of a backdrop: the leader, who is superseded, the firmware with its start, the number of page migrations and which hauls have
retired or ended. -/
def officeOf (b : Device × Nat × List (Bool × Option (Nat × Word × Dword)) × (Nat → Word × (Nat × Nat) × List Rings)) :
    Option (Nat × Nat) × List (Nat × Nat) × BitVec 32 × Bool × Dword × Nat × List (Bool × Option (Nat × Word × Dword)) :=
  (b.1.leader, b.1.superseded, b.1.fwLevel, b.1.fwLoaded, b.1.fwStart, b.2.1, b.2.2.1)

def State.office (s : State) := officeOf s.backdrop

theorem State.office_of_backdrop (h : t.backdrop = s.backdrop) : t.office = s.office := congrArg officeOf h

theorem State.takeKicks_office (s : State) (d w : Nat) : (s.takeKicks d w).office = s.office := by
  rw [State.takeKicks_eq]
  split
  · rfl
  · have hfold := foldl_frame (g := State.backdrop) State.backdrop_examine
      ((s.found d w).queues.filter fun q => onSlot d w (s.kickWord d w) (s.found d w) q.qcb) (s.found d w)
    exact State.office_of_backdrop (s := s.zeroKicks d w) (hfold.trans (State.backdrop_discover ..))

theorem State.takeSlot_office (s : State) (block slot : Nat) : (s.takeSlot block slot).office = s.office := by
  unfold State.takeSlot
  dsimp only
  split
  · rfl
  · exact State.office_of_backdrop (State.backdrop_wr ..)

theorem State.doorbell_office (s : State) (block : Nat) (value : Word) : (s.doorbell block value).office = s.office := by
  unfold State.doorbell
  split
  · exact State.office_of_backdrop (State.backdrop_wrNat ..)
  · exact s.takeSlot_office ..

theorem State.scanMailbox_office (s : State) : s.scanMailbox.office = s.office := by
  unfold State.scanMailbox
  refine (foldl_frame (g := State.office) (fun s v => ?_) _ _).trans ?_
  · exact foldl_frame (g := State.office) (fun s i => s.takeSlot_office v i) _ s
  · exact foldl_frame (g := State.office) (fun s (p : Nat × Word) => s.doorbell_office p.1 p.2) _ _

theorem State.rescanKicks_office (s : State) : s.rescanKicks.office = s.office := by
  unfold State.rescanKicks
  dsimp only
  refine (foldl_frame (g := State.office) (fun s (q : Queue) => ?_) _ _).trans ?_
  · exact State.office_of_backdrop (State.backdrop_settleQueue ..)
  refine (foldl_frame (g := State.office) (fun s d => ?_) _ _).trans ?_
  · exact foldl_frame (g := State.office) (fun s w => s.takeKicks_office d w) _ s
  · exact State.office_of_backdrop (State.backdrop_discover ..)

theorem State.releaseHeld_office (s : State) : s.releaseHeld.office = s.office :=
  foldl_frame (g := State.office) (fun s id => State.office_of_backdrop (s.backdrop_completeHaul id)) _ _

/-- The device under a new leader. -/
def State.under (s : State) (epoch die : Nat) : State := s.modDev fun d => { d with leader := some (epoch % 2 ^ 24, die) }

theorem State.serve_eq (s : State) (epoch die : Nat) :
    s.serve epoch die = ((s.under epoch die).writeHeader.releaseHeld.rescanKicks.setMbState 1).scanMailbox := rfl

theorem State.serve_office (s : State) (epoch die : Nat) : (s.serve epoch die).office = (s.under epoch die).office := by
  have hheader : (s.under epoch die).writeHeader.office = (s.under epoch die).office :=
    State.office_of_backdrop ((State.backdrop_wrNat ..).trans (State.backdrop_wrNat ..))
  have hmb (s : State) (n : Nat) : (s.setMbState n).office = s.office := State.office_of_backdrop (State.backdrop_wrNat ..)
  rw [State.serve_eq, State.scanMailbox_office, hmb, State.rescanKicks_office, State.releaseHeld_office]
  exact hheader

section office
variable (h : t.office = s.office)
include h

theorem State.leader_of_office : t.dev.leader = s.dev.leader := congrArg (·.1) h
theorem State.superseded_of_office : t.dev.superseded = s.dev.superseded := congrArg (·.2.1) h
theorem State.fwLevel_of_office : t.dev.fwLevel = s.dev.fwLevel := congrArg (·.2.2.1) h
theorem State.fwLoaded_of_office : t.dev.fwLoaded = s.dev.fwLoaded := congrArg (·.2.2.2.1) h
theorem State.fwStart_of_office : t.dev.fwStart = s.dev.fwStart := congrArg (·.2.2.2.2.1) h
theorem State.migrations_of_office : t.migrations.length = s.migrations.length := congrArg (·.2.2.2.2.2.1) h
theorem State.ends_of_office : t.hauls.map (fun h => (h.retired, h.ended)) = s.hauls.map fun h => (h.retired, h.ended) :=
  congrArg (·.2.2.2.2.2.2) h

end office

/-! ## A calm device -/

/-- Nothing is held or waits: no completions, no queues, no doorbells, no VF enabled or leaving. -/
structure State.Calm (s : State) : Prop where
  held : s.dev.heldCompletions = []
  queues : s.queues = []
  doorbells : s.dev.doorbells = []
  vfs : ∀ v, v < 32 → (s.vf v).en = false ∧ (s.vf v).blackout = none

/-- Every word of every bitmap is taken (R65). -/
def State.takeAllKicks (s : State) : State :=
  (List.range 4).foldl (fun s d => (List.range (4096 / kickBits)).foldl (fun s w => s.takeKicks d w) s) s

theorem State.rescanKicks_eq (s : State) :
    let u := (s.discover fun s qcb => s.rdNat (qcb + 1) 1 == qActive).takeAllKicks
    s.rescanKicks = u.queues.foldl (fun s q => s.settleQueue q.id) u := rfl

/-- What the rescan of a calm device leaves alone: everything but the pending kicks. -/
structure State.Kicked (s t : State) : Prop where
  mem : t.mem = s.mem
  co : t.co = s.co
  queues : t.queues = s.queues
  vfs : t.vfs = s.vfs
  dev : { t.dev with kicks := s.dev.kicks } = s.dev

theorem State.Kicked.trans {u : State} (h : s.Kicked t) (k : t.Kicked u) : s.Kicked u where
  mem := k.mem.trans h.mem
  co := k.co.trans h.co
  queues := k.queues.trans h.queues
  vfs := k.vfs.trans h.vfs
  dev := by rw [← h.dev, ← k.dev]

theorem State.Kicked.calm (h : s.Kicked t) (hc : s.Calm) : t.Calm where
  held := by rw [← hc.held, ← h.dev]
  queues := h.queues.trans hc.queues
  doorbells := by rw [← hc.doorbells, ← h.dev]
  vfs v hv := by rw [State.vf, h.vfs, ← State.vf]; exact hc.vfs v hv

namespace State.Calm
variable (hc : s.Calm)
include hc

theorem wrNat (a n k : Nat) : (s.wrNat a n k).Calm := ⟨hc.held, hc.queues, hc.doorbells, hc.vfs⟩

theorem under (epoch die : Nat) : (s.under epoch die).Calm := ⟨hc.held, hc.queues, hc.doorbells, hc.vfs⟩

theorem writeHeader : s.writeHeader.Calm := (hc.wrNat _ _ _).wrNat _ _ _

theorem discover (f : State → Nat → Bool) : s.discover f = s := by
  refine List.foldlRecOn (motive := fun t => t = s) _ _ rfl fun t ht v hv => ?_
  subst ht
  rw [(hc.vfs v (List.mem_range.mp hv)).1]
  rfl

theorem takeKicks (d w : Nat) : s.Kicked (s.takeKicks d w) := by
  have hz : s.Kicked (s.zeroKicks d w) := ⟨rfl, rfl, rfl, rfl, rfl⟩
  rw [State.takeKicks_eq]
  split
  · exact ⟨rfl, rfl, rfl, rfl, rfl⟩
  · rw [State.found, (hz.calm hc).discover, (hz.calm hc).queues]
    exact hz

theorem takeAllKicks : s.Kicked s.takeAllKicks :=
  have hrefl : s.Kicked s := ⟨rfl, rfl, rfl, rfl, rfl⟩
  List.foldlRecOn (motive := s.Kicked) _ _ hrefl fun _ ht d _ =>
    List.foldlRecOn (motive := s.Kicked) _ _ ht fun _ hu w _ => hu.trans ((hu.calm hc).takeKicks d w)

theorem rescanKicks : s.Kicked s.rescanKicks := by
  rw [State.rescanKicks_eq, hc.discover, (hc.takeAllKicks.calm hc).queues, List.foldl_nil]
  exact hc.takeAllKicks

theorem releaseHeld : s.releaseHeld = s := by
  have hd : { s.dev with heldCompletions := [] } = s.dev := by rw [← hc.held]
  have he : s.modDev (fun d => { d with heldCompletions := [] }) = s := by rw [State.modDev, hd]
  rw [State.releaseHeld, hc.held, he]
  rfl

end State.Calm

/-- From s to t memory below an address and the coach in focus stay as they are. -/
structure State.Keeps (n : Nat) (s t : State) : Prop where
  co : t.co = s.co
  below : ∀ x, x < n → Memory.get t.mem x = Memory.get s.mem x
  wf : Memory.wf t.mem = true

theorem State.Keeps.rdNat {n : Nat} (h : State.Keeps n s t) {a k : Nat} (hk : a + k ≤ n) : t.rdNat a k = s.rdNat a k :=
  congrArg leNat (Memory.getAll_congr fun i hi => h.below (a + i) (by omega))

theorem State.takeSlot_keeps (hm : Memory.wf s.mem = true) (block slot : Nat) :
    State.Keeps (homeWin 0x3000) s (s.takeSlot block slot) := by
  have hslot : homeWin 0x3000 ≤ mbSlot block slot := by
    unfold mbSlot mbBlock homeWin
    omega
  refine ⟨?_, fun x hx => ?_, State.takeSlot_wf block slot hm⟩
  · unfold State.takeSlot
    dsimp only
    split <;> rfl
  · unfold State.takeSlot
    dsimp only
    split
    · rfl
    · exact Memory.get_wr_outside hm (by omega)

theorem State.Keeps.trans {n : Nat} {u : State} (h : State.Keeps n s t) (k : State.Keeps n t u) : State.Keeps n s u :=
  ⟨k.co.trans h.co, fun x hx => (k.below x hx).trans (h.below x hx), k.wf⟩

theorem State.Calm.scanMailbox (hc : s.Calm) (hm : Memory.wf s.mem = true) : State.Keeps (homeWin 0x3000) s s.scanMailbox := by
  have hrefl : State.Keeps (homeWin 0x3000) s (s.modDev fun d => { d with doorbells := [] }) := ⟨rfl, fun _ _ => rfl, hm⟩
  unfold State.scanMailbox
  rw [hc.doorbells]
  exact List.foldlRecOn (motive := State.Keeps (homeWin 0x3000) s) _ _ hrefl fun t ht v _ =>
    List.foldlRecOn (motive := State.Keeps (homeWin 0x3000) s) _ _ ht fun u hu i _ => hu.trans (State.takeSlot_keeps hu.wf v i)

theorem State.wrNat_keeps (hm : Memory.wf s.mem = true) {n a : Nat} (ha : n ≤ a) (k v : Nat) :
    State.Keeps n s (s.wrNat a k v) :=
  ⟨rfl, fun _ hx => Memory.get_wr_outside hm (by omega), State.wrNat_wf _ _ _ hm⟩

theorem State.rdNat_wrNat (hm : Memory.wf s.mem = true) (a n v : Nat) : (s.wrNat a n v).rdNat a n = v % 256 ^ n :=
  State.rdNat_wr_same hm a n v

theorem State.rdNat_wrNat_disjoint (hm : Memory.wf s.mem = true) {a n c k : Nat} (v : Nat) (h : c + k ≤ a ∨ a + n ≤ c) :
    (s.wrNat a n v).rdNat c k = s.rdNat c k := State.rdNat_wr_of_disjoint hm h

theorem State.writeHeader_keeps (hm : Memory.wf s.mem = true) : State.Keeps mbHeader s s.writeHeader := by
  have h := State.wrNat_keeps hm (Nat.le_add_right mbHeader 4) 4 s.dev.fwLevel.toNat
  exact h.trans (State.wrNat_keeps h.wf (Nat.le_add_right mbHeader 8) 8 s.key.toNat)

theorem State.writeHeader_level (hm : Memory.wf s.mem = true) :
    s.writeHeader.rdNat (mbHeader + 4) 4 = s.dev.fwLevel.toNat := by
  have hlt : s.dev.fwLevel.toNat < 256 ^ 4 := s.dev.fwLevel.isLt
  rw [State.writeHeader, State.rdNat_wrNat_disjoint (State.wrNat_wf _ _ _ hm) _ (by omega), State.rdNat_wrNat hm,
    Nat.mod_eq_of_lt hlt]

/-- Beginning to serve a calm device: the mailbox is ready, its header names the firmware, and what lies below stays. -/
theorem State.Calm.serve (hc : s.Calm) (hm : Memory.wf s.mem = true) (epoch die : Nat) :
    (s.serve epoch die).co = s.co ∧ (s.serve epoch die).rdNat mbHeader 4 = 1 ∧
      (s.serve epoch die).rdNat (mbHeader + 4) 4 = s.dev.fwLevel.toNat ∧
      (s.serve epoch die).rdNat leaseHome 8 = s.rdNat leaseHome 8 := by
  have hw : State.Keeps mbHeader (s.under epoch die) (s.under epoch die).writeHeader := State.writeHeader_keeps hm
  have hlevel : (s.under epoch die).writeHeader.rdNat (mbHeader + 4) 4 = s.dev.fwLevel.toNat := State.writeHeader_level hm
  have hu : (s.under epoch die).writeHeader.Calm := (hc.under epoch die).writeHeader
  rw [State.serve_eq, hu.releaseHeld]
  have hk := hu.rescanKicks
  generalize hg : (s.under epoch die).writeHeader = u at hw hlevel hu hk ⊢
  generalize u.rescanKicks = v at hk ⊢
  have hvm : Memory.wf v.mem = true := by rw [hk.mem]; exact hw.wf
  have hvu (a n : Nat) : v.rdNat a n = u.rdNat a n := State.rdNat_congr hk.mem a n
  have hvc : (v.setMbState 1).Calm := (hk.calm hu).wrNat _ _ _
  have hset : State.Keeps mbHeader v (v.setMbState 1) := State.wrNat_keeps hvm (Nat.le_refl _) ..
  have hscan := hvc.scanMailbox hset.wf
  have hlow : mbHeader + 8 ≤ homeWin 0x3000 := by unfold mbHeader homeWin; omega
  have hll : leaseHome + 8 ≤ mbHeader := by unfold leaseHome mbHeader homeWin; omega
  refine ⟨?_, ?_, ?_, ?_⟩
  · rw [hscan.co, hset.co, hk.co, hw.co]
    rfl
  · rw [hscan.rdNat (by omega), State.setMbState, State.rdNat_wrNat hvm]
    rfl
  · rw [hscan.rdNat (by omega), State.setMbState, State.rdNat_wrNat_disjoint hvm _ (by omega), hvu, hlevel]
  · rw [hscan.rdNat (by omega), hset.rdNat hll, hvu, hw.rdNat hll]
    rfl

end Sys2Proof.Machine
end

section
/-! # O60: the lease of the leading die and the firmware (R61 to R65, R361, R363; logs 23, 25, 50, 69) -/

namespace Sys2Proof.Machine
variable {s t u : State}

/-! ## The leader stops (R62, R65) -/

theorem State.tick_hauls (s : State) : s.tick.hauls = s.hauls := by
  have hk : s.keepJournal.hauls = s.hauls := by
    unfold State.keepJournal
    split <;> rfl
  unfold State.tick
  dsimp only
  split <;> exact hk

theorem step_stop {rest : List Turn} (h : s.schedule = .stop :: rest) :
    step s = .next (State.tick { s with schedule := rest }).stopLeader := by
  rw [step, h]

theorem stop_ends {rest : List Turn} (h : s.schedule = .stop :: rest) (hs : step s = .next t) :
    t.dev.leader = none ∧ (∀ q ∈ t.queues, q.reading = none) ∧ t.mem = s.mem ∧ t.hauls = s.hauls := by
  rw [step_stop h, Host.Outcome.next.injEq] at hs
  subst hs
  refine ⟨rfl, fun q hq => ?_, State.tick_mem _, State.tick_hauls _⟩
  obtain ⟨_, _, rfl⟩ := List.mem_map.mp hq
  rfl

/-! ## Replay of the journal (R64, R65, R381) -/

section replay

/-- What the losses of a replay leave alone: the queues, the commands, the device's registers and what its ports reach. -/
structure State.Loses (s t : State) : Prop where
  queues : t.queues = s.queues
  commands : t.commands = s.commands
  dev : t.dev = { s.dev with poison := t.dev.poison }
  quads : t.quads = s.quads
  memp : ∀ n, (t.vf n).memp = (s.vf n).memp

theorem State.Loses.trans (h : s.Loses t) (k : t.Loses u) : s.Loses u where
  queues := k.queues.trans h.queues
  commands := k.commands.trans h.commands
  dev := by rw [k.dev, h.dev]
  quads := k.quads.trans h.quads
  memp n := (k.memp n).trans (h.memp n)

theorem State.Loses.qcbSeen (h : s.Loses t) (q : Queue) : t.qcbSeen q = s.qcbSeen q := by
  have hc : t.dev.cmxrow = s.dev.cmxrow := by rw [h.dev]
  have hl : t.leaderDie = s.leaderDie := by rw [State.leaderDie, h.dev, ← State.leaderDie]
  rw [State.qcbSeen, hl, State.portSees_congr hc h.quads h.memp, ← State.qcbSeen]

theorem State.loseEntries_loses (s : State) (lost : List JItem) : s.Loses (s.loseEntries lost) :=
  List.foldlRecOn (motive := s.Loses) _ _ ⟨rfl, rfl, rfl, rfl, fun _ => rfl⟩ fun _ ht _ _ =>
    ht.trans ⟨rfl, rfl, rfl, rfl, fun _ => rfl⟩

theorem State.countUnread_loses (s : State) (l : List JItem) : s.Loses (s.countUnread l) :=
  List.foldlRecOn (motive := s.Loses) _ _ ⟨rfl, rfl, rfl, rfl, fun _ => rfl⟩ fun _ ht _ _ =>
    ht.trans ⟨rfl, rfl, rfl, rfl, fun _ => rfl⟩

theorem State.countUnread_seen {l : List JItem} (h : ∀ q ∈ s.queues, s.qcbSeen q = true) : s.countUnread l = s := by
  have hnil : (s.queues.filter fun q => (queueIn? l q.id).isNone && !s.qcbSeen q) = [] :=
    List.filter_eq_nil_iff.mpr fun q hq => by simp [h q hq]
  rw [State.countUnread, hnil]
  rfl

/-- The entries of an epoch that can be read. -/
def State.readable (s : State) (epoch : Nat) : List JItem := ((s.replayable epoch).filter (·.2)).map (·.1)

/-- A deferred list as the entries have it (R65). -/
def State.replayDeferred (l : List JItem) (s : State) (n : Nat) : State :=
  if (s.vf n).deferred = [] then s
  else s.modVf n fun v => { v with deferred := (deferredIn l n).filter fun i => s.queues.any fun q => q.id == i }

/-- The device once what stood in unreadable entries is lost and the QCBs out of reach are counted (R368, R381). -/
def State.afterLosses (s : State) (epoch : Nat) : State :=
  (s.loseEntries (((s.replayable epoch).filter fun e => !e.2).map (·.1))).countUnread (s.readable epoch)

/-- The device before its queues, commands and held completions are set as journalled. -/
def State.beforeReplay (s : State) (epoch : Nat) : State :=
  (List.range 32).foldl (State.replayDeferred (s.readable epoch)) (s.afterLosses epoch)

/-- The held completions that the entries add. -/
def heldIn (l : List JItem) (known : List Nat) : List Nat :=
  l.filterMap fun i => match i with
    | .held h => if known.contains h then none else some h
    | _ => none

theorem mem_heldIn {l : List JItem} {known : List Nat} {h : Nat} (hl : JItem.held h ∈ l) :
    h ∈ heldIn l known ++ known := by
  by_cases hk : h ∈ known
  · exact List.mem_append_right _ hk
  · exact List.mem_append_left _ (List.mem_filterMap.mpr ⟨_, hl, by simp [hk]⟩)

theorem State.replayDeferred_loses (l : List JItem) (s : State) (n : Nat) : s.Loses (s.replayDeferred l n) := by
  unfold State.replayDeferred
  split
  · exact ⟨rfl, rfl, rfl, rfl, fun _ => rfl⟩
  · refine ⟨rfl, rfl, rfl, rfl, fun k => ?_⟩
    rw [State.vf_modVf]
    split
    · rw [‹k = n›]
    · rfl

theorem State.replayDeferred_vf (l : List JItem) (s : State) (n : Nat) : (s.replayDeferred l n).co = s.co ∧
    ∀ v, ((s.replayDeferred l n).vf v).en = (s.vf v).en ∧ ((s.replayDeferred l n).vf v).blackout = (s.vf v).blackout := by
  unfold State.replayDeferred
  split
  · exact ⟨rfl, fun _ => ⟨rfl, rfl⟩⟩
  · refine ⟨rfl, fun v => ?_⟩
    rw [State.vf_modVf]
    split
    · rw [‹v = n›]
      exact ⟨rfl, rfl⟩
    · exact ⟨rfl, rfl⟩

theorem State.replayDeferred_mem (l : List JItem) (s : State) (n : Nat) : (s.replayDeferred l n).mem = s.mem := by
  unfold State.replayDeferred
  split <;> rfl

theorem State.afterLosses_loses (s : State) (epoch : Nat) : s.Loses (s.afterLosses epoch) :=
  (s.loseEntries_loses _).trans (State.countUnread_loses ..)

theorem State.beforeReplay_loses (s : State) (epoch : Nat) : s.Loses (s.beforeReplay epoch) :=
  List.foldlRecOn (motive := s.Loses) _ _ (s.afterLosses_loses epoch) fun t ht n _ =>
    ht.trans (State.replayDeferred_loses _ t n)

theorem State.beforeReplay_mem {epoch : Nat} (h : ∀ q ∈ s.queues, s.qcbSeen q = true) : (s.beforeReplay epoch).mem = s.mem := by
  have hl := s.loseEntries_loses (((s.replayable epoch).filter fun e => !e.2).map (·.1))
  rw [State.beforeReplay, State.afterLosses, State.countUnread_seen fun q hq => by rw [hl.qcbSeen]; exact h q (hl.queues ▸ hq)]
  exact (foldl_frame (g := State.mem) (State.replayDeferred_mem _) _ _).trans (State.loseEntries_mem ..)

theorem State.replayJournal_eq (s : State) (epoch : Nat) :
    s.replayJournal epoch = { (s.beforeReplay epoch).modDev fun d => { d with
        heldCompletions := heldIn (s.readable epoch) (s.afterLosses epoch).dev.heldCompletions ++ d.heldCompletions } with
      queues := (s.beforeReplay epoch).queues.map fun q => q.replayed (s.readable epoch) ((s.beforeReplay epoch).qcbRdidx q)
      commands := (s.beforeReplay epoch).commands.filterMap fun c =>
        (commandIn? (s.readable epoch) c.block c.slot).map fun j => { c with started := j.started } } := rfl

theorem State.replayJournal_queues (s : State) (epoch : Nat) : (s.replayJournal epoch).queues =
    s.queues.map fun q => q.replayed (s.readable epoch) ((s.beforeReplay epoch).qcbRdidx q) := by
  rw [State.replayJournal_eq, ← (s.beforeReplay_loses epoch).queues]

theorem State.replayJournal_commands (s : State) (epoch : Nat) : (s.replayJournal epoch).commands =
    s.commands.filterMap fun c => (commandIn? (s.readable epoch) c.block c.slot).map fun j => { c with started := j.started } := by
  rw [State.replayJournal_eq, ← (s.beforeReplay_loses epoch).commands]

theorem State.replayJournal_vf (s : State) (epoch n : Nat) : (s.replayJournal epoch).vf n = (s.beforeReplay epoch).vf n := by
  rw [State.vf, State.replayJournal_eq, State.modDev_vfs, ← State.vf]

theorem State.replayJournal_co (s : State) (epoch : Nat) : (s.replayJournal epoch).co = (s.beforeReplay epoch).co := by
  rw [State.replayJournal_eq, State.modDev_co]

theorem State.replayJournal_dev (s : State) (epoch : Nat) : (s.replayJournal epoch).dev =
    { s.dev with
      heldCompletions := heldIn (s.readable epoch) s.dev.heldCompletions ++ s.dev.heldCompletions
      poison := (s.beforeReplay epoch).dev.poison } := by
  rw [State.replayJournal_eq, (s.afterLosses_loses epoch).dev]
  simp only [State.modDev]
  rw [(s.beforeReplay_loses epoch).dev]

theorem State.replayJournal_mem {epoch : Nat} (h : ∀ q ∈ s.queues, s.qcbSeen q = true) : (s.replayJournal epoch).mem = s.mem := by
  rw [State.replayJournal_eq, State.modDev_mem, State.beforeReplay_mem h]

theorem State.qcbRdidx_beforeReplay (s : State) (epoch : Nat) (p : Queue) : (s.beforeReplay epoch).qcbRdidx p =
    if s.qcbSeen p then (s.beforeReplay epoch).qcb p 0x14 4 else p.rdidx := by
  rw [State.qcbRdidx, (s.beforeReplay_loses epoch).qcbSeen]

theorem Queue.replayed_some {l : List JItem} {p j : Queue} (h : queueIn? l p.id = some j) (rd : Nat) :
    p.replayed l rd =
      { p with rdidx := j.rdidx, packets := j.packets, force := j.force, stopped := j.stopped, reading := none } := by
  rw [Queue.replayed, h]

theorem Queue.replayed_none {l : List JItem} {p : Queue} (h : queueIn? l p.id = none) (rd : Nat) :
    p.replayed l rd = { p with rdidx := rd, packets := [], force := [], reading := none } := by
  rw [Queue.replayed, h]

theorem State.mem_replayJournal_queues {epoch : Nat} {q : Queue} (hq : q ∈ (s.replayJournal epoch).queues) :
    ∃ p ∈ s.queues, q = p.replayed (s.readable epoch) ((s.beforeReplay epoch).qcbRdidx p) := by
  rw [State.replayJournal_queues] at hq
  obtain ⟨p, hp, rfl⟩ := List.mem_map.mp hq
  exact ⟨p, hp, rfl⟩

theorem State.replayJournal_command {epoch : Nat} {c : Command} (hc : c ∈ (s.replayJournal epoch).commands) :
    ∃ p ∈ s.commands, ∃ j, commandIn? (s.readable epoch) p.block p.slot = some j ∧ c = { p with started := j.started } := by
  rw [State.replayJournal_commands] at hc
  obtain ⟨p, hp, hpc⟩ := List.mem_filterMap.mp hc
  obtain ⟨j, hj, rfl⟩ := Option.map_eq_some_iff.mp hpc
  exact ⟨p, hp, j, hj, rfl⟩

theorem State.mem_replayable {epoch : Nat} {x : JItem × Bool} (hx : x ∈ s.replayable epoch) :
    ∃ j ∈ s.dev.journal, j.epoch = epoch ∧ x.1 = j.item := by
  obtain ⟨p, hp, rfl⟩ := List.mem_map.mp hx
  obtain ⟨hj, he⟩ := List.mem_filter.mp (List.fst_mem_of_mem_zipIdx hp)
  exact ⟨p.1, hj, by simpa using he, rfl⟩

theorem State.Calm.replayJournal (hc : s.Calm) (hj : s.dev.journal = []) (epoch : Nat) :
    (s.replayJournal epoch).Calm ∧ (s.replayJournal epoch).mem = s.mem ∧ (s.replayJournal epoch).co = s.co := by
  have hnone : s.replayable epoch = [] := by rw [State.replayable, hj]; rfl
  have hread : s.readable epoch = [] := by rw [State.readable, hnone]; rfl
  have hlost : s.loseEntries [] = s := by
    have hnil : (s.hauls.filter fun h => !h.retired && h.ended.isNone && h.packet.any fun p => (queueIn? [] p.1).isSome) = [] :=
      List.filter_eq_nil_iff.mpr fun h _ => by cases h.packet <;> simp [queueIn?]
    rw [State.loseEntries, hnil]
    rfl
  have hseen : ∀ q ∈ s.queues, s.qcbSeen q = true := fun q hq => absurd hq (by rw [hc.queues]; exact List.not_mem_nil)
  have hafter : s.afterLosses epoch = s := by
    rw [State.afterLosses, hnone, List.filter_nil, List.map_nil, hlost, State.countUnread_seen hseen]
  have hbefore : (s.beforeReplay epoch).co = s.co ∧ ∀ v, ((s.beforeReplay epoch).vf v).en = (s.vf v).en ∧
      ((s.beforeReplay epoch).vf v).blackout = (s.vf v).blackout := by
    rw [State.beforeReplay, hafter]
    refine List.foldlRecOn (motive := fun t : State => t.co = s.co ∧ ∀ v, (t.vf v).en = (s.vf v).en ∧
      (t.vf v).blackout = (s.vf v).blackout) _ _ ⟨rfl, fun _ => ⟨rfl, rfl⟩⟩ fun t ht n _ => ?_
    obtain ⟨hco, hvf⟩ := ht
    obtain ⟨hdco, hd⟩ := t.replayDeferred_vf (s.readable epoch) n
    exact ⟨hdco.trans hco, fun v => ⟨(hd v).1.trans (hvf v).1, (hd v).2.trans (hvf v).2⟩⟩
  obtain ⟨hco, hvf⟩ := hbefore
  refine ⟨⟨?_, ?_, ?_, fun v hv => ?_⟩, State.replayJournal_mem hseen, ?_⟩
  · rw [State.replayJournal_dev, hread, hc.held]
    rfl
  · rw [State.replayJournal_queues, hc.queues]
    rfl
  · rw [State.replayJournal_dev, hc.doorbells]
  · obtain ⟨hen, hb⟩ := hvf v
    obtain ⟨hsen, hsb⟩ := hc.vfs v hv
    rw [State.replayJournal_vf]
    exact ⟨hen.trans hsen, hb.trans hsb⟩
  · rw [State.replayJournal_co, hco]

end replay

end Sys2Proof.Machine
end

section
/-! # O60, continued: the lease and the firmware (R46, R47, R49, R61 to R65, R361, R363; logs 23, 25, 50) -/

namespace Sys2Proof.Machine
variable {s t u : State}

/-! ## The lease (R61 to R63) -/

section lease
variable {e d : Nat}

theorem State.setLease_lease (hm : Memory.wf s.mem = true) (epoch holder : Nat) : (s.setLease epoch holder).rdNat leaseHome 8 =
    epoch % 2 ^ 24 * 2 ^ 40 + holder % 4 * 2 ^ 38 + s.dev.time.toNat % 2 ^ 38 := by
  rw [State.setLease, State.rdNat_wrNat hm, show 256 ^ 8 = 2 ^ 64 by norm_num]
  exact Nat.mod_eq_of_lt (by omega)

theorem exec_leaseRenew_superseded {p : Nat × Nat} {rest : List (Nat × Nat)} (h : s.dev.superseded = p :: rest) :
    exec .leaseRenew s = .next (s.modDev fun d => { d with superseded := rest }) := by
  simp only [exec, execLeaseRenew, h]

theorem exec_leaseRenew_none (h : s.dev.superseded = []) (hl : s.dev.leader = none) : exec .leaseRenew s = .next s := by
  simp only [exec, execLeaseRenew, h, hl]

theorem exec_leaseRenew_leader (h : s.dev.superseded = []) (hl : s.dev.leader = some (e, d)) :
    exec .leaseRenew s = .next (if leaseEpoch s.lease = e ∧ leaseHolder s.lease = d then s.setLease e d else s.stopLeader) := by
  simp only [exec, execLeaseRenew, h, hl]

/-- The device under a follower that takes the lease, before it replays and serves (R62). -/
def State.taken (s : State) (d : Nat) : State :=
  (s.modDev fun x => { x with
    superseded := x.superseded ++ x.leader.toList
    leader := some ((leaseEpoch s.lease + 1) % 2 ^ 24, d) }).setLease (leaseEpoch s.lease + 1) d

theorem exec_leaseTakeover (hd : d < 4) (hf : s.dev.fwLoaded = true) (he : leaseEpoch s.lease ≠ 0)
    (hh : leaseHolder s.lease ≠ d) (hs : ∀ p ∈ s.dev.superseded, p.2 ≠ d)
    (hage : leaseTicks < (s.dev.time.toNat % 2 ^ 38 + 2 ^ 38 - leaseRenewed s.lease) % 2 ^ 38) :
    exec (.leaseTakeover d) s =
      .next (((s.taken d).replayJournal (leaseEpoch s.lease)).serve (leaseEpoch s.lease + 1) d) := by
  have hany : (!s.dev.superseded.any fun p => p.2 == d) = true := by simpa using hs
  have hc : d < 4 ∧ s.dev.fwLoaded = true ∧ leaseEpoch s.lease ≠ 0 ∧ leaseHolder s.lease ≠ d ∧
      leaseTicks < (s.dev.time.toNat % 2 ^ 38 + 2 ^ 38 - leaseRenewed s.lease) % 2 ^ 38 ∧
      (!s.dev.superseded.any fun p => p.2 == d) = true := ⟨hd, hf, he, hh, hage, hany⟩
  simp only [exec, execLeaseTakeover]
  rw [if_pos hc]
  rfl

theorem exec_leaseFallback (hd : d < 4) (hf : s.dev.fwLoaded = true) (hx : s.lease = 0)
    (ht : leaseTicks ≤ (s.dev.time - s.dev.fwStart).toNat) :
    exec (.leaseFallback d) s = .next ((s.setLease 1 d).serve 1 d) := by
  simp only [exec, execLeaseFallback]
  rw [if_pos ⟨hd, hf, hx, ht⟩]

theorem State.serve_leader (s : State) (epoch die : Nat) : (s.serve epoch die).dev.leader = some (epoch % 2 ^ 24, die) :=
  State.leader_of_office (s.serve_office epoch die)

theorem State.serve_superseded (s : State) (epoch die : Nat) : (s.serve epoch die).dev.superseded = s.dev.superseded :=
  (State.superseded_of_office (s.serve_office epoch die) :)

section calm
variable (hc : s.Calm) (hm : Memory.wf s.mem = true)
include hc hm

/-- A follower that takes the lease of a calm device holds it (R62). -/
theorem State.Calm.takes (hj : s.dev.journal = []) (hd : d < 4) :
    (((s.taken d).replayJournal (leaseEpoch s.lease)).serve (leaseEpoch s.lease + 1) d).rdNat leaseHome 8 =
        (leaseEpoch s.lease + 1) % 2 ^ 24 * 2 ^ 40 + d * 2 ^ 38 + s.dev.time.toNat % 2 ^ 38 ∧
      (((s.taken d).replayJournal (leaseEpoch s.lease)).serve (leaseEpoch s.lease + 1) d).co = s.co := by
  have htm : Memory.wf (s.taken d).mem = true := State.wrNat_wf _ _ _ hm
  have htc : (s.taken d).Calm := 
    have hmod : (s.modDev fun x => { x with
      superseded := x.superseded ++ x.leader.toList
      leader := some ((leaseEpoch s.lease + 1) % 2 ^ 24, d) }).Calm := ⟨hc.held, hc.queues, hc.doorbells, hc.vfs⟩
    hmod.wrNat _ _ _
  have htl : (s.taken d).rdNat leaseHome 8 =
      (leaseEpoch s.lease + 1) % 2 ^ 24 * 2 ^ 40 + d * 2 ^ 38 + s.dev.time.toNat % 2 ^ 38 := by
    rw [State.taken, State.setLease_lease (by exact hm), Nat.mod_eq_of_lt hd, State.modDev_dev]
  have htj : (s.taken d).dev.journal = [] := hj
  have hto : (s.taken d).co = s.co := rfl
  generalize s.taken d = u at *
  generalize leaseEpoch s.lease = e at *
  obtain ⟨hrc, hmem, hco⟩ := htc.replayJournal htj e
  obtain ⟨hsco, -, -, hlease⟩ := hrc.serve (State.replayJournal_wf e htm) (e + 1) d
  constructor
  · rw [hlease, State.rdNat_congr hmem, htl]
  · rw [hsco, hco, hto]

/-- A controller that takes the first lease of a calm device holds it and serves (R46, R63). -/
theorem State.Calm.takesFirst (hd : d < 4) :
    ((s.setLease 1 d).serve 1 d).rdNat leaseHome 8 = 2 ^ 40 + d * 2 ^ 38 + s.dev.time.toNat % 2 ^ 38 ∧
      ((s.setLease 1 d).serve 1 d).rdNat mbHeader 4 = 1 ∧
      ((s.setLease 1 d).serve 1 d).rdNat (mbHeader + 4) 4 = s.dev.fwLevel.toNat ∧ ((s.setLease 1 d).serve 1 d).co = s.co := by
  obtain ⟨hsco, hmb, hlevel, hlease⟩ := State.Calm.serve (s := s.setLease 1 d) (hc.wrNat _ _ _) (State.setLease_wf 1 d hm) 1 d
  refine ⟨?_, hmb, hlevel, hsco⟩
  rw [hlease, State.setLease_lease hm, Nat.mod_eq_of_lt hd]
  norm_num

end calm
end lease

/-! ## A verified firmware (R47, R49, R63, R65) -/

section load

theorem State.backdrop_endBlackout (s : State) (vf status : Nat) : (s.endBlackout vf status).backdrop = s.backdrop := by
  have hatHome (s : State) (e : Nat × Ingress) : (s.atHomeOf e.1 e.2).backdrop = s.backdrop := by
    unfold State.atHomeOf
    split <;> simp
  have hwithdraw (s : State) (h : Haul) : (s.withdraw h.id).backdrop = s.backdrop :=
    State.backdrop_modHaul (f := fun h => { h with saving := none }) fun _ => ⟨rfl, rfl⟩
  unfold State.endBlackout
  dsimp only
  refine (foldl_frame (g := State.backdrop) hatHome _ _).trans ((State.backdrop_modVf ?_).trans ?_)
  · exact fun _ => ⟨rfl, rfl, rfl⟩
  refine (foldl_frame (g := State.backdrop) hwithdraw _ _).trans ?_
  split <;> rfl

/-- Every VF in its blackout resumes (R355). -/
def State.endBlackouts (s : State) : State :=
  (List.range 32).foldl (fun s n => if (s.vf n).blackout.isSome then s.endBlackout n 9 else s) s

theorem State.endBlackouts_backdrop (s : State) : s.endBlackouts.backdrop = s.backdrop := by
  refine foldl_frame (g := State.backdrop) (fun s n => ?_) _ s
  split
  · exact s.backdrop_endBlackout n 9
  · rfl

theorem State.Calm.endBlackouts (hc : s.Calm) : s.endBlackouts = s := by
  refine List.foldlRecOn (motive := fun t => t = s) _ _ rfl fun t ht n hn => ?_
  subst ht
  rw [(hc.vfs n (List.mem_range.mp hn)).2]
  rfl

/-- What a reload loses, once no VF is in its blackout (R47, R49, R63). -/
def State.dropService (s : State) : State :=
  { s.modDev fun d => { d with journal := [], leader := none, superseded := [] } with
    commands := s.commands.map fun c => { c with result := some (9, 0) }
    queues := []
    vfs := s.vfs.map fun p => (p.1, { p.2 with deferred := [] })
    migrations := [] }

theorem State.loseService_eq (s : State) : s.loseService = s.endBlackouts.dropService := rfl

/-- LEASE reads zero, and the header names a firmware that starts now (R46, R63). -/
def State.boot (s : State) (n : BitVec 32) : State :=
  (((s.wrNat leaseHome 8 0).setMbState 2).modDev fun d => { d with
    fwLevel := n, fwLoaded := true, fwStart := d.time }).writeHeader

theorem exec_firmwareLoad_verified (n : BitVec 32) : exec (.firmwareLoad n true) s =
    .next (if Config.die0Starts ((s.endAll 7 0).loseService.boot n).fresh
      then (((s.endAll 7 0).loseService.boot n).setLease 1 0).serve 1 0 else (s.endAll 7 0).loseService.boot n) := rfl

variable (n : BitVec 32)

/-! Its registers -/

theorem State.wrNat_dev (s : State) (a n v : Nat) :
    (s.wrNat a n v).dev = { s.dev with poison := (s.wrNat a n v).dev.poison } := rfl

theorem State.boot_dev : (s.boot n).dev = { s.dev with
    fwLevel := n, fwLoaded := true, fwStart := s.dev.time, poison := (s.boot n).dev.poison } := by
  rw [State.boot, State.writeHeader, State.wrNat_dev, State.wrNat_dev, State.modDev_dev, State.setMbState, State.wrNat_dev,
    State.wrNat_dev]

theorem State.boot_queues : (s.boot n).queues = s.queues := by
  simp only [State.boot, State.writeHeader, State.setMbState, State.wrNat, State.wr_queues, State.modDev_queues]

theorem State.boot_hauls : (s.boot n).hauls = s.hauls := by
  simp only [State.boot, State.writeHeader, State.setMbState, State.wrNat, State.wr_hauls, State.modDev_hauls]

theorem State.boot_commands : (s.boot n).commands = s.commands := by
  simp only [State.boot, State.writeHeader, State.setMbState, State.wrNat, State.wr_commands, State.modDev_commands]

theorem State.boot_vfs : (s.boot n).vfs = s.vfs := by
  simp only [State.boot, State.writeHeader, State.setMbState, State.wrNat, State.wr_vfs, State.modDev_vfs]

theorem State.boot_migrations (h : s.migrations = []) : (s.boot n).migrations = [] := by
  simp only [State.boot, State.writeHeader, State.setMbState, State.wrNat, State.wr_migrations, State.modDev_migrations, h,
    List.map_nil]

/-! Its memory -/

theorem State.writeHeader_state (hm : Memory.wf s.mem = true) : s.writeHeader.rdNat mbHeader 4 = s.rdNat mbHeader 4 := by
  rw [State.writeHeader, State.rdNat_wrNat_disjoint (State.wrNat_wf _ _ _ hm) _ (by omega),
    State.rdNat_wrNat_disjoint hm _ (by omega)]

section memory
variable (hm : Memory.wf s.mem = true)
include hm

theorem State.boot_wf : Memory.wf (s.boot n).mem = true := by
  have hw : Memory.wf ((s.wrNat leaseHome 8 0).setMbState 2).mem = true := State.wrNat_wf _ _ _ (State.wrNat_wf _ _ _ hm)
  exact (State.writeHeader_keeps (s := ((s.wrNat leaseHome 8 0).setMbState 2).modDev _) hw).wf

theorem State.boot_lease : (s.boot n).rdNat leaseHome 8 = 0 := by
  have hll : leaseHome + 8 ≤ mbHeader := by unfold leaseHome mbHeader homeWin; omega
  have hv := State.wrNat_wf leaseHome 8 0 hm
  have hk := State.wrNat_keeps hv (Nat.le_refl mbHeader) 4 2
  unfold State.boot State.setMbState
  generalize (s.wrNat leaseHome 8 0).wrNat mbHeader 4 2 = u at hk ⊢
  have hh := State.writeHeader_keeps (s := u.modDev fun d => { d with fwLevel := n, fwLoaded := true, fwStart := d.time }) hk.wf
  rw [hh.rdNat hll, State.rdNat_congr (State.modDev_mem ..), hk.rdNat hll, State.rdNat_wrNat hm]
  rfl

theorem State.boot_mbState : (s.boot n).rdNat mbHeader 4 = 2 := by
  have hv := State.wrNat_wf leaseHome 8 0 hm
  have hw := State.wrNat_wf mbHeader 4 2 hv
  have h2 := State.rdNat_wrNat hv mbHeader 4 2
  unfold State.boot State.setMbState
  generalize (s.wrNat leaseHome 8 0).wrNat mbHeader 4 2 = u at hw h2 ⊢
  rw [State.writeHeader_state (s := u.modDev _) hw, State.rdNat_congr (State.modDev_mem ..), h2]
  rfl

theorem State.boot_level : (s.boot n).rdNat (mbHeader + 4) 4 = n.toNat := by
  have hw := State.wrNat_wf mbHeader 4 2 (State.wrNat_wf leaseHome 8 0 hm)
  unfold State.boot State.setMbState
  generalize (s.wrNat leaseHome 8 0).wrNat mbHeader 4 2 = u at hw ⊢
  rw [State.writeHeader_level (s := u.modDev _) hw, State.modDev_dev]

end memory

theorem State.Calm.boot (hc : s.Calm) : (s.boot n).Calm := by
  refine ⟨?_, ?_, ?_, fun v hv => ?_⟩
  · rw [State.boot_dev]
    exact hc.held
  · rw [State.boot_queues, hc.queues]
  · rw [State.boot_dev]
    exact hc.doorbells
  · rw [State.vf, State.boot_vfs]
    exact hc.vfs v hv

/-! What stops before it (R47, R49, R63) -/

theorem tget_map {α : Type} {d : α} {f : α → α} (hd : f d = d) (l : List (Nat × α)) (k : Nat) :
    tget d (l.map fun p => (p.1, f p.2)) k = f (tget d l k) := by
  induction l with
  | nil => exact hd.symm
  | cons p l ih =>
    rw [List.map_cons, tget, tget, ih]
    split <;> rfl

theorem State.dropService_vf (v : Nat) : s.dropService.vf v = { s.vf v with deferred := [] } :=
  tget_map (d := vfReset v) (f := fun x => { x with deferred := [] }) rfl s.vfs v

theorem State.dropService_commands {c : Command} (hc : c ∈ s.dropService.commands) : c.result = some (9, 0) := by
  obtain ⟨_, _, rfl⟩ := List.mem_map.mp hc
  rfl

/-- Hauls that end in the same way have ended together. -/
theorem State.ended_of_ends (h : t.hauls.map (fun h => (h.retired, h.ended)) = s.hauls.map fun h => (h.retired, h.ended))
    (hs : ∀ h ∈ s.hauls, h.retired = false → h.ended.isSome = true) :
    ∀ h ∈ t.hauls, h.retired = false → h.ended.isSome = true := by
  intro k hk hr
  obtain ⟨j, hj, hje⟩ := List.mem_map.mp (h ▸ List.mem_map_of_mem hk)
  obtain ⟨hjr, hjend⟩ := Prod.mk.inj hje
  rw [← hjend]
  exact hs j hj (hjr.trans hr)

theorem State.ends_of_backdrop (h : t.backdrop = s.backdrop) :
    t.hauls.map (fun h => (h.retired, h.ended)) = s.hauls.map fun h => (h.retired, h.ended) := congrArg (·.2.2.1) h

theorem State.time_of_backdrop (h : t.backdrop = s.backdrop) : t.dev.time = s.dev.time := congrArg (fun b => Device.time b.1) h

/-- A device that firmware has stopped (R49, R63): nobody leads, every haul has ended, every command has failed, nothing waits. -/
structure State.Stopped (s w : State) : Prop where
  leader : w.dev.leader = none
  superseded : w.dev.superseded = []
  time : w.dev.time = s.dev.time
  queues : w.queues = []
  migrations : w.migrations = []
  commands : ∀ c ∈ w.commands, c.result = some (9, 0)
  ended : ∀ h ∈ w.hauls, h.retired = false → h.ended.isSome = true
  calm : s.Calm → w.Calm
  wf : Memory.wf s.mem = true → Memory.wf w.mem = true

theorem State.dropService_stopped (hb : u.backdrop = s.backdrop) (hs : ∀ h ∈ s.hauls, h.retired = false → h.ended.isSome = true)
    (hc : s.Calm → u = s) (hm : Memory.wf s.mem = true → Memory.wf u.mem = true) : State.Stopped s u.dropService where
  leader := rfl
  superseded := rfl
  time := (State.time_of_backdrop hb :)
  queues := rfl
  migrations := rfl
  commands _ := State.dropService_commands
  ended := (State.ended_of_ends (State.ends_of_backdrop hb) hs :)
  calm h := by
    rw [hc h]
    exact ⟨h.held, rfl, h.doorbells, fun v hv => by rw [State.dropService_vf]; exact h.vfs v hv⟩
  wf := hm

theorem State.Calm.endAll (hc : s.Calm) (status : Nat) (detail : Word) : (s.endAll status detail).Calm :=
  List.foldlRecOn (motive := State.Calm) _ _ hc fun _ ht _ _ => ⟨ht.held, ht.queues, ht.doorbells, ht.vfs⟩

theorem State.endBlackouts_wf (hm : Memory.wf s.mem = true) : Memory.wf s.endBlackouts.mem = true :=
  foldl_wf (fun s n h => by split; exacts [State.endBlackout_wf n 9 h, h]) _ hm

theorem State.loseService_stopped (s : State) : State.Stopped s (s.endAll 7 0).loseService := by
  have h := State.dropService_stopped (s.endAll 7 0).endBlackouts_backdrop (State.endAll_ends s 7 0)
    (fun h => h.endBlackouts) State.endBlackouts_wf
  rw [State.loseService_eq]
  exact ⟨h.leader, h.superseded, h.time.trans (by rw [State.endAll_dev]), h.queues, h.migrations, h.commands, h.ended,
    fun hc => h.calm (hc.endAll 7 0), fun hm => h.wf (by rwa [State.endAll_mem])⟩

/-- What holds of a device that runs a verified firmware of a level, loaded at a time (R46, R49, R63). -/
structure State.Runs (n : BitVec 32) (s t : State) : Prop where
  fwLevel : t.dev.fwLevel = n
  fwLoaded : t.dev.fwLoaded = true
  fwStart : t.dev.fwStart = s.dev.time
  superseded : t.dev.superseded = []
  leader : t.dev.leader = some (1, 0) ∨ t.dev.leader = none
  ended : ∀ h ∈ t.hauls, h.retired = false → h.ended.isSome = true
  migrations : t.migrations = []
  idle : t.dev.leader = none → t.queues = [] ∧ ∀ c ∈ t.commands, c.result = some (9, 0)
  calm : Memory.wf s.mem = true → s.Calm → t.rdNat (mbHeader + 4) 4 = n.toNat ∧
    if t.dev.leader = none then t.rdNat leaseHome 8 = 0 ∧ t.rdNat mbHeader 4 = 2
    else t.rdNat leaseHome 8 = 2 ^ 40 + s.dev.time.toNat % 2 ^ 38 ∧ t.rdNat mbHeader 4 = 1

variable {w : State} (hw : State.Stopped s w)
include hw

/-- The controllers leave the first lease to the followers. -/
theorem State.Stopped.boots : State.Runs n s (w.boot n) where
  fwLevel := by rw [State.boot_dev]
  fwLoaded := by rw [State.boot_dev]
  fwStart := by rw [State.boot_dev]; exact hw.time
  superseded := by rw [State.boot_dev]; exact hw.superseded
  leader := by rw [State.boot_dev]; exact .inr hw.leader
  ended := by rw [State.boot_hauls]; exact hw.ended
  migrations := State.boot_migrations n hw.migrations
  idle _ := by rw [State.boot_queues, State.boot_commands]; exact ⟨hw.queues, hw.commands⟩
  calm hm _ := by
    have hl : (w.boot n).dev.leader = none := by rw [State.boot_dev]; exact hw.leader
    rw [if_pos hl]
    exact ⟨State.boot_level n (hw.wf hm), State.boot_lease n (hw.wf hm), State.boot_mbState n (hw.wf hm)⟩

/-- Die 0 takes the first lease and serves. -/
theorem State.Stopped.serves : State.Runs n s (((w.boot n).setLease 1 0).serve 1 0) := by
  have hb := hw.boots n
  have ho := ((w.boot n).setLease 1 0).serve_office 1 0
  have hl : (((w.boot n).setLease 1 0).serve 1 0).dev.leader = some (1, 0) := State.serve_leader ..
  refine ⟨(State.fwLevel_of_office ho).trans hb.fwLevel, (State.fwLoaded_of_office ho).trans hb.fwLoaded,
    (State.fwStart_of_office ho).trans hb.fwStart, (State.superseded_of_office ho).trans hb.superseded, .inl hl, ?ended,
    ?migrations, fun h => absurd (h.symm.trans hl) (by simp), fun hm hc => ?calm⟩
  case ended => exact State.ended_of_ends (State.ends_of_office ho) hb.ended
  case migrations =>
    have hm : ((w.boot n).setLease 1 0).migrations = [] := by rw [State.setLease, State.wrNat, State.wr_migrations, hb.migrations]; rfl
    exact List.length_eq_zero_iff.mp ((State.migrations_of_office ho).trans (congrArg List.length hm))
  case calm =>
    obtain ⟨hlease, hmb, hlevel, -⟩ := State.Calm.takesFirst ((hw.calm hc).boot n) (State.boot_wf n (hw.wf hm)) (d := 0) (by omega)
    have htime : (w.boot n).dev.time = s.dev.time := by rw [State.boot_dev]; exact hw.time
    rw [hl, if_neg (by simp), hlevel, hb.fwLevel, hlease, hmb, htime, Nat.zero_mul, Nat.add_zero]
    exact ⟨rfl, rfl, rfl⟩

end load

/-! ## A firmware that is not verified (R361, R363) -/

section unverified
variable {v : Nat}

/-- A VF once its reset is done (R360 steps 2 to 5). -/
def Vf.afterReset (v : Vf) : Vf := { v with
  deferred := [], ready := [], tasks := [], pstable := (0, 0), psets := [], rings := [], requests := [], heldKicks := []
  launches := 0, en := false, lock := false, flrb := false, key := 0, blackout := none, locking := none, stub := [], held := [] }

/-- Whether the reset of a VF can be finished: it is in its reset, and its hauls have retired. -/
def State.canFinish (s : State) (v : Nat) : Prop := ¬ ((!(s.vf v).flrb) = true ∨ s.hauls.any (fun h => h.vf == v && !h.retired) = true)

theorem State.finishReset_waits (h : ¬ s.canFinish v) : s.finishReset v = s := if_pos (not_not.mp h)

theorem State.finishReset_vfs (h : s.canFinish v) : (s.finishReset v).vfs = (s.modVf v Vf.afterReset).vfs := by
  rw [State.finishReset, if_neg h]
  rfl

theorem State.finishReset_hauls (h : s.canFinish v) :
    (s.finishReset v).hauls = (s.dropQueues fun q => q.vf == v).hauls := by
  rw [State.finishReset, if_neg h]
  rfl

theorem State.finishReset_mem (h : s.canFinish v) :
    (s.finishReset v).mem = Memory.clear s.mem (homeWin (0x1000 + 64 * v + 8)) 56 := by
  rw [State.finishReset, if_neg h]
  rfl

theorem State.finishReset_dev (h : s.canFinish v) :
    (s.finishReset v).dev = { s.dev with poison := (s.finishReset v).dev.poison } := by
  rw [State.finishReset, if_neg h]
  rfl

/-- The hauls of a VF stop without record or signal (R360 step 1). -/
def State.stopHaulsOf (s : State) (v : Nat) : State :=
  (s.hauls.filter fun h => h.vf == v && !h.retired).foldl (fun s h => (s.stopHaul h.id 5 0 0).modHaul h.id fun h => { h with
    silent := true, saved := [], nextRake := h.hdr.rakes, waits := [] }) s

/-- A VF whose reset has begun (R360 step 1). -/
def State.startReset (s : State) (v : Nat) : State := (s.stopHaulsOf v).modVf v fun k => { k with flrb := true, error := false }

theorem State.resetVf_eq (s : State) (v : Nat) : s.resetVf v = (s.startReset v).finishReset v := rfl

/-- From s to t only the VFs of a list change, with counters and what hauls hold. -/
structure State.ResetsOnly (l : List Nat) (s t : State) : Prop where
  dev : t.dev = { s.dev with poison := t.dev.poison }
  vfs : ∀ n, n ∉ l → t.vf n = s.vf n
  hauls : t.hauls.map (fun h => (h.vf, h.retired)) = s.hauls.map fun h => (h.vf, h.retired)
  mem : ∀ x, x < homeWin 0x1000 ∨ homeWin 0x1800 ≤ x → Memory.get t.mem x = Memory.get s.mem x
  wf : Memory.wf t.mem = true

namespace State.ResetsOnly
variable {l : List Nat}

theorem refl (hm : Memory.wf s.mem = true) : State.ResetsOnly l s s := ⟨rfl, fun _ _ => rfl, rfl, fun _ _ => rfl, hm⟩

theorem trans (h : State.ResetsOnly l s t) (k : State.ResetsOnly l t u) : State.ResetsOnly l s u where
  dev := by rw [k.dev, h.dev]
  vfs n hn := (k.vfs n hn).trans (h.vfs n hn)
  hauls := k.hauls.trans h.hauls
  mem x hx := (k.mem x hx).trans (h.mem x hx)
  wf := k.wf

theorem modVf (hm : Memory.wf s.mem = true) (hv : v ∈ l) (f : Vf → Vf) : State.ResetsOnly l s (s.modVf v f) :=
  ⟨rfl, fun n hn => by rw [State.vf_modVf, if_neg (ne_of_mem_of_not_mem hv hn).symm], rfl, fun _ _ => rfl, hm⟩

theorem mapHauls (hm : Memory.wf t.mem = true) (hd : t.dev = s.dev) (hv : t.vfs = s.vfs) (hmem : t.mem = s.mem) {f : Haul → Haul}
    (hh : t.hauls = s.hauls.map f) (hf : ∀ h, (f h).vf = h.vf ∧ (f h).retired = h.retired) : State.ResetsOnly l s t := by
  refine ⟨by rw [hd], fun n _ => by rw [State.vf, hv, State.vf], ?_, fun x _ => by rw [hmem], hm⟩
  rw [hh, List.map_map]
  exact List.map_congr_left fun h _ => Prod.ext (hf h).1 (hf h).2

theorem stopAndDrop (hm : Memory.wf s.mem = true) (h : Haul) : State.ResetsOnly l s ((s.stopHaul h.id 5 0 0).modHaul h.id
    fun h => { h with silent := true, saved := [], nextRake := h.hdr.rakes, waits := [] }) := by
  have hstop : State.ResetsOnly l s (s.stopHaul h.id 5 0 0) := by
    refine mapHauls hm rfl rfl rfl (State.stopHaul_hauls ..) fun k => ?_
    split <;> exact ⟨rfl, rfl⟩
  refine hstop.trans (mapHauls hm rfl rfl rfl rfl fun k => ?_)
  split <;> exact ⟨rfl, rfl⟩

theorem finishReset (hm : Memory.wf s.mem = true) (hv : v < 32) (hvl : v ∈ l) : State.ResetsOnly l s (s.finishReset v) := by
  by_cases hc : s.canFinish v
  · refine ⟨State.finishReset_dev hc, fun n hn => ?_, ?_, fun x hx => ?_, State.finishReset_wf v hm⟩
    · rw [State.vf, State.finishReset_vfs hc, ← State.vf, State.vf_modVf, if_neg (ne_of_mem_of_not_mem hvl hn).symm]
    · rw [State.finishReset_hauls hc, State.dropQueues, List.map_map]
      refine List.map_congr_left fun h _ => ?_
      dsimp only [Function.comp_apply]
      split <;> rfl
    · rw [State.finishReset_mem hc, Memory.get_clear _ _ _ hm]
      refine if_neg ?_
      unfold homeWin at *
      omega
  · rw [State.finishReset_waits hc]
    exact refl hm

theorem startReset (hm : Memory.wf s.mem = true) (hvl : v ∈ l) : State.ResetsOnly l s (s.startReset v) :=
  have hstop : State.ResetsOnly l s (s.stopHaulsOf v) := List.foldlRecOn (motive := State.ResetsOnly l s) _ _ (refl hm)
    fun _ ht h _ => ht.trans (stopAndDrop ht.wf h)
  hstop.trans (modVf hstop.wf hvl _)

theorem resetVf (hm : Memory.wf s.mem = true) (hv : v < 32) (hvl : v ∈ l) : State.ResetsOnly l s (s.resetVf v) :=
  have h := startReset (v := v) hm hvl
  h.trans (finishReset h.wf hv hvl)

theorem toError (hm : Memory.wf s.mem = true) (hv : v < 32) (hvl : v ∈ l) : State.ResetsOnly l s (s.toError v) := by
  unfold State.toError
  split
  · have hr := resetVf hm hv hvl
    exact hr.trans (modVf hr.wf hvl _)
  · exact refl hm

theorem toErrors (hm : Memory.wf s.mem = true) (hl : ∀ v ∈ l, v < 32) : State.ResetsOnly l s (l.foldl State.toError s) :=
  List.foldlRecOn (motive := State.ResetsOnly l s) _ _ (refl hm) fun _ ht v hv => ht.trans (toError ht.wf (hl v hv) hv)

end State.ResetsOnly

/-- The hauls of a VF have all retired. -/
def State.Drained (s : State) (v : Nat) : Prop := ∀ h ∈ s.hauls, h.vf = v → h.retired = true

theorem State.drained_of_hauls (h : t.hauls.map (fun h => (h.vf, h.retired)) = s.hauls.map fun h => (h.vf, h.retired))
    (hs : s.Drained v) : t.Drained v := by
  intro k hk hv
  obtain ⟨j, hj, hjk⟩ := List.mem_map.mp (h ▸ List.mem_map_of_mem hk)
  obtain ⟨hjv, hjr⟩ := Prod.mk.inj hjk
  rw [← hjr]
  exact hs j hj (hjv.trans hv)

theorem State.finishReset_unlocks (hd : s.Drained v) (hf : (s.vf v).flrb = true) : ((s.finishReset v).vf v).lock = false := by
  have hany : s.hauls.any (fun h => h.vf == v && !h.retired) = false := by
    simp only [List.any_eq_false, Bool.and_eq_true, beq_iff_eq, Bool.not_eq_true', not_and, Bool.not_eq_false]
    exact hd
  have hc : s.canFinish v := by simp [State.canFinish, hany, hf]
  rw [State.vf, State.finishReset_vfs hc, ← State.vf, State.vf_modVf, if_pos rfl]
  rfl

theorem State.toError_locked (hm : Memory.wf s.mem = true) (hl : (s.vf v).lock = true) :
    ((s.toError v).vf v).error = true ∧ (s.Drained v → ((s.toError v).vf v).lock = false) := by
  have he : s.toError v = (s.resetVf v).modVf v fun k => { k with error := true } := if_pos hl
  have hvf : (s.toError v).vf v = { (s.resetVf v).vf v with error := true } := by rw [he, State.vf_modVf, if_pos rfl]
  rw [hvf]
  refine ⟨rfl, fun hd => ?_⟩
  have hf : ((s.startReset v).vf v).flrb = true := by rw [State.startReset, State.vf_modVf, if_pos rfl]
  rw [State.resetVf_eq]
  exact State.finishReset_unlocks (State.drained_of_hauls (State.ResetsOnly.startReset hm (List.mem_singleton_self v)).hauls hd) hf

/-- Each locked VF of a list is put into its ERROR state, and once its hauls have retired it is unlocked. -/
theorem State.toErrors_locked {l : List Nat} (hm : Memory.wf s.mem = true) (hl : ∀ v ∈ l, v < 32) (hn : l.Nodup) (hv : v ∈ l)
    (hk : (s.vf v).lock = true) : ((l.foldl State.toError s).vf v).error = true ∧
      (s.Drained v → ((l.foldl State.toError s).vf v).lock = false) := by
  obtain ⟨l₁, l₂, rfl⟩ := List.append_of_mem hv
  obtain ⟨hn₁, hn₂⟩ := List.nodup_middle.mp hn |> List.nodup_cons.mp
  rw [List.mem_append, not_or] at hn₁
  have h₁ := State.ResetsOnly.toErrors hm fun k hk => hl k (List.mem_append_left _ hk)
  have hself := State.ResetsOnly.toError h₁.wf (hl v hv) (List.mem_singleton_self v)
  have h₂ := State.ResetsOnly.toErrors hself.wf fun k hk => hl k (List.mem_append_right _ (List.mem_cons_of_mem _ hk))
  have hlock : ((l₁.foldl State.toError s).vf v).lock = true := by rw [h₁.vfs v hn₁.1, hk]
  obtain ⟨herr, hunlock⟩ := State.toError_locked h₁.wf hlock
  rw [List.foldl_append, List.foldl_cons, h₂.vfs v hn₁.2]
  exact ⟨herr, fun hd => hunlock (State.drained_of_hauls h₁.hauls hd)⟩

/-- The device once its controllers have stopped for an image that is not run (R363). -/
def State.unserved (s : State) : State :=
  ((s.stopLeader.wrNat leaseHome 8 0).setMbState 0).modDev fun d => { d with fwLoaded := false, superseded := [] }

theorem exec_firmwareLoad_refused (n : BitVec 32) :
    exec (.firmwareLoad n false) s = .next ((List.range 32).foldl State.toError s.unserved) := rfl

theorem State.unserved_wf (hm : Memory.wf s.mem = true) : Memory.wf s.unserved.mem = true :=
  State.wrNat_wf _ _ _ (State.wrNat_wf _ _ _ hm)

theorem State.unserved_vf (n : Nat) : s.unserved.vf n = s.vf n := by
  simp only [State.vf, State.unserved, State.setMbState, State.wrNat, State.modDev_vfs, State.wr_vfs, State.stopLeader]

theorem State.unserved_hauls : s.unserved.hauls = s.hauls := by
  simp only [State.unserved, State.setMbState, State.wrNat, State.modDev_hauls, State.wr_hauls, State.stopLeader]

theorem State.unserved_leader : s.unserved.dev.leader = none := by
  rw [State.unserved, State.modDev_dev, State.setMbState, State.wrNat_dev, State.wrNat_dev]
  rfl

theorem State.unserved_fwLoaded : s.unserved.dev.fwLoaded = false := by rw [State.unserved, State.modDev_dev]

theorem State.unserved_reads (hm : Memory.wf s.mem = true) :
    s.unserved.rdNat mbHeader 4 = 0 ∧ s.unserved.rdNat leaseHome 8 = 0 := by
  have hll : leaseHome + 8 ≤ mbHeader := by unfold leaseHome mbHeader homeWin; omega
  have hv := State.wrNat_wf (s := s.stopLeader) leaseHome 8 0 hm
  have hlease := State.rdNat_wrNat (s := s.stopLeader) hm leaseHome 8 0
  unfold State.unserved State.setMbState
  generalize s.stopLeader.wrNat leaseHome 8 0 = u at hv hlease ⊢
  have hk := State.wrNat_keeps hv (Nat.le_refl mbHeader) 4 0
  rw [State.rdNat_congr (State.modDev_mem ..), State.rdNat_congr (State.modDev_mem ..), State.rdNat_wrNat hv, hk.rdNat hll, hlease]
  exact ⟨rfl, rfl⟩

theorem State.ResetsOnly.leader {l : List Nat} (h : State.ResetsOnly l s t) : t.dev.leader = s.dev.leader := by rw [h.dev]
theorem State.ResetsOnly.fwLoaded {l : List Nat} (h : State.ResetsOnly l s t) : t.dev.fwLoaded = s.dev.fwLoaded := by rw [h.dev]

theorem State.ResetsOnly.rdNat {l : List Nat} (h : State.ResetsOnly l s t) {a n : Nat}
    (ha : a + n ≤ homeWin 0x1000 ∨ homeWin 0x1800 ≤ a) : t.rdNat a n = s.rdNat a n :=
  congrArg leNat (Memory.getAll_congr fun i hi => h.mem (a + i) (by omega))

end unverified

/-! ## The obligation -/

/-- Settles O60: a controller that begins to serve keeps its office (`State.serve_office`) and, on a calm device, the lease
(`State.Calm.serve`); a replay is `State.replayJournal_eq`; a verified firmware serves a stopped device
(`State.loseService_stopped`), and one that is not verified resets the locked VFs one by one (`State.toErrors_locked`). -/
theorem leaseSteps : Obligations.LeaseSteps := by
  refine ⟨fun s t rest => stop_ends, fun s e => ?replay, fun s hm => ⟨fun p rest hp => ⟨_, exec_leaseRenew_superseded hp, rfl⟩,
    exec_leaseRenew_none, fun e d hs hl => ⟨_, exec_leaseRenew_leader hs hl, ?renew⟩,
    fun d hd hf he hh hs hage => ⟨_, exec_leaseTakeover hd hf he hh hs hage, ?takenLeader, ?takenSuperseded, fun hc => ?takenCalm⟩,
    fun d hd hf hx ht => ⟨_, exec_leaseFallback hd hf hx ht, State.serve_leader .., fun hc => ?fallback⟩,
    fun n => ⟨_, exec_firmwareLoad_verified n, ?verified⟩, fun n => ⟨_, exec_firmwareLoad_refused n, ?refused⟩⟩⟩
  case replay =>
    dsimp only
    refine ⟨fun x => State.mem_replayable, fun q hq => ?queue, fun c => State.replayJournal_command, fun h hl => ?journalled,
      fun h hh => ?held, fun hseen => State.replayJournal_mem hseen, by rw [State.replayJournal_dev]⟩
    case journalled =>
      rw [State.replayJournal_dev]
      exact mem_heldIn hl
    case held =>
      rw [State.replayJournal_dev]
      exact List.mem_append_right _ hh
    case queue =>
      obtain ⟨p, hp, rfl⟩ := State.mem_replayJournal_queues hq
      refine ⟨p, hp, ?_⟩
      rw [← State.readable]
      cases hj : queueIn? (s.readable e) p.id with
      | some j =>
        rw [Queue.replayed_some hj]
        exact ⟨rfl, rfl, rfl, rfl, rfl, rfl⟩
      | none =>
        rw [Queue.replayed_none hj]
        refine ⟨rfl, rfl, ?_, rfl, rfl⟩
        dsimp only
        rw [State.qcbRdidx_beforeReplay]
        split
        · exact fun hseen => State.rdNat_congr (State.beforeReplay_mem hseen) ..
        · rfl
  case renew =>
    by_cases hmine : leaseEpoch s.lease = e ∧ leaseHolder s.lease = d
    · have he : e % 2 ^ 24 = e := by rw [← hmine.1]; exact Nat.mod_mod ..
      have hd : d % 4 = d := by rw [← hmine.2]; exact Nat.mod_mod ..
      have hlease := State.setLease_lease hm e d
      rw [he, hd] at hlease
      rw [if_pos hmine]
      refine (if_pos hmine).mpr ⟨rfl, hlease, fun y hy => Memory.get_wr_outside hm (by rwa [leBytes_length])⟩
    · rw [if_neg hmine]
      exact (if_neg hmine).mpr rfl
  case takenLeader => exact State.serve_leader ..
  case takenSuperseded =>
    rw [State.serve_superseded, State.replayJournal_dev]
    rfl
  case takenCalm =>
    obtain ⟨hheld, hj, hq, hbell, hv⟩ := hc
    exact State.Calm.takes ⟨hheld, hq, hbell, hv⟩ hm hj hd
  case fallback =>
    obtain ⟨hheld, -, hq, hbell, hv⟩ := hc
    obtain ⟨hlease, hmb, -, hco⟩ := State.Calm.takesFirst ⟨hheld, hq, hbell, hv⟩ hm hd
    exact ⟨hlease, hmb, hco⟩
  case verified =>
    have hruns : State.Runs n s (if Config.die0Starts ((s.endAll 7 0).loseService.boot n).fresh
        then (((s.endAll 7 0).loseService.boot n).setLease 1 0).serve 1 0 else (s.endAll 7 0).loseService.boot n) := by
      split
      · exact s.loseService_stopped.serves n
      · exact s.loseService_stopped.boots n
    refine ⟨hruns.fwLevel, hruns.fwLoaded, hruns.fwStart, hruns.superseded, hruns.leader, hruns.ended, hruns.migrations, hruns.idle,
      fun hc => ?_⟩
    obtain ⟨hheld, -, hq, hbell, hv⟩ := hc
    exact hruns.calm hm ⟨hheld, hq, hbell, hv⟩
  case refused =>
    have hr := State.ResetsOnly.toErrors (State.unserved_wf hm) fun v hv => List.mem_range.mp hv
    have hlow : homeWin 0x1800 ≤ mbHeader ∧ leaseHome + 8 ≤ homeWin 0x1000 := by unfold mbHeader leaseHome homeWin; omega
    obtain ⟨hmb, hlease⟩ := State.unserved_reads hm
    refine ⟨hr.leader.trans State.unserved_leader, hr.fwLoaded.trans State.unserved_fwLoaded, (hr.rdNat (.inr hlow.1)).trans hmb,
      (hr.rdNat (.inl hlow.2)).trans hlease, fun v hv hl => ?_⟩
    have hlu : (s.unserved.vf v).lock = true := by rw [State.unserved_vf, hl]
    obtain ⟨herr, hunlock⟩ := State.toErrors_locked (State.unserved_wf hm) (fun v hv => List.mem_range.mp hv) List.nodup_range
      (List.mem_range.mpr hv) hlu
    refine ⟨herr, fun hd => hunlock ?_⟩
    rw [State.Drained, State.unserved_hauls]
    exact hd

end Sys2Proof.Machine
end

section
/-! # O59: the mailbox (R46, R47)

What a doorbell, the start of a command and a completion do. -/

namespace Sys2Proof.Machine
variable {s t u : State}

/-! ## Doorbells (R47 steps 1 and 2) -/

section doorbell
variable {b : Nat} {x : Word}

theorem exec_mailboxDoorbell (hb : b < 32) (x : Word) (s : State) : exec (.mailboxDoorbell b x) s =
    .next (if s.mbReady then s.doorbell b x else s.modDev fun d => { d with doorbells := d.doorbells ++ [(b, x)] }) := by
  simp only [exec, execMailboxDoorbell]
  rw [if_neg (by omega)]

/-- The command that a slot holds (R46, R48). -/
def State.slotCommand (s : State) (block slot : Nat) : Command :=
  let a := mbSlot block slot
  let op := s.rdNat a 2
  let args : List Dword := (List.range 5).map fun i => BitVec.ofNat 64 (s.rdNat (a + 8 + 8 * i) 8)
  { block := block, slot := slot, op := op, args := args, vf := commandVf op block args, started := false
    result := (refusal? op block args).map fun e => (e, 0) }

theorem State.takeSlot_other {block slot : Nat} (h : s.rdNat (mbSlot block slot + 2) 1 ≠ 1) : s.takeSlot block slot = s := if_pos h

theorem State.takeSlot_posted {block slot : Nat} (h : s.rdNat (mbSlot block slot + 2) 1 = 1) : s.takeSlot block slot =
    { s.wr (mbSlot block slot + 2) [2] with commands := s.commands ++ [s.slotCommand block slot] } :=
  if_neg (not_not.mpr h)

theorem State.slotCommand_arg (s : State) (block slot : Nat) {i : Nat} (hi : i < 5) :
    (s.slotCommand block slot).arg i = s.rdNat (mbSlot block slot + 8 + 8 * i) 8 := by
  have hlt := s.rdNat_lt (mbSlot block slot + 8 + 8 * i) 8
  rw [show 256 ^ 8 = 2 ^ 64 by norm_num] at hlt
  simp only [Command.arg, State.slotCommand, List.getElem?_map, List.getElem?_range hi, Option.map_some, Option.getD_some,
    BitVec.toNat_ofNat, Nat.mod_eq_of_lt hlt]

theorem refusal?_badop {op block : Nat} {args : List Dword} (h : op = 0 ∨ 12 < op) : refusal? op block args = some 2 := if_pos h

theorem refusal?_denied {op block : Nat} {args : List Dword} (hlo : 4 ≤ op) (hhi : op ≤ 6) (hb : block ≠ 0) :
    refusal? op block args = some 4 := by
  rw [refusal?, if_neg (by omega), if_pos ⟨by omega, hb⟩]

theorem refusal?_args {op block : Nat} {args : List Dword} (hlo : 0 < op) (hhi : op ≤ 12)
    (hd : ¬ (4 ≤ op ∧ op ≤ 6 ∧ block ≠ 0)) : refusal? op block args = if argsOk op block args then none else some 3 := by
  rw [refusal?, if_neg (by omega), if_neg (by omega)]

end doorbell

/-! ## A command becomes due (R47) -/

section due
variable {b i op : Nat}

/-- Whether a command is one of these that has not ended. -/
def Command.isMine (b i op : Nat) (c : Command) : Bool := c.block == b && c.slot == i && c.op == op && c.result.isNone

theorem Command.isMine_iff {c : Command} : c.isMine b i op = true ↔ c.block = b ∧ c.slot = i ∧ c.op = op ∧ c.result = none := by
  simp [Command.isMine, and_assoc]

/-- Whether a command of a block holds back those that its block took after it. -/
def Command.blocks (b : Nat) (c : Command) : Bool := c.block == b && c.waits

theorem Command.blocks_iff {c : Command} : c.blocks b = true ↔ c.block = b ∧ c.started = false ∧ c.result = none := by
  simp [Command.blocks, Command.waits]

theorem State.command?_eq (s : State) (b i op : Nat) : s.command? b i op =
    if s.leads && !(s.commands.takeWhile fun k => !k.isMine b i op).any (Command.blocks b)
    then s.commands.find? (Command.isMine b i op) else none := rfl

theorem takeWhile_append_mine {l r : List Command} {c : Command} (hl : ∀ k ∈ l, ¬ k.isMine b i op = true)
    (hc : c.isMine b i op = true) :
    (l ++ c :: r).takeWhile (fun k => !k.isMine b i op) = l := by
  rw [List.takeWhile_append_of_pos fun k hk => by simpa using hl k hk, List.takeWhile_cons_of_neg (by simp [hc]), List.append_nil]

theorem State.command?_due {l r : List Command} {c : Command} (hs : s.leads = true) (he : s.commands = l ++ c :: r)
    (hl : ∀ k ∈ l, ¬ k.isMine b i op = true) (hc : c.isMine b i op = true) (hw : ∀ k ∈ l, ¬ k.blocks b = true) :
    s.command? b i op = some c := by
  have hany : (s.commands.takeWhile fun k => !k.isMine b i op).any (Command.blocks b) = false := by
    rw [he, takeWhile_append_mine hl hc, List.any_eq_false]
    exact hw
  have hfind : s.commands.find? (Command.isMine b i op) = some c := by
    rw [he, List.find?_append, List.find?_eq_none.mpr hl, Option.none_or, List.find?_cons_of_pos hc]
  rw [State.command?_eq, hany, hs, hfind]
  rfl

theorem State.command?_waits {l r : List Command} {c k : Command} (he : s.commands = l ++ c :: r)
    (hl : ∀ k ∈ l, ¬ k.isMine b i op = true) (hc : c.isMine b i op = true) (hk : k ∈ l) (hw : k.blocks b = true) :
    s.command? b i op = none := by
  have hany : (s.commands.takeWhile fun k => !k.isMine b i op).any (Command.blocks b) = true := by
    rw [he, takeWhile_append_mine hl hc]
    exact List.any_eq_true.mpr ⟨k, hk, hw⟩
  rw [State.command?_eq, hany]
  simp

theorem State.command?_absent (h : ∀ c ∈ s.commands, ¬ c.isMine b i op = true) : s.command? b i op = none := by
  have hfind : s.commands.find? (Command.isMine b i op) = none := List.find?_eq_none.mpr h
  rw [State.command?_eq, hfind, ite_self]

theorem State.command?_idle (h : s.leads = false) : s.command? b i op = none := by
  rw [State.command?_eq, h]
  rfl

/-- A command that is due is one of its slot that has not ended. -/
theorem State.command?_mine {c : Command} (h : s.command? b i op = some c) : c.block = b ∧ c.slot = i ∧ c.result = none := by
  rw [State.command?_eq] at h
  split at h
  · obtain ⟨hb, hi, -, hr⟩ := Command.isMine_iff.mp (List.find?_some h)
    exact ⟨hb, hi, hr⟩
  · cases h

theorem State.onCommand_none (h : s.command? b i op = none) (f : State → Command → State) : s.onCommand b i op f = s := by
  rw [State.onCommand, h]

theorem State.onCommand_some {c : Command} (h : s.command? b i op = some c) (f : State → Command → State) :
    s.onCommand b i op f = f (s.startCommand c) { c with started := true } := by
  rw [State.onCommand, h]

theorem exec_command_none (h : s.command? b i op = none) :
    (op = 1 → exec (.destroyq b i) s = .next s) ∧ (op = 2 → exec (.abort b i) s = .next s) ∧
    (op = 3 → exec (.save b i) s = .next s) ∧ (op = 4 → exec (.migout b i) s = .next s) ∧
    (op = 5 → exec (.migin b i) s = .next s) ∧ (op = 6 → exec (.stubret b i) s = .next s) ∧
    (op = 7 → exec (.pgmig b i) s = .next s) ∧ (op = 8 → exec (.pstable b i) s = .next s) ∧
    (op = 9 → exec (.psreg b i) s = .next s) ∧ (op = 10 → exec (.prring b i) s = .next s) ∧
    (op = 11 → exec (.errcnt b i) s = .next s) ∧ (op = 12 → exec (.compat b i) s = .next s) := by
  refine ⟨?_, ?_, ?_, ?_, ?_, ?_, ?_, ?_, ?_, ?_, ?_, ?_⟩ <;> (rintro rfl; exact congrArg _ (State.onCommand_none h _))

end due

/-! ## A completion (R47 step 3) -/

section completion
variable {c : Command} {st : Nat} {v : Dword}

theorem State.doneSignal_none {block : Nat} (h : s.rdNat (mbBlock block + 8) 8 = 0) : s.doneSignal block = s := by
  simp only [State.doneSignal, h, if_true]

/-- STATUS, VALUE and DONE of a slot. -/
def State.putResult (s : State) (a st : Nat) (v : Dword) : State :=
  ((s.wrNat (a + 4) 4 st).wrNat (a + 0x30) 8 v.toNat).wr (a + 2) [3]

/-- A completion in memory and among the commands, before DONESIG. -/
def State.complete (s : State) (c : Command) (st : Nat) (v : Dword) : State :=
  let t := State.putResult { s with commands := s.commands.erase c } (mbSlot c.block c.slot) st v
  t.wrNat (mbBlock c.block + 4) 4 (t.rdNat (mbBlock c.block + 4) 4 + 1)

theorem exec_mailboxCompletion (hs : s.leads = true) (hc : c.result = some (st, v))
    (hf : s.commands.find? (fun k => k.block == c.block && k.slot == c.slot && k.result.isSome) = some c) :
    exec (.mailboxCompletion c.block c.slot) s = .next ((s.complete c st v).doneSignal c.block) := by
  simp only [exec, execMailboxCompletion, hs, hf, hc, Bool.not_true, Bool.false_eq_true, if_false, Option.getD_some,
    State.complete, State.putResult]

section putResult
variable (hm : Memory.wf s.mem = true) {a : Nat}
include hm

theorem State.putResult_wf : Memory.wf (s.putResult a st v).mem = true :=
  State.wr_wf _ _ (State.wrNat_wf _ _ _ (State.wrNat_wf _ _ _ hm))

theorem State.putResult_status : (s.putResult a st v).rdNat (a + 4) 4 = st % 2 ^ 32 := by
  have h1 := State.wrNat_wf (a + 4) 4 st hm
  rw [State.putResult, State.rdNat_wr_outside (State.wrNat_wf _ _ _ h1) (by simp only [List.length_singleton]; omega),
    State.rdNat_wrNat_disjoint h1 _ (by omega), State.rdNat_wrNat hm]
  rfl

theorem State.putResult_value : (s.putResult a st v).rdNat (a + 0x30) 8 = v.toNat := by
  have h1 := State.wrNat_wf (a + 4) 4 st hm
  rw [State.putResult, State.rdNat_wr_outside (State.wrNat_wf _ _ _ h1) (by simp only [List.length_singleton]; omega),
    State.rdNat_wrNat h1]
  exact Nat.mod_eq_of_lt v.isLt

theorem State.putResult_done : (s.putResult a st v).rdNat (a + 2) 1 = 3 :=
  State.rdNat_wr_byte (State.wrNat_wf _ _ _ (State.wrNat_wf _ _ _ hm)) ..

theorem State.putResult_outside {y : Nat} (h2 : y ≠ a + 2) (h4 : y < a + 4 ∨ a + 8 ≤ y) (h30 : y < a + 0x30 ∨ a + 0x38 ≤ y) :
    Memory.get (s.putResult a st v).mem y = Memory.get s.mem y := by
  have h1 := State.wrNat_wf (a + 4) 4 st hm
  rw [State.putResult, Memory.get_wr_outside (State.wrNat_wf _ _ _ h1) (by simp only [List.length_singleton]; omega), State.wrNat,
    Memory.get_wr_outside h1 (by rw [leBytes_length]; omega), State.wrNat,
    Memory.get_wr_outside hm (by rw [leBytes_length]; omega)]

theorem State.rdNat_putResult {c k : Nat} (h : c + k ≤ a) : (s.putResult a st v).rdNat c k = s.rdNat c k :=
  congrArg leNat (Memory.getAll_congr fun j hj => State.putResult_outside hm (by omega) (by omega) (by omega))

end putResult

theorem State.complete_spec (hm : Memory.wf s.mem = true) :
    let a := mbSlot c.block c.slot
    let t := s.complete c st v
    t.rdNat (a + 4) 4 = st % 2 ^ 32 ∧ t.rdNat (a + 0x30) 8 = v.toNat ∧ t.rdNat (a + 2) 1 = 3 ∧
      t.rdNat (mbBlock c.block + 4) 4 = (s.rdNat (mbBlock c.block + 4) 4 + 1) % 2 ^ 32 ∧
      t.rdNat (mbBlock c.block + 8) 8 = s.rdNat (mbBlock c.block + 8) 8 ∧
      ∀ y, y ≠ a + 2 → (y < a + 4 ∨ a + 8 ≤ y) → (y < a + 0x30 ∨ a + 0x38 ≤ y) →
        (y < mbBlock c.block + 4 ∨ mbBlock c.block + 8 ≤ y) → Memory.get t.mem y = Memory.get s.mem y := by
  have ha : mbBlock c.block + 0x40 ≤ mbSlot c.block c.slot := by unfold mbSlot; omega
  dsimp only
  unfold State.complete
  dsimp only
  generalize mbSlot c.block c.slot = a at ha ⊢
  generalize mbBlock c.block = m at ha ⊢
  let z : State := { s with commands := s.commands.erase c }
  have hz : Memory.wf z.mem = true := hm
  have hp : Memory.wf (z.putResult a st v).mem = true := State.putResult_wf hz
  have hc : z.putResult a st v = State.putResult { s with commands := s.commands.erase c } a st v := rfl
  rw [← hc]
  refine ⟨?_, ?_, ?_, ?_, ?_, fun y h2 h4 h30 hcount => ?_⟩
  · rw [State.rdNat_wrNat_disjoint hp _ (by omega), State.putResult_status hz]
  · rw [State.rdNat_wrNat_disjoint hp _ (by omega), State.putResult_value hz]
  · rw [State.rdNat_wrNat_disjoint hp _ (by omega), State.putResult_done hz]
  · rw [State.rdNat_wrNat hp, State.rdNat_putResult hz (by omega)]
    rfl
  · rw [State.rdNat_wrNat_disjoint hp _ (by omega), State.rdNat_putResult hz (by omega)]
    rfl
  · rw [State.wrNat, Memory.get_wr_outside hp (by rw [leBytes_length]; omega), State.putResult_outside hz h2 h4 h30]

theorem State.complete_commands (s : State) (c : Command) (st : Nat) (v : Dword) :
    (s.complete c st v).commands = s.commands.erase c := by
  simp only [State.complete, State.putResult, State.wrNat, State.wr_commands]

end completion

end Sys2Proof.Machine
end

section
/-! # O59: the commands that end at once (R66, R89, R219, R234, R354, R355, R383) -/

namespace Sys2Proof.Machine
variable {s t u z : State} {b i : Nat} {c : Command}

/-! ## Fields of a read (R55, R234) -/

theorem Memory.getAll_slice (m : List Host.Cell) (a : Nat) {o n k : Nat} (h : o + n ≤ k) :
    ((Memory.getAll m a k).drop o).take n = Memory.getAll m (a + o) n := by
  refine List.ext_getElem? fun j => ?_
  by_cases hj : j < n
  · rw [List.getElem?_take_of_lt hj, List.getElem?_drop, Memory.getAll_getElem? _ _ _ _ (by omega),
      Memory.getAll_getElem? _ _ _ _ hj, Nat.add_assoc]
  · rw [List.getElem?_eq_none (by rw [List.length_take]; omega), List.getElem?_eq_none (by rw [Memory.getAll_length]; omega)]

theorem State.field_rd (s : State) (a : Nat) {o n k : Nat} (h : o + n ≤ k) : field (s.rd a k) o n = s.rdNat (a + o) n :=
  congrArg leNat (Memory.getAll_slice s.mem a h)

/-! ## Registered sets (R234) -/

section register
variable {vf id h : Nat}

/-- The device once a set is registered, its entry at a home. -/
def State.registered (s : State) (vf id h : Nat) : State :=
  (s.modVf vf fun v => { v with psets := v.psets ++ [psetOf id h (s.rd h 64)] }).modSet vf (psetOf id h (s.rd h 64))

theorem State.registerSet_known (hp : (s.pset? vf id).isSome = true) : s.registerSet vf id = (s, 11) := if_pos hp

theorem State.registerSet_bad (hp : s.pset? vf id = none)
    (hg : s.gpaHome vf ((s.vf vf).pstable.1 + 64 * id) true = (u, some h)) (hb : psetBad (u.rd h 64) = true) :
    s.registerSet vf id = (u, 11) := by
  rw [State.registerSet, if_neg (by simp [hp]), hg]
  exact if_pos hb

theorem State.registerSet_good (hp : s.pset? vf id = none)
    (hg : s.gpaHome vf ((s.vf vf).pstable.1 + 64 * id) true = (u, some h)) (hb : psetBad (u.rd h 64) = false) :
    s.registerSet vf id = (u.registered vf id h, 0) := by
  rw [State.registerSet, if_neg (by simp [hp]), hg]
  exact if_neg (by simp [hb])

theorem State.registered_pset? (hp : s.pset? vf id = none) :
    (s.registered vf id h).pset? vf id = some (psetOf id h (s.rd h 64)) := by
  have hvf : ((s.registered vf id h).vf vf).psets = ((s.vf vf).psets ++ [psetOf id h (s.rd h 64)]).map
      fun q => if q.id = id then psetOf id h (s.rd h 64) else q := by
    have hmod : (s.registered vf id h).vf vf = ((s.modVf vf fun v => { v with psets := v.psets ++ [psetOf id h (s.rd h 64)] }).modVf
        vf fun v => { v with psets := v.psets.map fun q => if q.id = id then psetOf id h (s.rd h 64) else q }).vf vf := rfl
    rw [hmod, State.vf_modVf, if_pos rfl, State.vf_modVf, if_pos rfl]
  have hpred : ((fun p : PSet => p.id == id) ∘ fun q => if q.id = id then psetOf id h (s.rd h 64) else q) = fun p => p.id == id := by
    funext q
    by_cases hq : q.id = id <;> simp [hq, psetOf]
  have hold : (s.vf vf).psets.find? (fun p => p.id == id) = none := hp
  rw [State.pset?, hvf, List.find?_map, hpred, List.find?_append, hold]
  simp [psetOf]

theorem State.registered_reads (hm : Memory.wf s.mem = true) :
    (s.registered vf id h).rdNat (h + 0x12) 2 = 0 ∧ (s.registered vf id h).rdNat (h + 0x18) 8 = 0 ∧
      ∀ x, x < h + 0x12 ∨ h + 0x20 ≤ x → Memory.get (s.registered vf id h).mem x = Memory.get s.mem x := by
  obtain ⟨y, hy, hreg⟩ : ∃ y : State, y.mem = s.mem ∧ ∃ r, s.registered vf id h =
      ((y.wr (h + 0x12) [0, 0]).wrNat (h + 0x14) 4 r).wrNat (h + 0x18) 8 0 :=
    ⟨(s.modVf vf fun v => { v with psets := v.psets ++ [psetOf id h (s.rd h 64)] }).modVf vf fun v => { v with
      psets := v.psets.map fun q => if q.id = (psetOf id h (s.rd h 64)).id then psetOf id h (s.rd h 64) else q }, rfl, _, rfl⟩
  obtain ⟨r, hreg⟩ := hreg
  have hym : Memory.wf y.mem = true := hy ▸ hm
  have h1 := State.wr_wf (h + 0x12) [0, 0] hym
  have h2 := State.wrNat_wf (h + 0x14) 4 r h1
  rw [hreg]
  refine ⟨?_, State.rdNat_wrNat h2 _ _ _, fun x hx => ?_⟩
  · rw [State.rdNat_wrNat_disjoint h2 _ (by omega), State.rdNat_wrNat_disjoint h1 _ (by omega), State.rdNat]
    have hsame := State.rd_wr_same hym (h + 0x12) [0, 0]
    rw [List.length_cons, List.length_singleton] at hsame
    rw [hsame]
    rfl
  · rw [State.wrNat, Memory.get_wr_outside h2 (by rw [leBytes_length]; omega), State.wrNat,
      Memory.get_wr_outside h1 (by rw [leBytes_length]; omega),
      Memory.get_wr_outside hym (by simp only [List.length_cons, List.length_nil]; omega), hy]

theorem State.psetOf_rd (s : State) (id h : Nat) : let p := psetOf id h (s.rd h 64)
    p.base = s.rdNat h 8 ∧ p.length = s.rdNat (h + 8) 8 ∧ p.nslot = s.rdNat (h + 0x11) 1 ∧
      p.refused.toNat = s.rdNat (h + 0x14) 4 := by
  refine ⟨s.field_rd h (o := 0) (by omega), s.field_rd h (by omega), s.field_rd h (by omega), ?_⟩
  have hlt := s.rdNat_lt (h + 0x14) 4
  simp only [psetOf]
  rw [s.field_rd h (by omega), BitVec.toNat_ofNat]
  exact Nat.mod_eq_of_lt hlt

/-- Registering a set whose entry is found: REFUSED where the entry breaks the limits, else the set as the entry has it with CUR,
PINNED and GEN zero (R234). -/
theorem State.registerSet_spec (hm : Memory.wf s.mem = true) (hp : s.pset? vf id = none)
    (hg : s.gpaHome vf ((s.vf vf).pstable.1 + 64 * id) true = (u, some h)) (hb : psetBad (u.rd h 64) = false) :
    ∃ p w, s.registerSet vf id = (w, 0) ∧ w.pset? vf id = some p ∧ p.entry = h ∧ p.cur = 0 ∧ p.pinned = 0 ∧ p.gen = 0 ∧
      p.base = u.rdNat h 8 ∧ p.length = u.rdNat (h + 8) 8 ∧ p.nslot = u.rdNat (h + 0x11) 1 ∧
      p.refused.toNat = u.rdNat (h + 0x14) 4 ∧ w.rdNat (h + 0x12) 2 = 0 ∧ w.rdNat (h + 0x18) 8 = 0 ∧
      ∀ x, x < h + 0x12 ∨ h + 0x20 ≤ x → Memory.get w.mem x = Memory.get u.mem x := by
  have hum : Memory.wf u.mem = true := wf_of_eq hg (State.gpaHome_wf _ _ _ hm)
  have hup : u.pset? vf id = none := by
    rw [State.pset?, (State.Walks.of_eq hg (State.Walks.gpaHome ..)).accesses.vf]
    exact hp
  obtain ⟨hbase, hlen, hn, href⟩ := u.psetOf_rd id h
  exact ⟨_, _, State.registerSet_good hp hg hb, State.registered_pset? hup, rfl, rfl, rfl, rfl, hbase, hlen, hn, href,
    State.registered_reads hum⟩

end register

/-! ## A queue is destroyed (R66) -/

section destroy
variable {vf gpa a x : Nat} {q : Queue}

theorem State.gpaHome_sees {w : Bool} (h : s.gpaHome vf gpa w = (t, some a)) : t.portSees (ctrlPort t.leaderDie) a = true := by
  have hacc := (State.Walks.of_eq h (State.Walks.gpaHome s vf gpa w)).accesses
  rw [hacc.leaderDie, hacc.portSees]
  unfold State.gpaHome at h
  dsimp only at h
  split at h
  · cases h
  · rename_i hstage
    have hu := (State.Walks.of_eq hstage ((State.Walks.refl (ctrlPort s.leaderDie) s).stage2 vf gpa)).accesses
    split at h
    · cases h
    · split at h
      · cases h
      · rename_i hno
        simp only [Prod.mk.injEq, Option.some.injEq] at h
        obtain ⟨-, rfl⟩ := h
        rw [← hu.portSees]
        exact State.portSees_of_not_refused hno

theorem State.walkQueue_sees {pasid qno : Nat} (h : s.walkQueue vf pasid qno = (t, .found a x)) :
    t.portSees (ctrlPort t.leaderDie) x = true := by
  unfold State.walkQueue at h
  dsimp only at h
  split at h
  · cases h
  split at h
  · cases h
  split at h
  · cases h
  split at h
  · cases h
  split at h
  · cases h
  · rename_i hg
    split at h
    · cases h
    split at h
    · cases h
    · simp only [Prod.mk.injEq, Walk.found.injEq] at h
      obtain ⟨rfl, -, rfl⟩ := h
      exact State.gpaHome_sees hg

theorem State.knowQueue_known {pasid qno : Nat} (h : s.queues.find? (fun k => k.vf == vf && k.qcb == x) = some q) :
    s.knowQueue vf pasid qno x = s := by
  refine if_pos (List.any_eq_true.mpr ⟨q, List.mem_of_find?_eq_some h, ?_⟩)
  exact List.find?_some (p := fun k : Queue => k.vf == vf && k.qcb == x) h

theorem State.destroy_busy (h0 : c.arg 2 = 0) (hb : s.busyQueue q = true) :
    s.destroy c q = s.endCommand c.block c.slot 1 0 := by
  rw [State.destroy, if_pos h0, if_pos hb]

theorem State.destroy_idle (h0 : c.arg 2 = 0) (hb : s.busyQueue q = false) : s.destroy c q =
    ((s.wrNat q.qcb 1 (s.rdNat q.qcb 1 / 2 * 2)).endCommand c.block c.slot 0 0).dropQueues fun k => k.id == q.id := by
  rw [State.destroy, if_pos h0, if_neg (by simp [hb])]

/-- No command of the slot stays TAKEN behind its end (R47). -/
theorem State.mem_endCommand {st : Nat} {y : Dword} {k : Command} (hk : k ∈ (s.endCommand b i st y).commands) (hb : k.block = b)
    (hi : k.slot = i) : k.result ≠ none := by
  obtain ⟨j, -, rfl⟩ := List.mem_map.mp hk
  split
  · simp
  · rename_i hj
    rw [if_neg hj] at hb hi
    exact fun hr => hj ⟨hb, hi, hr⟩

/-- An idle queue is destroyed at once: V of its QCB is 0, and it is known no more (R66). -/
theorem State.destroy_destroys (hm : Memory.wf s.mem = true) (h0 : c.arg 2 = 0) (hb : s.busyQueue q = false) :
    (s.destroy c q).queues = s.queues.filter (fun k => k.id != q.id) ∧ ((s.destroy c q).rdNat q.qcb 1).testBit 0 = false ∧
      (∀ y, y ≠ q.qcb → Memory.get (s.destroy c q).mem y = Memory.get s.mem y) ∧
      ∀ k ∈ (s.destroy c q).commands, k.block = c.block → k.slot = c.slot → k.result ≠ none := by
  rw [State.destroy_idle h0 hb]
  refine ⟨rfl, ?_, fun y hy => ?_, fun k hk hkb hks => ?_⟩
  · rw [State.rdNat_congr (State.dropQueues_mem ..), State.rdNat_congr (State.endCommand_mem ..), State.rdNat_wrNat hm,
      Nat.testBit_zero]
    simp
  · rw [State.dropQueues_mem, State.endCommand_mem, State.wrNat, Memory.get_wr_outside hm (by rw [leBytes_length]; omega)]
  · exact State.mem_endCommand hk hkb hks

theorem State.Accesses.commands (h : s.Accesses t) : t.commands = s.commands := by
  obtain ⟨_, _, _, _, rfl⟩ := h
  rfl

/-- A queue with one more command that waits for it to drain. -/
def Queue.forced (c : Command) (q : Queue) : Queue := { q with force := q.force ++ [(c.block, c.slot)] }

/-- A queue with FORCE drains (R66). -/
def State.drains (s : State) (c : Command) (q : Queue) : State :=
  let s := s.modVf q.vf fun v => { v with deferred := v.deferred.filter (· != q.id) }
  let s := if s.qstate q = qError then s else s.setQstate q qDraining
  s.modQueue q.id (Queue.forced c)

theorem State.destroy_force (h0 : c.arg 2 ≠ 0) : s.destroy c q = (s.drains c q).settleQueue q.id := if_neg h0

theorem State.settleQueue_pending {id : Nat} (h : s.queue? id = some q) (hp : ∃ p ∈ q.packets, p.done = false) :
    s.settleQueue id = s := by
  have hall : q.packets.all Packet.done = false := by
    obtain ⟨p, hp, hd⟩ := hp
    exact List.all_eq_false.mpr ⟨p, hp, by simp [hd]⟩
  rw [State.settleQueue, h]
  simp [hall]

/-- The queue before it drains, or with its STATE written: with no deferred queue nothing else happens (R59). -/
theorem State.drains_eq (hseen : s.qcbSeen q = true) (hd : (s.vf q.vf).deferred = []) :
    ∃ r : State, r.queues = s.queues ∧ r.commands = s.commands ∧
      (r.mem = s.mem ∧ s.qcb q 1 1 = 3 ∨ r.mem = (s.wr (q.qcb + 1) [2]).mem) ∧
      s.drains c q = r.modQueue q.id (Queue.forced c) := by
  have hd' : ((s.modVf q.vf fun v => { v with deferred := v.deferred.filter (· != q.id) }).vf q.vf).deferred = [] := by
    rw [State.vf_modVf, if_pos rfl, hd]
    rfl
  have hseen' : (s.modVf q.vf fun v => { v with deferred := v.deferred.filter (· != q.id) }).qcbSeen q = true := by
    unfold State.qcbSeen at hseen ⊢
    refine (State.portSees_modVf ?_ _ _).trans hseen
    exact fun _ => rfl
  have hmem : (s.modVf q.vf fun v => { v with deferred := v.deferred.filter (· != q.id) }).mem = s.mem := rfl
  have hq : (s.modVf q.vf fun v => { v with deferred := v.deferred.filter (· != q.id) }).queues = s.queues := rfl
  have hc : (s.modVf q.vf fun v => { v with deferred := v.deferred.filter (· != q.id) }).commands = s.commands := rfl
  unfold State.drains
  dsimp only
  generalize (s.modVf q.vf fun v => { v with deferred := v.deferred.filter (· != q.id) }) = r at *
  have hst : r.qstate q = s.qcb q 1 1 := State.rdNat_congr hmem ..
  by_cases h3 : r.qstate q = qError
  · exact ⟨r, hq, hc, .inl ⟨hmem, hst.symm.trans h3⟩, by rw [if_pos h3]⟩
  · refine ⟨r.wr (q.qcb + 1) [2], hq, hc, .inr ?_, ?_⟩
    · rw [State.wr_mem, State.wr_mem, hmem]
    · rw [if_neg h3, State.setQstate_eq hseen' hd']
      rfl

theorem queue?_of_unique (hq : q ∈ s.queues) (hu : ∀ k ∈ s.queues, k.id = q.id → k = q) : s.queue? q.id = some q := by
  unfold State.queue?
  cases hf : s.queues.find? fun k => k.id == q.id with
  | none => exact absurd (List.find?_eq_none.mp hf q hq) (by simp)
  | some k => rw [hu k (List.mem_of_find?_eq_some hf) (by simpa using List.find?_some hf)]

/-- A queue with packets that have not completed stays, DRAINING unless it is in error (R66). -/
theorem State.destroy_drains (hm : Memory.wf s.mem = true) (h0 : c.arg 2 ≠ 0) (hq : q ∈ s.queues)
    (hp : ∃ p ∈ q.packets, p.done = false)
    (hseen : s.qcbSeen q = true) (hd : (s.vf q.vf).deferred = []) (hu : ∀ k ∈ s.queues, k.id = q.id → k = q) :
    (s.destroy c q).queue? q.id = some (q.forced c) ∧
      (s.destroy c q).commands = s.commands ∧ (s.qcb q 1 1 ≠ 3 → (s.destroy c q).qcb q 1 1 = 2) := by
  obtain ⟨r, hrq, hrc, hrm, hdrains⟩ := s.drains_eq (c := c) hseen hd
  have hfind : r.queue? q.id = some q := by rw [State.queue?, hrq, ← State.queue?, queue?_of_unique hq hu]
  have hmod : (s.drains c q).queue? q.id = some (q.forced c) := by
    rw [hdrains, State.queue?_modQueue (f := Queue.forced c) fun _ => rfl, hfind]
    rfl
  rw [State.destroy_force h0, State.settleQueue_pending hmod hp]
  refine ⟨hmod, by rw [hdrains, State.modQueue_commands, hrc], fun h3 => ?_⟩
  rw [hdrains, State.qcb, State.rdNat_congr (State.modQueue_mem ..)]
  obtain ⟨-, he⟩ | hwr := hrm
  · exact absurd he h3
  · rw [State.rdNat_congr hwr, State.rdNat_wr_byte hm]
    rfl

end destroy

/-! ## The commands -/

section commands

theorem exec_stubret (h : z.command? b i 6 = some c) : exec (.stubret b i) z = .next (((z.startCommand c).modVf c.vf
    fun v => { v with forwarding := false, frameMap := [], stub := [] }).endCommand b i 0 0) :=
  congrArg _ (State.onCommand_some h _)

theorem exec_pstable (h : z.command? b i 8 = some c) : exec (.pstable b i) z = .next (((z.startCommand c).modVf c.vf
    fun v => { v with pstable := (c.arg 0, c.arg 1) }).endCommand b i 0 0) :=
  congrArg _ (State.onCommand_some h _)

theorem exec_psreg (h : z.command? b i 9 = some c) : exec (.psreg b i) z = .next (
    if ((z.startCommand c).vf c.vf).pstable.2 ≤ c.arg 0 then (z.startCommand c).endCommand b i 5 0
    else if c.arg 1 = 1 then
      ((z.startCommand c).registerSet c.vf (c.arg 0)).1.endCommand b i ((z.startCommand c).registerSet c.vf (c.arg 0)).2 0
    else if ((z.startCommand c).pset? c.vf (c.arg 0)).isNone then (z.startCommand c).endCommand b i 5 0
    else ((z.startCommand c).modVf c.vf fun v => { v with psets := v.psets.filter fun p => p.id != c.arg 0 }).endCommand b i 0 0) :=
  congrArg _ (State.onCommand_some h _)

theorem exec_prring (h : z.command? b i 10 = some c) : exec (.prring b i) z = .next (
    if ((z.startCommand c).vf c.vf).rings.any fun r => r.asid == BitVec.ofNat 16 (c.arg 0)
    then (z.startCommand c).endCommand b i 11 0
    else ((z.startCommand c).modVf c.vf fun v => { v with rings := v.rings ++ [{
      asid := BitVec.ofNat 16 (c.arg 0), req := c.arg 1, comp := c.arg 2, logReq := c.arg 3 % 32
      logComp := c.arg 3 / 256 % 32 }] }).endCommand b i 0 0) :=
  congrArg _ (State.onCommand_some h _)

theorem exec_errcnt (h : z.command? b i 11 = some c) : exec (.errcnt b i) z = .next (
    if !unitOk (c.arg 0) (c.arg 1) (c.arg 2) then (z.startCommand c).endCommand b i 5 0
    else
      let e := (z.startCommand c).errorsOf (c.arg 0) (c.arg 1) (c.arg 2)
      (z.startCommand c).endCommand b i 0
        (BitVec.ofNat 64 (e.1 % 2 ^ 31 + (if e.2.2 then 2 ^ 31 else 0) + e.2.1 % 2 ^ 32 * 2 ^ 32))) :=
  congrArg _ (State.onCommand_some h _)

theorem exec_compat (h : z.command? b i 12 = some c) :
    exec (.compat b i) z = .next ((z.startCommand c).endCommand b i 0 (z.startCommand c).key) :=
  congrArg _ (State.onCommand_some h _)

theorem exec_abort_none (h : z.command? b i 2 = some c) (hn : (z.startCommand c).namedHaul c = none) :
    exec (.abort b i) z = .next ((z.startCommand c).endCommand b i 5 0) := by
  have hn' : (z.startCommand c).namedHaul { c with started := true } = none := hn
  simp only [exec, execAbort, State.onCommand_some h, hn']

theorem exec_abort_named (h : z.command? b i 2 = some c) {k : Haul} (hn : (z.startCommand c).namedHaul c = some k) :
    exec (.abort b i) z = .next (((z.startCommand c).stopHaul k.id 5 0 0).endCommand b i 0 0) := by
  have hn' : (z.startCommand c).namedHaul { c with started := true } = some k := hn
  simp only [exec, execAbort, State.onCommand_some h, hn']

section destroyq
variable (h : z.command? b i 1 = some c)
include h

theorem exec_destroyq_dropped (hw : (z.startCommand c).walkQueue c.vf (c.arg 0) (c.arg 1) = (u, .drop)) :
    exec (.destroyq b i) z = .next (u.endCommand b i 5 0) := by
  have hw' : (z.startCommand c).walkQueue c.vf (Command.arg { c with started := true } 0) (Command.arg { c with started := true } 1) =
    (u, .drop) := hw
  simp only [exec, execDestroyq, State.onCommand_some h, hw']

theorem exec_destroyq_held {e : Nat} (hw : (z.startCommand c).walkQueue c.vf (c.arg 0) (c.arg 1) = (u, .hold e)) :
    exec (.destroyq b i) z = .next (u.endCommand b i 5 0) := by
  have hw' : (z.startCommand c).walkQueue c.vf (Command.arg { c with started := true } 0) (Command.arg { c with started := true } 1) =
    (u, .hold e) := hw
  simp only [exec, execDestroyq, State.onCommand_some h, hw']

theorem exec_destroyq_found {a x : Nat} {q : Queue}
    (hw : (z.startCommand c).walkQueue c.vf (c.arg 0) (c.arg 1) = (u, .found a x))
    (hq : u.queues.find? (fun k => k.vf == c.vf && k.qcb == x) = some q) (hf : (b, i) ∉ q.force) :
    exec (.destroyq b i) z = .next (u.destroy c q) := by
  have hw' : (z.startCommand c).walkQueue c.vf (Command.arg { c with started := true } 0) (Command.arg { c with started := true } 1) =
    (u, .found a x) := hw
  have hforce : ¬ (q.force.contains (b, i)) = true := by simpa using hf
  simp only [exec, execDestroyq, State.onCommand_some h, hw', State.knowQueue_known hq, hq]
  rw [if_neg hforce]
  rfl

end destroyq

/-- A haul that is stopped and had not ended ends so. -/
theorem State.stopHaul_ends {k : Haul} (hk : k ∈ s.hauls) (he : k.ended = none) (st : Nat) (d : Word) (f : Dword) :
    { k with ended := some (st, d, f) } ∈ (s.stopHaul k.id st d f).hauls := by
  rw [State.stopHaul_hauls]
  refine List.mem_map.mpr ⟨k, hk, ?_⟩
  rw [if_pos rfl, he]
  rfl

theorem State.namedHaul_spec {k : Haul} (h : s.namedHaul c = some k) : k ∈ s.hauls ∧ k.retired = false ∧ k.ended = none := by
  have hp := List.find?_some h
  simp only [Bool.and_eq_true, Bool.not_eq_true', Option.isNone_iff_eq_none] at hp
  exact ⟨List.mem_of_find?_eq_some h, hp.1.2, hp.2⟩

end commands

end Sys2Proof.Machine
end

section
/-! # O59: the commands that save and move (R39, R309, R350, R352, R354, R355) -/

namespace Sys2Proof.Machine
variable {s t u z : State} {b i : Nat} {c : Command}

/-! ## Requests and tiles (R350, R365) -/

/-- What requests and the tiles of complete tickets leave alone. -/
def State.ledger (s : State) : List Host.Cell × List Command × List Haul × List (Nat × Vf) × List Rake × List Queue × Device :=
  (s.mem, s.commands, s.hauls, s.vfs, s.rakes, s.queues, s.dev)

section ledger
variable (h : t.ledger = s.ledger)
include h

theorem State.mem_of_ledger : t.mem = s.mem := congrArg (·.1) h
theorem State.commands_of_ledger : t.commands = s.commands := congrArg (·.2.1) h
theorem State.hauls_of_ledger : t.hauls = s.hauls := congrArg (·.2.2.1) h
theorem State.vfs_of_ledger : t.vfs = s.vfs := congrArg (·.2.2.2.1) h
theorem State.rakes_of_ledger : t.rakes = s.rakes := congrArg (·.2.2.2.2.1) h
theorem State.vf_of_ledger (n : Nat) : t.vf n = s.vf n := congrArg (tget (vfReset n) · n) (State.vfs_of_ledger h)

end ledger

theorem State.requestWhere_ledger (s : State) (f : Rake → Bool) : (s.requestWhere f).ledger = s.ledger :=
  foldl_frame (g := State.ledger) (f := fun s (r : Rake) => s.requestRake r.haul r.rake) (fun _ _ => rfl) _ s

theorem State.requestWhere_pends {f : Rake → Bool} {r : Rake} (hr : r ∈ s.rakes) (hf : f r = true) :
    (s.requestWhere f).Pends r.haul r.rake :=
  State.foldl_requestRake_pends _ s (.inl (List.mem_filter.mpr ⟨hr, hf⟩))

theorem State.writeTiles_frame (s : State) (cs : List Coach) :
    ((s.writeTiles cs).ledger, (s.writeTiles cs).allCoaches) = (s.ledger, s.allCoaches) := by
  refine foldl_frame (g := fun s : State => (s.ledger, s.allCoaches)) (fun s t => ?_) _ s
  split
  · rfl
  · split <;> rfl

theorem State.writeSaved_frame (s : State) (h : Haul) :
    ((s.writeSaved h).ledger, (s.writeSaved h).allCoaches) = (s.ledger, s.allCoaches) := s.writeTiles_frame _

theorem State.writeSaved_ledger (s : State) (h : Haul) : (s.writeSaved h).ledger = s.ledger := congrArg (·.1) (s.writeSaved_frame h)

theorem State.writeSaved_allCoaches (s : State) (h : Haul) : (s.writeSaved h).allCoaches = s.allCoaches :=
  congrArg (·.2) (s.writeSaved_frame h)

theorem State.writeMine_frame (s : State) (vf : Nat) :
    ((s.writeMine vf).ledger, (s.writeMine vf).allCoaches) = (s.ledger, s.allCoaches) :=
  foldl_frame (g := fun s : State => (s.ledger, s.allCoaches)) State.writeSaved_frame _ s

theorem State.writeMine_ledger (s : State) (vf : Nat) : (s.writeMine vf).ledger = s.ledger := congrArg (·.1) (s.writeMine_frame vf)

theorem State.writeMine_allCoaches (s : State) (vf : Nat) : (s.writeMine vf).allCoaches = s.allCoaches :=
  congrArg (·.2) (s.writeMine_frame vf)

/-- A haul with a resident rake is not saved (R352). -/
theorem State.allSaved_resident {h : Haul} {r : Rake} (hr : r ∈ s.rakes) (hh : r.haul = h.id) : s.allSaved h = false := by
  have hany : s.rakes.any (fun r => r.haul == h.id) = true := List.any_eq_true.mpr ⟨r, hr, by simpa using hh⟩
  rw [State.allSaved, hany]
  rfl

/-! ## SAVE (R352) -/

section save
variable {h : Haul}

theorem State.tryDeliver_waits (hs : s.allSaved h = false) : s.tryDeliver c h = s := by
  rw [State.tryDeliver, if_pos (by rw [hs]; rfl)]

theorem State.tryDeliver_error (hs : s.allSaved h = true) (he : s.keptError h = true) : s.tryDeliver c h = s.stopHaul h.id 9 8 0 := by
  rw [State.tryDeliver, if_neg (by rw [hs]; decide), if_pos he]

theorem State.tryDeliver_saved (hs : s.allSaved h = true) (he : s.keptError h = false) : s.tryDeliver c h = s.deliver c h := by
  rw [State.tryDeliver, if_neg (by rw [hs]; decide), if_neg (by rw [he]; decide)]

theorem State.deliver_refused {p : Pieces} (hi : s.savedImage h (c.arg 2) = (u, p)) (hl : c.arg 3 < p.2 - c.arg 2) :
    s.deliver c h = (u.withdraw h.id).endCommand c.block c.slot 6 0 := by
  simp only [State.deliver, hi]
  rw [if_pos hl]

theorem State.deliver_written {p : Pieces} (hi : s.savedImage h (c.arg 2) = (u, p)) (hl : p.2 - c.arg 2 ≤ c.arg 3)
    (hw : State.writePieces (s.haulCtx h) p.1 u = (t, true)) : s.deliver c h =
      ((t.modHaul h.id fun h => { h with saving := none }).stopHaul h.id 8 0 0).endCommand c.block c.slot 0
        (BitVec.ofNat 64 (p.2 - c.arg 2)) := by
  simp only [State.deliver, hi, hw]
  rw [if_neg (by omega)]

theorem State.tryDeliver_started (s : State) (c : Command) (h : Haul) :
    s.tryDeliver { c with started := true } h = s.tryDeliver c h := rfl

section exec
variable (hc : z.command? b i 3 = some c)
include hc

theorem exec_save_saving (hf : (z.startCommand c).hauls.find? (fun h => h.saving == some (b, i)) = some h) :
    exec (.save b i) z = .next (if h.ended.isSome then z.startCommand c
      else ((z.startCommand c).writeSaved h).tryDeliver c h) := by
  simp only [exec, execSave, State.onCommand_some hc, hf, State.tryDeliver_started]

theorem exec_save_none (hf : (z.startCommand c).hauls.find? (fun h => h.saving == some (b, i)) = none)
    (hn : (z.startCommand c).namedHaul c = none) : exec (.save b i) z = .next ((z.startCommand c).endCommand b i 5 0) := by
  have hn' : (z.startCommand c).namedHaul { c with started := true } = none := hn
  simp only [exec, execSave, State.onCommand_some hc, hf, hn']

theorem exec_save_named (hf : (z.startCommand c).hauls.find? (fun h => h.saving == some (b, i)) = none)
    (hn : (z.startCommand c).namedHaul c = some h) : exec (.save b i) z = .next (
      if h.saving.isSome then (z.startCommand c).endCommand b i 5 0
      else ((((z.startCommand c).modHaul h.id fun h => { h with saving := some (b, i) }).requestWhere fun r => r.haul == h.id).writeSaved
        h).tryDeliver c h) := by
  have hn' : (z.startCommand c).namedHaul { c with started := true } = some h := hn
  simp only [exec, execSave, State.onCommand_some hc, hf, hn', State.tryDeliver_started]

end exec

/-- The device once the rakes of a haul are requested for a save (R350, R352). -/
def State.requested (s : State) (h : Haul) (k : Nat × Nat) : State :=
  ((s.modHaul h.id fun h => { h with saving := some k }).requestWhere fun r => r.haul == h.id).writeSaved h

theorem State.requested_ledger (s : State) (h : Haul) (k : Nat × Nat) :
    (s.requested h k).ledger = (s.modHaul h.id fun h => { h with saving := some k }).ledger :=
  (State.writeSaved_ledger ..).trans (State.requestWhere_ledger ..)

theorem State.requested_pends {r : Rake} (hr : r ∈ s.rakes) (hh : r.haul = h.id) (k : Nat × Nat) :
    (s.requested h k).Pends r.haul r.rake := by
  have hp := State.requestWhere_pends (s := s.modHaul h.id fun h => { h with saving := some k }) (f := fun r => r.haul == h.id) hr
    (by simpa using hh)
  unfold State.Pends at hp ⊢
  rw [State.requested, State.writeSaved_allCoaches]
  exact hp

theorem State.mem_modHaul {id : Nat} {f : Haul → Haul} {k : Haul} (hk : k ∈ (s.modHaul id f).hauls)
    (hid : k.id = id) : ∃ j ∈ s.hauls, k = f j := by
  obtain ⟨j, hj, rfl⟩ := List.mem_map.mp hk
  by_cases h : j.id = id
  · rw [if_pos h]
    exact ⟨j, hj, rfl⟩
  · rw [if_neg h] at hid
    exact absurd hid h

theorem State.withdraw_saving {id : Nat} {k : Haul} (hk : k ∈ (s.withdraw id).hauls) (hid : k.id = id) : k.saving = none := by
  obtain ⟨j, -, rfl⟩ := State.mem_modHaul hk hid
  rfl

/-! What writing an image leaves alone. -/

theorem tileOf_accesses (h : Haul) (k : Ticket) (ha : s.Accesses t) : s.Accesses (t.tileOf h k).1 := by
  have hr (x : Ctx) (a n : Nat) : s.Accesses (t.readVa x a n).1 := ha.readSpans _ _
  unfold State.tileOf
  split
  · unfold State.tileAt
    dsimp only
    split <;> exact State.Accesses.of_eq ‹_› (hr ..)
  · exact ha

theorem layTiles_accesses (h : Haul) (l : List Ticket) (p : Pieces) (ha : s.Accesses t) : s.Accesses (layTiles h l t p).1 := by
  induction l generalizing t p with
  | nil => exact ha
  | cons k l ih =>
    have hk := tileOf_accesses h k ha
    unfold layTiles
    split <;> exact ih _ (State.Accesses.of_eq ‹_› hk)

theorem layCoach_accesses (h : Haul) (v : SavedRake) (k : Coach) (p : Pieces) (ha : s.Accesses t) :
    s.Accesses (layCoach h v k t p).1 := by
  unfold layCoach
  exact layTiles_accesses h _ _ ha

theorem layCoaches_accesses (h : Haul) (v : SavedRake) (l : List Coach) (p : Pieces) (ha : s.Accesses t) :
    s.Accesses (layCoaches h v l t p).1 := by
  induction l generalizing t p with
  | nil => exact ha
  | cons k l ih =>
    have hr := layCoach_accesses h v k p ha
    simp only [layCoaches]
    generalize layCoach h v k t p = r at hr ⊢
    exact ih r.2.1 hr

theorem layRake_accesses (h : Haul) (v : SavedRake) (p : Pieces) (ha : s.Accesses t) : s.Accesses (layRake h v t p).1 := by
  simp [layRake, layCoaches_accesses h v _ _ ha]

theorem layRakes_accesses (h : Haul) (l : List SavedRake) (p : Pieces) (ha : s.Accesses t) : s.Accesses (layRakes h l t p).1 := by
  induction l generalizing t p with
  | nil => exact ha
  | cons v l ih =>
    have hr := layRake_accesses h v p ha
    simp only [layRakes]
    generalize layRake h v t p = r at hr ⊢
    exact ih r.2.1 hr

theorem State.savedImage_accesses (s : State) (h : Haul) (a : Nat) : s.Accesses (s.savedImage h a).1 := by
  unfold State.savedImage
  exact layRakes_accesses h _ _ (.refl s)

theorem State.pokeAll_hauls (s : State) (o : Nat × BitVec 16) (l : List (Nat × Nat)) (b : List Byte) :
    (s.pokeAll o l b).hauls = s.hauls := by
  induction l generalizing s b with
  | nil => rfl
  | cons p l ih =>
    rw [State.pokeAll, ih, State.poke]
    split
    · exact State.wrHostCopy_hauls ..
    · rfl

theorem State.writeVa_hauls (s : State) (x : Ctx) (a : Nat) (b : List Byte) : (s.writeVa x a b).1.hauls = s.hauls := by
  have hw := (State.Walks.writeHomes x (spans a b.length) s).accesses.hauls
  unfold State.writeVa
  split
  · rename_i he
    rw [he] at hw
    exact (State.pokeAll_hauls ..).trans hw
  · rename_i he
    rwa [he] at hw

theorem State.writePieces_hauls (x : Ctx) (l : List (Nat × List Byte)) (s : State) : (State.writePieces x l s).1.hauls = s.hauls := by
  induction l generalizing s with
  | nil => rfl
  | cons p l ih =>
    have hw := s.writeVa_hauls x p.1 p.2
    unfold State.writePieces
    split <;> rename_i he <;> rw [he] at hw
    · exact (ih _).trans hw
    · exact hw

/-- A haul whose image is delivered ends with status SAVED (R352). -/
theorem delivered_ends (hh : h ∈ s.hauls) (he : h.ended = none) :
    ∃ k ∈ ((s.modHaul h.id fun h => { h with saving := none }).stopHaul h.id 8 0 0).hauls,
      k.id = h.id ∧ k.ended = some (8, 0, 0) ∧ k.saving = none := by
  have hk : { h with saving := none } ∈ (s.modHaul h.id fun h => { h with saving := none }).hauls :=
    List.mem_map.mpr ⟨h, hh, if_pos rfl⟩
  exact ⟨_, State.stopHaul_ends hk he 8 0 0, rfl, rfl, rfl⟩

end save

end Sys2Proof.Machine
end

section
/-! # O59: a VF leaves (R354, R355; logs 44, 79) -/

namespace Sys2Proof.Machine
variable {s t u z : State} {b i vf : Nat} {c : Command}

/-! ## The blackout begins (R354 step 1) -/

section begin
variable {k : Nat × Nat} {h : Haul} {r : Rake}

/-- A haul of a VF that runs is to be saved for a command. -/
def Haul.toSave (vf : Nat) (k : Nat × Nat) (h : Haul) : Haul :=
  if h.vf = vf ∧ !h.retired ∧ h.ended.isNone then { h with saving := some k } else h

theorem Haul.toSave_frame (vf : Nat) (k : Nat × Nat) (h : Haul) : (h.toSave vf k).id = h.id ∧ (h.toSave vf k).vf = h.vf ∧
    (h.toSave vf k).retired = h.retired ∧ (h.toSave vf k).ended = h.ended := by
  unfold Haul.toSave
  split <;> exact ⟨rfl, rfl, rfl, rfl⟩

theorem Haul.toSave_saving (hv : h.vf = vf) (hr : h.retired = false) (he : h.ended = none) : (h.toSave vf k).saving = some k := by
  rw [Haul.toSave, if_pos ⟨hv, by rw [hr]; rfl, by rw [he]; rfl⟩]

/-- A VF at the start of its blackout. -/
def State.darkened (s : State) (vf : Nat) (k : Nat × Nat) : State :=
  { s.modVf vf fun v => { v with blackout := some k, stub := [] } with hauls := s.hauls.map (Haul.toSave vf k) }

/-- A VF whose hauls are being saved for a migration. -/
def State.leaving (s : State) (vf : Nat) (k : Nat × Nat) : State :=
  ((s.darkened vf k).requestWhere ((s.darkened vf k).rakeOf vf)).writeMine vf

theorem State.darkened_rakeOf (s : State) (vf : Nat) (k : Nat × Nat) : (s.darkened vf k).rakeOf vf = s.rakeOf vf := by
  funext r
  have hp : ((fun h : Haul => h.id == r.haul) ∘ Haul.toSave vf k) = fun h => h.id == r.haul := by
    funext h
    rw [Function.comp_apply, (h.toSave_frame vf k).1]
  have hfind : (s.darkened vf k).haul? r.haul = (s.haul? r.haul).map (Haul.toSave vf k) := by
    rw [State.haul?, State.darkened, List.find?_map, hp, State.haul?]
  rw [State.rakeOf, hfind, Option.map_map, State.rakeOf]
  congr 2
  funext h
  exact (h.toSave_frame vf k).2.1

theorem State.leaving_ledger (s : State) (vf : Nat) (k : Nat × Nat) : (s.leaving vf k).ledger = (s.darkened vf k).ledger :=
  (State.writeMine_ledger ..).trans (State.requestWhere_ledger ..)

theorem State.leaving_hauls (s : State) (vf : Nat) (k : Nat × Nat) : (s.leaving vf k).hauls = s.hauls.map (Haul.toSave vf k) :=
  State.hauls_of_ledger (s.leaving_ledger vf k)

theorem State.leaving_mem (s : State) (vf : Nat) (k : Nat × Nat) : (s.leaving vf k).mem = s.mem :=
  (State.mem_of_ledger (s.leaving_ledger vf k) :)

theorem State.leaving_commands (s : State) (vf : Nat) (k : Nat × Nat) : (s.leaving vf k).commands = s.commands :=
  (State.commands_of_ledger (s.leaving_ledger vf k) :)

theorem State.leaving_rakes (s : State) (vf : Nat) (k : Nat × Nat) : (s.leaving vf k).rakes = s.rakes :=
  (State.rakes_of_ledger (s.leaving_ledger vf k) :)

theorem State.leaving_blackout (s : State) (vf : Nat) (k : Nat × Nat) : ((s.leaving vf k).vf vf).blackout = some k := by
  have hd : (s.darkened vf k).vf vf = (s.modVf vf fun v => { v with blackout := some k, stub := [] }).vf vf := rfl
  rw [State.vf_of_ledger (s.leaving_ledger vf k), hd, State.vf_modVf, if_pos rfl]

theorem State.leaving_saving {j : Haul} (hj : j ∈ (s.leaving vf k).hauls) (hv : j.vf = vf) (hr : j.retired = false)
    (he : j.ended = none) : j.saving = some k := by
  rw [State.leaving_hauls] at hj
  obtain ⟨h, -, rfl⟩ := List.mem_map.mp hj
  obtain ⟨-, hfv, hfr, hfe⟩ := h.toSave_frame vf k
  exact Haul.toSave_saving (hfv.symm.trans hv) (hfr.symm.trans hr) (hfe.symm.trans he)

theorem State.leaving_pends (hr : r ∈ s.rakes) (hf : s.rakeOf vf r = true) (k : Nat × Nat) :
    (s.leaving vf k).Pends r.haul r.rake := by
  have hp := State.requestWhere_pends (s := s.darkened vf k) (f := (s.darkened vf k).rakeOf vf) hr
    (by rw [State.darkened_rakeOf, hf])
  unfold State.Pends at hp ⊢
  rw [State.leaving, State.writeMine_allCoaches]
  exact hp

/-- A VF with a resident rake of a haul that runs is not saved. -/
theorem State.leaving_vfSaved (hh : h ∈ s.hauls) (hv : h.vf = vf) (hrt : h.retired = false) (hr : r ∈ s.rakes)
    (hrh : r.haul = h.id) (k : Nat × Nat) : (s.leaving vf k).vfSaved vf = false := by
  obtain ⟨hfi, hfv, hfr, -⟩ := h.toSave_frame vf k
  have hmem : h.toSave vf k ∈ (s.leaving vf k).hauls := by rw [State.leaving_hauls]; exact List.mem_map_of_mem hh
  have hres : (s.leaving vf k).allSaved (h.toSave vf k) = false :=
    State.allSaved_resident (by rw [State.leaving_rakes]; exact hr) (hrh.trans hfi.symm)
  rw [State.vfSaved, List.all_eq_false]
  exact ⟨_, hmem, by simp [hfv, hv, hfr, hrt, hres]⟩

theorem State.trySend_waits (h : s.vfSaved c.vf = false) : s.trySend c = s := by
  have hn : ¬ s.vfSaved c.vf = true := by rw [h]; decide
  unfold State.trySend
  split <;> exact if_neg hn

end begin

/-! ## The command -/

theorem State.trySend_started (s : State) (c : Command) : s.trySend { c with started := true } = s.trySend c := rfl

section exec
variable (h : z.command? b i 4 = some c)
include h

theorem exec_migout_again (hb : ((z.startCommand c).vf c.vf).blackout = some (b, i)) :
    exec (.migout b i) z = .next (((z.startCommand c).writeMine c.vf).trySend c) := by
  simp only [exec, execMigout, State.onCommand_some h, State.trySend_started]
  rw [if_pos hb]

theorem exec_migout_begins (hb : ((z.startCommand c).vf c.vf).blackout ≠ some (b, i))
    (hm : (z.startCommand c).mayDepart c.vf = true) :
    exec (.migout b i) z = .next (((z.startCommand c).leaving c.vf (b, i)).trySend c) := by
  simp only [exec, execMigout, State.onCommand_some h, State.trySend_started]
  rw [if_neg hb, if_neg (by rw [hm]; decide)]
  rfl

end exec

/-! ## The image is sent, or the VF resumes (R354, R355) -/

section send

theorem State.trySend_sends (hs : s.vfSaved c.vf = true)
    (hk : ∀ h ∈ s.hauls, h.vf = c.vf → h.retired = false → h.ended = none → s.keptError h = false) :
    s.trySend c = s.sendVf c := by
  have hnil : (s.hauls.filter fun h => h.vf == c.vf && !h.retired && h.ended.isNone && s.keptError h) = [] := by
    refine List.filter_eq_nil_iff.mpr fun h hh hp => ?_
    simp only [Bool.and_eq_true, beq_iff_eq, Bool.not_eq_true', Option.isNone_iff_eq_none] at hp
    obtain ⟨⟨⟨hv, hr⟩, he⟩, herr⟩ := hp
    exact absurd (herr.symm.trans (hk h hh hv hr he)) (by decide)
  rw [State.trySend, hnil]
  exact if_pos hs

theorem State.sendVf_hidden (h : s.hiddenFrames c.vf ≠ []) :
    s.sendVf c = ((s.hiddenFrames c.vf).foldl State.countRefused s).endBlackout c.vf 6 := if_pos h

theorem State.sendVf_large (h : s.hiddenFrames c.vf = []) (hl : c.arg 2 < (s.vfImage c.vf).length) :
    s.sendVf c = s.endBlackout c.vf 6 := by
  simp only [State.sendVf]
  rw [if_neg (not_not.mpr h), if_pos hl]

theorem State.sendVf_sent (h : s.hiddenFrames c.vf = []) (hl : (s.vfImage c.vf).length ≤ c.arg 2)
    (hw : State.writeGpa (spans (c.arg 1) (s.vfImage c.vf).length) (s.vfImage c.vf) s = (u, true)) :
    s.sendVf c = (u.depart c.vf).endCommand c.block c.slot 0 (BitVec.ofNat 64 (s.vfImage c.vf).length) := by
  simp only [State.sendVf, hw]
  rw [if_neg (not_not.mpr h), if_neg (by omega)]

/-- A VF that has left: nothing of it is on the device, and accesses to its frames are handed on (R355). -/
theorem State.depart_spec (s : State) (vf : Nat) : (∀ h ∈ (s.depart vf).hauls, h.vf ≠ vf) ∧
    (∀ q ∈ (s.depart vf).queues, q.vf ≠ vf) ∧
    ((s.depart vf).vf vf).forwarding = true ∧ ((s.depart vf).vf vf).blackout = none ∧ ((s.depart vf).vf vf).psets = [] ∧
    ((s.depart vf).vf vf).rings = [] := by
  unfold State.depart
  dsimp only
  generalize (s.hauls.filter fun h => h.vf == vf).foldl (fun s h => s.tearDown h.id) s = u
  refine ⟨fun h hh => ?_, fun q hq => ?_, ?_⟩
  · simpa using (List.mem_filter.mp hh).2
  · simpa using (List.mem_filter.mp hq).2
  · rw [State.vf_modVf, if_pos rfl]
    exact ⟨rfl, rfl, rfl, rfl⟩

/-- What the accesses that act when a migration is given up leave alone. -/
def State.registry (s : State) : List (Nat × Vf) × List Command := (s.vfs, s.commands)

theorem State.atHomeOf_registry (s : State) (a : Nat) (op : Ingress) : (s.atHomeOf a op).registry = s.registry := by
  have hsink (s : State) (a n : Nat) : (s.sinkHost a n).registry = s.registry := by
    unfold State.sinkHost
    split
    · exact foldl_frame (f := State.writeBack) (g := State.registry) (fun _ _ => rfl) _ s
    · rfl
  have hatomic (s : State) (a n : Nat) (f : Nat → Nat) : (s.atomicAt a n f).registry = s.registry := by
    unfold State.atomicAt
    dsimp only
    split
    · exact hsink ..
    · exact hsink s a n
  unfold State.atHomeOf
  split
  · rfl
  · exact hatomic ..
  · exact hatomic ..
  · rfl

/-- A VF that resumes, before the accesses that were held act (R355). -/
def State.resumed (s : State) (vf b i st : Nat) : State :=
  (((s.endCommand b i st 0).hauls.filter fun h => h.saving.isSome && h.saving == (s.vf vf).blackout).foldl
    (fun s h => s.withdraw h.id) (s.endCommand b i st 0)).modVf vf fun v => { v with blackout := none, stub := [], held := [] }

theorem State.endBlackout_eq (hb : (s.vf vf).blackout = some (b, i)) (st : Nat) : s.endBlackout vf st =
    ((s.vf vf).stub ++ (s.vf vf).held.map (·.2)).foldl (fun s e => s.atHomeOf e.1 e.2) (s.resumed vf b i st) := by
  simp only [State.endBlackout, State.resumed, hb]

theorem State.endBlackout_registry (hb : (s.vf vf).blackout = some (b, i)) (st : Nat) :
    (s.endBlackout vf st).registry = (s.resumed vf b i st).registry := by
  rw [State.endBlackout_eq hb]
  exact foldl_frame (g := State.registry) (f := fun s (e : Nat × Ingress) => s.atHomeOf e.1 e.2) (fun s e => s.atHomeOf_registry ..) _ _

theorem State.vf_of_registry (h : t.registry = s.registry) (n : Nat) : t.vf n = s.vf n := 
  congrArg (fun r : List (Nat × Vf) × List Command => tget (vfReset n) r.1 n) h
theorem State.commands_of_registry (h : t.registry = s.registry) : t.commands = s.commands := congrArg (·.2) h

theorem State.resumed_commands (s : State) (vf b i st : Nat) : (s.resumed vf b i st).commands = (s.endCommand b i st 0).commands :=
  foldl_frame (g := State.commands) (f := fun s (h : Haul) => s.withdraw h.id) (fun _ _ => rfl) _ _

/-- A migration that is given up ends its command, and the VF is no longer in its blackout (R355). -/
theorem State.endBlackout_spec (hb : (s.vf vf).blackout = some (b, i)) (st : Nat) : ((s.endBlackout vf st).vf vf).blackout = none ∧
    ∀ k ∈ (s.endBlackout vf st).commands, k.block = b → k.slot = i → k.result ≠ none := by
  have hreg := State.endBlackout_registry hb st
  refine ⟨?_, fun k hk hkb hki => ?_⟩
  · rw [State.vf_of_registry hreg, State.resumed, State.vf_modVf, if_pos rfl]
  · rw [State.commands_of_registry hreg, State.resumed_commands] at hk
    exact State.mem_endCommand hk hkb hki

end send
end Sys2Proof.Machine
end

section
/-! # O59: a VF arrives (R354, R381; logs 35, 44) -/

namespace Sys2Proof.Machine
variable {s t u z : State} {b i vf : Nat} {c : Command}

/-! ## What a VF's arrival leaves alone of the VFs (R354 step 4) -/

/-- Of each VF its launches, its publish-set table and its rings. -/
def State.face (s : State) (n : Nat) : Word × (Nat × Nat) × List Rings := ((s.vf n).launches, (s.vf n).pstable, (s.vf n).rings)

theorem State.face_of_backdrop (h : t.backdrop = s.backdrop) : t.face = s.face := congrArg (·.2.2.2) h

theorem State.Accesses.face (h : s.Accesses t) : t.face = s.face := by
  funext n
  rw [State.face, h.vf, ← State.face]

theorem State.face_modVf {n : Nat} {f : Vf → Vf}
    (hf : ∀ v, (f v).launches = v.launches ∧ (f v).pstable = v.pstable ∧ (f v).rings = v.rings) : (s.modVf n f).face = s.face :=
  State.face_of_backdrop (State.backdrop_modVf hf)

section arrive

theorem State.face_gpaHome {gpa : Nat} {w : Bool} {a : Option Nat} (h : s.gpaHome vf gpa w = (t, a)) : t.face = s.face :=
  (State.Walks.of_eq h (State.Walks.gpaHome s vf gpa w)).accesses.face

theorem State.frameIn_face (vf : Nat) (s : State) (f : List Nat × List Nat × List (List Nat × List Byte)) :
    (State.frameIn vf s f).face = s.face := by
  have hwrite (a : Nat) (l : List (List Nat × List Byte)) (s : State) :
      (l.foldl (fun s b => s.wr (a + nth b.1 0 % 32768) b.2) s).face = s.face :=
    foldl_frame (g := State.face) (f := fun s (b : List Nat × List Byte) => s.wr (a + nth b.1 0 % 32768) b.2) (fun _ _ => rfl) l s
  refine foldl_frame (g := State.face) (fun s i => ?_) _ s
  split
  · exact State.face_gpaHome ‹_›
  · rename_i hg
    have hu := State.face_gpaHome hg
    exact (hwrite _ _ (State.clear _ _ _)).trans hu

theorem State.replay_face (vf : Nat) (frames : List (List Nat)) (s : State) (e : List Nat × List Byte) :
    (State.replay vf frames s e).face = s.face := by
  have hat (s : State) (a : Nat) (op : Ingress) : (s.atHomeOf a op).face = s.face := by
    funext n
    rw [State.face, State.vf_of_registry (s.atHomeOf_registry a op), ← State.face]
  unfold State.replay
  dsimp only
  split
  · rfl
  split
  · exact State.face_gpaHome ‹_›
  · exact (hat ..).trans (State.face_gpaHome ‹_›)

theorem State.psetIn_face (vf : Nat) (s : State) (p : List Nat × List Nat) : (State.psetIn vf s p).face = s.face := by
  unfold State.psetIn
  dsimp only
  split
  · exact State.face_gpaHome ‹_›
  · refine (State.face_modVf ?_).trans (State.face_gpaHome ‹_›)
    exact fun _ => ⟨rfl, rfl, rfl⟩

theorem State.taskIn_face (vf : Nat) (s : State) (l : List Nat) : (State.taskIn vf s l).1.face = s.face := by
  have hx (x : Ctx) (a : Nat) : (s.translate x .store a).1.face = s.face :=
    ((State.Walks.refl x.port s).translate (x := x) .store a).accesses.face
  unfold State.taskIn
  dsimp only
  split
  · rename_i he
    refine (State.face_modVf ?_).trans ((congrArg (·.1.face) he).symm.trans (hx ..))
    exact fun _ => ⟨rfl, rfl, rfl⟩
  · rename_i he
    exact (congrArg (·.1.face) he).symm.trans (hx ..)

theorem State.tasksIn_face (vf : Nat) (l : List (List Nat)) (s : State) : (State.tasksIn vf l s).1.face = s.face := by
  induction l generalizing s with
  | nil => rfl
  | cons k l ih => exact (ih _).trans (s.taskIn_face vf k)

theorem State.queueIn_face (vf : Nat) (s : State) (q : List Nat × List (List Nat × List Byte)) :
    (State.queueIn vf s q).face = s.face := by
  have hw (p n : Nat) : (s.walkQueue vf p n).1.face = s.face := (State.Walks.walkQueue ..).accesses.face
  unfold State.queueIn
  split
  · rename_i he
    have hu := (congrArg (·.1.face) he).symm.trans (hw ..)
    dsimp only
    split
    · refine (State.face_modVf ?_).trans hu
      exact fun _ => ⟨rfl, rfl, rfl⟩
    · exact hu
  · rename_i he
    exact (congrArg (·.1.face) he).symm.trans (hw ..)

theorem State.refuseHaul_face (s : State) (x : Source) (e : Nat) : (s.refuseHaul x e).face = s.face := by
  have hend (s : State) (q i : Nat) (ok : Bool) : (s.endPacket q i ok).backdrop = s.backdrop := by
    unfold State.endPacket
    split <;> simp
  refine State.face_of_backdrop ?_
  unfold State.refuseHaul
  dsimp only
  split
  · exact State.backdrop_recordAndSignal ..
  · exact (hend ..).trans (State.backdrop_recordAndSignal ..)

theorem State.ticketsIn_vfs (h : Haul) (rake : Nat) (blob : List Byte) (l : List Ticket) (s : State) :
    (State.ticketsIn h rake blob l s).1.vfs = s.vfs := by
  induction l generalizing s with
  | nil => rfl
  | cons k l ih =>
    unfold State.ticketsIn
    dsimp only
    split
    · exact ih s
    · exact ih _

theorem State.coachesIn_vfs (h : Haul) (rake : Nat) (blob : List Byte) (l : List Coach) (s : State) :
    (State.coachesIn h rake blob l s).1.vfs = s.vfs := by
  induction l generalizing s with
  | nil => rfl
  | cons k l ih => exact (ih _).trans (State.ticketsIn_vfs ..)

theorem State.savedIn_vfs (h : Haul) (blob : List Byte) (l : List SavedRake) (s : State) :
    (State.savedIn h blob l s).1.vfs = s.vfs := by
  induction l generalizing s with
  | nil => rfl
  | cons k l ih => exact (ih _).trans (State.coachesIn_vfs ..)

theorem State.face_of_vfs (h : t.vfs = s.vfs) : t.face = s.face := by
  funext n
  rw [State.face, State.vf, h, ← State.vf, ← State.face]

theorem bytesReader_accesses (b : List Byte) : (bytesReader b).OnlyAccesses := by
  intro s t a n h
  unfold bytesReader
  split <;> exact h

theorem State.haulIn_face (vf : Nat) (homes : List (Option Nat)) (s : State) (q : HaulImage × Bool) :
    (State.haulIn vf homes s q).face = s.face := by
  have hread : ((if q.2 then (s, .error 9) else s.readImage (bytesReader q.1.blob) 0 :
      State × Except Nat (Header × List LiftDesc × List SavedRake))).1.face = s.face := by
    split
    · rfl
    · exact (readImage_accesses (bytesReader_accesses _) 0 (.refl s)).face
  have hkeep (id : Nat) (l : List SavedRake) (s : State) : (l.foldl (fun s r => s.keepArea id r.rake) s).vfs = s.vfs :=
    foldl_frame (g := State.vfs) (f := fun s (r : SavedRake) => s.keepArea id r.rake) (fun _ _ => rfl) l s
  unfold State.haulIn
  dsimp only
  split
  · rename_i he
    rw [he] at hread
    exact (State.refuseHaul_face ..).trans hread
  · rename_i he
    rw [he] at hread
    refine (State.face_of_vfs ?_).trans hread
    exact (State.savedIn_vfs ..).trans (hkeep ..)

theorem State.walkKick_face (s : State) (vf : Nat) (w : Word) (p : BitVec 20) : (s.walkKick vf w p).face = s.face := by
  have hw (n : Nat) : (s.walkQueue vf p.toNat n).1.face = s.face := (State.Walks.walkQueue ..).accesses.face
  unfold State.walkKick
  split
  · rfl
  split
  · rename_i he
    exact (congrArg (·.1.face) he).symm.trans (hw _)
  · rename_i he
    refine (State.face_modVf ?_).trans ((congrArg (·.1.face) he).symm.trans (hw _))
    exact fun _ => ⟨rfl, rfl, rfl⟩
  · rename_i he
    refine (State.face_of_backdrop (State.backdrop_knowQueue ..)).trans ?_
    exact (congrArg (·.1.face) he).symm.trans (hw _)

/-- What an image says of a VF itself. -/
def VfImage.register (g : VfImage) (v : Vf) : Vf := { v with
  launches := BitVec.ofNat 32 (nth g.nums 0), pstable := (nth g.nums 1, nth g.nums 2)
  rings := v.rings ++ g.rings.map fun l =>
    { asid := BitVec.ofNat 16 (nth l 0), req := nth l 1, comp := nth l 2, logReq := nth l 3, logComp := nth l 4 }
  requests := v.requests ++ g.requests.map fun l =>
    { asid := BitVec.ofNat 16 (nth l 0), va := nth l 1, tag := BitVec.ofNat 64 (nth l 2), size := BitVec.ofNat 2 (nth l 3) } }

/-- The memory of an image and its stub at their homes here. -/
def State.memoryIn (s : State) (vf : Nat) (g : VfImage) : State :=
  g.stub.foldl (State.replay vf (g.frames.map (·.1))) (g.frames.foldl (State.frameIn vf) s)

/-- The sets, tasks, queues and hauls of an image and its kicks, and the queues read again. -/
def State.unitsIn (s : State) (vf : Nat) (g : VfImage) (lost : List Bool) : State :=
  let r := State.tasksIn vf g.tasks (g.psets.foldl (State.psetIn vf) s)
  let s := r.1.modVf vf fun v => { v with ready := v.ready ++ readyIn g.tasks r.2 }
  let s := (g.hauls.zip lost).foldl (State.haulIn vf r.2) (g.queues.foldl (State.queueIn vf) s)
  let s := g.kicks.foldl (fun s k => s.walkKick vf (BitVec.ofNat 32 (nth k 0)) (BitVec.ofNat 20 (nth k 1))) s
  (s.queues.filter fun q => q.vf == vf).foldl State.examine s

theorem State.arriveVf_eq (s : State) (vf : Nat) (g : VfImage) (lost : List Bool) :
    s.arriveVf vf g lost = ((s.memoryIn vf g).modVf vf g.register).unitsIn vf g lost := rfl

theorem State.memoryIn_face (s : State) (vf : Nat) (g : VfImage) : (s.memoryIn vf g).face = s.face :=
  (foldl_frame (g := State.face) (State.replay_face vf _) _ _).trans (foldl_frame (g := State.face) (State.frameIn_face vf) _ _)

theorem State.unitsIn_face (s : State) (vf : Nat) (g : VfImage) (lost : List Bool) : (s.unitsIn vf g lost).face = s.face := by
  have htasks : (State.tasksIn vf g.tasks (g.psets.foldl (State.psetIn vf) s)).1.face = s.face :=
    (State.tasksIn_face ..).trans (foldl_frame (g := State.face) (State.psetIn_face vf) _ _)
  unfold State.unitsIn
  dsimp only
  generalize State.tasksIn vf g.tasks (g.psets.foldl (State.psetIn vf) s) = r at htasks ⊢
  refine (foldl_frame (g := State.face) (fun s q => State.face_of_backdrop (s.backdrop_examine q)) _ _).trans ?_
  refine (foldl_frame (g := State.face) (fun s k => State.walkKick_face s vf _ _) _ _).trans ?_
  refine (foldl_frame (g := State.face) (State.haulIn_face vf _) _ _).trans ?_
  refine (foldl_frame (g := State.face) (State.queueIn_face vf) _ _).trans ?_
  refine (State.face_modVf ?_).trans htasks
  exact fun _ => ⟨rfl, rfl, rfl⟩

/-- A VF arrives with the launches, the table and the rings of its image (R354). -/
theorem State.arriveVf_face (s : State) (vf : Nat) (g : VfImage) (lost : List Bool) : (s.arriveVf vf g lost).face vf =
    (BitVec.ofNat 32 (nth g.nums 0), (nth g.nums 1, nth g.nums 2), (s.vf vf).rings ++ g.rings.map fun l =>
      { asid := BitVec.ofNat 16 (nth l 0), req := nth l 1, comp := nth l 2, logReq := nth l 3, logComp := nth l 4 }) := by
  have hrings : ((s.memoryIn vf g).vf vf).rings = (s.vf vf).rings := congrArg (·.2.2) (congrFun (s.memoryIn_face vf g) vf)
  rw [State.arriveVf_eq, State.unitsIn_face, State.face, State.vf_modVf, if_pos rfl, ← hrings]
  rfl

end arrive

/-! ## MIGIN (R354, R381; log 35) -/

section migin

section exec
variable {l : List (Byte × Bool)} (h : z.command? b i 5 = some c)
  (hr : State.readGpas (spans (c.arg 1) (c.arg 2)) (z.startCommand c) = (u, some l))
include h hr

theorem exec_migin_unread (hk : (soundBytes (l.take 8)).bind getNat = none) :
    exec (.migin b i) z = .next (u.endCommand b i 3 0) := by
  have hr' : State.readGpas (spans (Command.arg { c with started := true } 1) (Command.arg { c with started := true } 2))
    (z.startCommand c) = (u, some l) := hr
  simp only [exec, execMigin, State.onCommand_some h, hr', hk]

variable {k : Nat} {rest : List Byte} (hk : (soundBytes (l.take 8)).bind getNat = some (k, rest))
include hk

theorem exec_migin_key (hne : k ≠ u.key.toNat) : exec (.migin b i) z = .next (u.endCommand b i 7 0) := by
  have hr' : State.readGpas (spans (Command.arg { c with started := true } 1) (Command.arg { c with started := true } 2))
    (z.startCommand c) = (u, some l) := hr
  simp only [exec, execMigin, State.onCommand_some h, hr', hk]
  rw [if_pos hne]

theorem exec_migin_bad (he : k = u.key.toNat)
    (hi : (readVf (l.drop 8)).filter (fun r => r.1.frames.all fun f => decide (nth f.1 2 ≤ 26)) = none) :
    exec (.migin b i) z = .next (u.endCommand b i 3 0) := by
  have hr' : State.readGpas (spans (Command.arg { c with started := true } 1) (Command.arg { c with started := true } 2))
    (z.startCommand c) = (u, some l) := hr
  simp only [exec, execMigin, State.onCommand_some h, hr', hk, hi]
  rw [if_neg (not_not.mpr he)]

theorem exec_migin_arrives {g : VfImage} {lost : List Bool} (he : k = u.key.toNat)
    (hi : (readVf (l.drop 8)).filter (fun r => r.1.frames.all fun f => decide (nth f.1 2 ≤ 26)) = some (g, lost)) :
    exec (.migin b i) z = .next ((u.arriveVf c.vf g lost).endCommand b i 0 0) := by
  have hr' : State.readGpas (spans (Command.arg { c with started := true } 1) (Command.arg { c with started := true } 2))
    (z.startCommand c) = (u, some l) := hr
  simp only [exec, execMigin, State.onCommand_some h, hr', hk, hi]
  rw [if_neg (not_not.mpr he)]

end exec

theorem soundBytes_bad {l : List (Byte × Bool)} (h : ∃ p ∈ l, p.2 = true) : soundBytes l = none :=
  if_pos (List.any_eq_true.mpr h)

theorem soundBytes_sound {l : List (Byte × Bool)} (h : ∀ p ∈ l, p.2 = false) : soundBytes l = some (l.map (·.1)) :=
  if_neg (by simpa using h)

/-- The granules in which a block differs from itself. -/
theorem blockDiff_self (x : List Nat × List Byte) : blockDiff x x = [] := by simp [blockDiff]

theorem zip_self {α : Type} (l : List α) : l.zip l = l.map fun x => (x, x) := by
  induction l with
  | nil => rfl
  | cons x l ih => rw [List.zip_cons_cons, ih, List.map_cons]

/-- Without an error an image is read as its bytes say (R381). -/
theorem readVf_sound (l : List Byte) :
    readVf (l.map fun x => (x, false)) = (getVf l).map fun r => (r.1, r.1.hauls.map fun _ => false) := by
  have hl : (l.map fun x => (x, false)).map (·.1) = l := by rw [List.map_map]; exact List.map_id l
  have hn : ((l.map fun x => (x, false)).map fun p => if p.2 then ~~~p.1 else p.1) = l := by
    rw [List.map_map]
    exact List.map_id l
  unfold readVf
  rw [hl, hn]
  cases getVf l with
  | none => rfl
  | some r =>
    obtain ⟨g, rest⟩ := r
    have hdiff (bs : List (List Nat × List Byte)) : ((bs.zip bs).flatMap fun b => blockDiff b.1 b.2) = [] := by
      rw [zip_self, List.flatMap_map]
      simp [blockDiff_self]
    have hframes : ((g.frames.zip g.frames).map fun p =>
        (p.1.1, p.1.2.1 ++ (p.1.2.2.zip p.2.2.2).flatMap fun b => blockDiff b.1 b.2, p.1.2.2)) = g.frames := by
      rw [zip_self, List.map_map]
      refine (List.map_congr_left fun f _ => ?_).trans (List.map_id g.frames)
      simp [hdiff]
    have hhauls : ((g.hauls.zip g.hauls).map fun p => p.1 != p.2) = g.hauls.map fun _ => false := by
      rw [zip_self, List.map_map]
      exact List.map_congr_left fun h _ => by simp
    dsimp only
    rw [if_neg (not_not.mpr rfl), hframes, hhauls]
    rfl

/-- The poisoned granules of a frame are poisoned at its home (R381). -/
theorem State.frameIn_poison {f : List Nat × List Nat × List (List Nat × List Byte)} {h g : Nat}
    (hg : s.gpaHome vf (nth f.1 0) true = (t, some h)) (h15 : nth f.1 2 = 15) (hm : g ∈ f.2.1) (hlt : g < 32768) :
    h + g ∈ (State.frameIn vf s f).dev.poison := by
  have hmem : h + g ∈ (f.2.1.filter fun g => g / 32768 == 0).map fun g => h + g % 32768 :=
    List.mem_map.mpr ⟨g, List.mem_filter.mpr ⟨hm, by simp [Nat.div_eq_of_lt hlt]⟩, by rw [Nat.mod_eq_of_lt hlt]⟩
  have hone : List.range (2 ^ (nth f.1 2 - 15)) = [0] := by rw [h15]; rfl
  have hpoison (s : State) (l : List Nat) (x : Nat) (hx : x ∈ l) : x ∈ (s.poisonAll l).dev.poison := by
    by_cases hk : x ∈ s.dev.poison
    · exact List.mem_append_left _ hk
    · exact List.mem_append_right _ (List.mem_filter.mpr ⟨hx, by simpa using hk⟩)
  rw [State.frameIn, hone, List.foldl_cons, List.foldl_nil, Nat.mul_zero, Nat.add_zero, hg]
  exact hpoison _ _ _ hmem

end migin
end Sys2Proof.Machine
end

section
/-! # O59: the mailbox and its commands (R46 to R49, R66, R89, R219, R234, R350, R352, R354, R355, R383) -/

namespace Sys2Proof.Machine
/-- Settles O59: a command that is due is the first of its slot that has not ended, with none of its block that waits before it
(`State.command?_due`); the commands that end at once are their `exec_` lemmas; a save or migration waits while a rake is resident
(`State.allSaved_resident`, `State.leaving_vfSaved`), and an arriving VF keeps what its image says of it (`State.arriveVf_face`). -/
theorem commandResults : Obligations.CommandResults := by
  refine ⟨⟨fun b x s hb hm => ⟨fun hr => ?held, fun hr hx => ?counted, fun hr hx => ⟨fun hp => ?other, fun hp => ?taken⟩⟩,
    fun b i op s => ⟨fun h => ?notDue, fun l c r hs he hl hc hw => ?due, exec_command_none⟩,
    fun s c st v hs hm hc hf h0 => ?completion⟩, fun b i z c op h => ?atOnce,
    fun b i z c op h => ?moves⟩
  case held =>
    refine ⟨_, exec_mailboxDoorbell hb x s, ?_⟩
    rw [hr]
    rfl
  case counted =>
    refine ⟨_, exec_mailboxDoorbell hb x s, ?_⟩
    rw [if_pos hr, State.doorbell, if_pos hx]
    exact ⟨rfl, (State.bumpVf_counts hm b 0x10).1⟩
  case other =>
    rw [exec_mailboxDoorbell hb, if_pos hr, State.doorbell, if_neg (by omega), State.takeSlot_other hp]
  case taken =>
    refine ⟨_, s.slotCommand b x.toNat, exec_mailboxDoorbell hb x s, ?_⟩
    rw [if_pos hr, State.doorbell, if_neg (by omega), State.takeSlot_posted hp]
    refine ⟨State.rdNat_wr_byte hm .., fun y hy => ?_, rfl, rfl, rfl, rfl, fun i hi => s.slotCommand_arg b x.toNat hi,
      fun h => ?_, fun hlo hhi hn => ?_, fun hlo hhi hd => ?_⟩
    · exact Memory.get_wr_outside hm (by simp only [List.length_singleton]; omega)
    · exact congrArg (Option.map fun e => (e, 0)) (refusal?_badop h)
    · exact congrArg (Option.map fun e => (e, 0)) (refusal?_denied hlo hhi hn)
    · refine (congrArg (Option.map fun e => (e, 0)) (refusal?_args hlo hhi hd)).trans ?_
      rw [apply_ite (Option.map fun e => (e, 0))]
      rfl
  case notDue =>
    obtain h | h | ⟨l, c, r, he, hl, hc, k, hk, hw⟩ := h
    · exact State.command?_idle h
    · exact State.command?_absent fun c hc hmine => h c hc (Command.isMine_iff.mp hmine)
    · exact State.command?_waits he (fun k hk hmine => hl k hk (Command.isMine_iff.mp hmine)) (Command.isMine_iff.mpr hc) hk
        (Command.blocks_iff.mpr hw)
  case due =>
    refine State.command?_due hs he (fun k hk hmine => hl k hk (Command.isMine_iff.mp hmine)) (Command.isMine_iff.mpr hc)
      fun k hk hblocks => ?_
    obtain ⟨hb, hst, hr⟩ := Command.blocks_iff.mp hblocks
    obtain hs | hn := hw k hk hb
    · exact absurd (hst.symm.trans hs) (by decide)
    · exact hn hr
  case completion =>
    obtain ⟨hst, hv, hd, hcount, hsig, hout⟩ := State.complete_spec (c := c) (st := st) (v := v) hm
    refine ⟨_, exec_mailboxCompletion hs hc hf, ?_⟩
    rw [State.doneSignal_none (hsig.trans h0)]
    exact ⟨State.complete_commands .., hst, hv, hd, hcount, hout⟩
  case atOnce =>
    dsimp only
    refine ⟨?stubret, ?pstable, ?psreg, ?prring, ?errcnt, ?compat, ?abort, ?destroyq⟩ <;> rintro rfl
    case stubret => exact ⟨_, _, exec_stubret h, setsVf_modVf .., rfl⟩
    case pstable => exact ⟨_, _, exec_pstable h, setsVf_modVf .., rfl⟩
    case psreg =>
      refine ⟨_, exec_psreg h, ?_⟩
      by_cases hid : ((z.startCommand c).vf c.vf).pstable.2 ≤ c.arg 0
      · rw [if_pos hid, if_pos hid]
        rfl
      rw [if_neg hid, if_neg hid]
      by_cases h1 : c.arg 1 = 1
      · rw [if_pos h1, if_neg (not_not.mpr h1)]
        refine ⟨fun hp => ?_, fun hp u k hg hm => ?_⟩
        · rw [State.registerSet_known hp]
          rfl
        · cases hb : psetBad (u.rd k 64) with
          | true =>
            rw [if_pos rfl, State.registerSet_bad hp hg hb]
            rfl
          | false =>
            obtain ⟨p, w, hw, hset, hrest⟩ := State.registerSet_spec hm hp hg hb
            rw [if_neg (by decide), hw]
            exact ⟨p, w, rfl, hset, hrest⟩
      · rw [if_neg h1, if_pos h1]
        refine ⟨fun hp => ?_, fun hp => ?_⟩
        · rw [if_pos (by rw [hp]; rfl)]
          rfl
        · rw [if_neg (by rw [Option.isNone_iff_eq_none]; exact Option.isSome_iff_ne_none.mp hp)]
          exact ⟨_, setsVf_modVf .., rfl⟩
    case prring =>
      refine ⟨_, exec_prring h, ?_⟩
      split
      · rfl
      · exact ⟨_, setsVf_modVf .., rfl⟩
    case errcnt =>
      refine ⟨_, exec_errcnt h, ?_⟩
      cases hu : unitOk (c.arg 0) (c.arg 1) (c.arg 2) <;> rfl
    case compat => exact ⟨_, exec_compat h, rfl⟩
    case abort =>
      cases hn : (z.startCommand c).namedHaul c with
      | none => exact ⟨_, exec_abort_none h hn, fun _ => rfl, fun k hk => absurd hk (by simp)⟩
      | some k =>
        obtain ⟨hmem, -, hend⟩ := State.namedHaul_spec hn
        refine ⟨_, exec_abort_named h hn, fun h => absurd h (by simp), fun j hj => ?_⟩
        rw [← Option.some.inj hj]
        obtain ⟨-, hstop⟩ := State.stopHaul_coaches (z.startCommand c) k.id 5 0 0
        exact ⟨_, rfl, rfl, ⟨_, State.stopHaul_ends hmem hend 5 0 0, rfl, rfl⟩, hstop⟩
    case destroyq =>
      obtain ⟨rfl, rfl, -⟩ := State.command?_mine h
      obtain ⟨t, ht⟩ : ∃ t, exec (.destroyq c.block c.slot) z = .next t := ⟨_, rfl⟩
      have hend {w : State} (hw : exec (.destroyq c.block c.slot) z = .next w) : t = w :=
        Host.Outcome.next.inj (ht.symm.trans hw)
      refine ⟨t, ht, fun u hw => hend (exec_destroyq_dropped h hw), fun u e hw => hend (exec_destroyq_held h hw),
        fun u a x q hw hm hq hf => ?_⟩
      have hacc := (State.Walks.of_eq hw (State.Walks.walkQueue ..)).accesses
      have hum : Memory.wf u.mem = true := wf_of_eq hw (State.walkQueue_wf _ _ _ hm)
      have hqmem := List.mem_of_find?_eq_some hq
      have hqp := List.find?_some (p := fun k : Queue => k.vf == c.vf && k.qcb == x) hq
      simp only [Bool.and_eq_true, beq_iff_eq] at hqp
      obtain ⟨hqv, rfl⟩ := hqp
      rw [hend (exec_destroyq_found h hw hq hf)]
      refine ⟨fun h0 hb => State.destroy_busy h0 hb, fun h0 hb => State.destroy_destroys hum h0 hb, fun h0 hp hd hu => ?_⟩
      have hseen : u.qcbSeen q = true := State.walkQueue_sees hw
      have hud : (u.vf q.vf).deferred = [] := by rw [hacc.vf, hqv]; exact hd
      obtain ⟨hfind, hcom, hst⟩ := State.destroy_drains (c := c) hum h0 hqmem hp hseen hud hu
      exact ⟨hfind, hcom.trans hacc.commands, hst⟩
  case moves =>
    dsimp only
    refine ⟨?save, ?deliver, ?leave, ?send, ?arrive, fun l => readVf_sound l, 
      fun vf u v f a hg h15 g hm hlt => State.frameIn_poison hg h15 hm hlt⟩ <;> rintro rfl
    case save =>
      intro hfree
      have hf : (z.startCommand c).hauls.find? (fun h => h.saving == some (b, i)) = none :=
        List.find?_eq_none.mpr fun k hk => by simpa using hfree k hk
      refine ⟨fun hn => ⟨_, exec_save_none h hf hn, rfl⟩, fun k hn hs => ⟨_, exec_save_named h hf hn, ?_⟩,
        fun k hn hs hr => ?_⟩
      · rw [if_pos hs]
        rfl
      · obtain ⟨r, hr, hrk⟩ := hr
        have hl := (z.startCommand c).requested_ledger k (b, i)
        have hres : ((z.startCommand c).requested k (b, i)).allSaved k = false :=
          State.allSaved_resident (r := r) (by rw [State.rakes_of_ledger hl]; exact hr) hrk
        refine ⟨_, exec_save_named h hf hn, ?_⟩
        rw [if_neg (by simp [hs]), ← State.requested, State.tryDeliver_waits hres]
        refine ⟨(State.mem_of_ledger hl :), (State.commands_of_ledger hl :), fun j hj hid => ?_,
          fun r hr hrk => State.requested_pends hr hrk _⟩
        rw [State.hauls_of_ledger hl] at hj
        obtain ⟨_, -, rfl⟩ := State.mem_modHaul hj hid
        rfl
    case deliver =>
      intro k u p hf
      obtain ⟨rfl, rfl, -⟩ := State.command?_mine h
      have hkm := List.mem_of_find?_eq_some hf
      have hkw : k ∈ ((z.startCommand c).writeSaved k).hauls := by
        rw [State.hauls_of_ledger (State.writeSaved_ledger ..)]
        exact hkm
      have hexec := exec_save_saving h hf
      refine ⟨fun he => ?_, fun he hs hk => ⟨_, hexec, ?_⟩, fun he hs hk hi => ⟨_, hexec, fun hl => ?_, fun hl v hw => ?_⟩⟩
      · rw [hexec, if_pos he]
      · rw [if_neg (by simp [he]), State.tryDeliver_error hs hk]
        exact ⟨_, State.stopHaul_ends hkw he 9 8 0, rfl, rfl⟩
      · rw [if_neg (by simp [he]), State.tryDeliver_saved hs hk, State.deliver_refused hi hl]
        exact ⟨_, rfl, fun j hj hid => State.withdraw_saving (s := u) hj hid⟩
      · have hvk : k ∈ v.hauls := by
          have hv := State.writePieces_hauls (((z.startCommand c).writeSaved k).haulCtx k) p.1 u
          have hu := (State.savedImage_accesses ((z.startCommand c).writeSaved k) k (c.arg 2)).hauls
          rw [hw] at hv
          rw [hi] at hu
          rw [hv, hu]
          exact hkw
        rw [if_neg (by simp [he]), State.tryDeliver_saved hs hk, State.deliver_written hi hl hw]
        exact ⟨_, rfl, rfl, delivered_ends hvk he⟩
    case leave =>
      rintro hb hmay ⟨k, r, hk, hkv, hkr, hke, hr, hrk⟩
      have hkm : k ∈ (z.startCommand c).hauls := List.mem_of_find?_eq_some hk
      refine ⟨_, exec_migout_begins h hb hmay, ?_⟩
      rw [State.trySend_waits (State.leaving_vfSaved hkm hkv hkr hr hrk (b, i))]
      exact ⟨State.leaving_mem .., State.leaving_blackout .., State.leaving_commands .., fun j hj hv hr he =>
        State.leaving_saving hj hv hr he, fun r hr hf => State.leaving_pends hr hf _⟩
    case send =>
      intro hb hs hk
      obtain ⟨rfl, rfl, -⟩ := State.command?_mine h
      have hexec := exec_migout_again h hb
      rw [State.trySend_sends hs hk] at hexec
      have hkb : (((z.startCommand c).writeMine c.vf).vf c.vf).blackout = some (c.block, c.slot) := by
        rw [State.vf_of_ledger (State.writeMine_ledger ..), hb]
      generalize (z.startCommand c).writeMine c.vf = k at *
      refine ⟨fun hh hl u hw => ?_, fun hor => ⟨_, hexec, ?_⟩⟩
      · rw [State.sendVf_sent hh hl hw] at hexec
        exact ⟨_, _, hexec, rfl, u.depart_spec c.vf⟩
      · by_cases hh : k.hiddenFrames c.vf = []
        · rw [State.sendVf_large hh (hor.resolve_left (not_not.mpr hh))]
          exact State.endBlackout_spec hkb 6
        · have hreg (l : List Nat) : (l.foldl State.countRefused k).registry = k.registry :=
            foldl_frame (g := State.registry) (f := State.countRefused) (fun _ _ => rfl) l k
          rw [State.sendVf_hidden hh]
          exact State.endBlackout_spec (by rw [State.vf_of_registry (hreg _), hkb]) 6
    case arrive =>
      intro u l hr
      obtain ⟨t, ht⟩ : ∃ t, exec (.migin b i) z = .next t := ⟨_, rfl⟩
      have hend {w : State} (hw : exec (.migin b i) z = .next w) : t = w := Host.Outcome.next.inj (ht.symm.trans hw)
      refine ⟨t, ht, fun hbad => ?_, fun k rest hsound hkey => ⟨fun hne => ?_, fun he => ?_⟩⟩
      · refine hend (exec_migin_unread h hr ?_)
        by_cases hsound : ∃ p ∈ l.take 8, p.2 = true
        · rw [soundBytes_bad hsound]
          rfl
        · rw [soundBytes_sound (by simpa using hsound)]
          exact hbad.resolve_left hsound
      · exact hend (exec_migin_key h hr (by rw [soundBytes_sound hsound]; exact hkey) hne)
      · have hk : (soundBytes (l.take 8)).bind getNat = some (k, rest) := by rw [soundBytes_sound hsound]; exact hkey
        cases hg : readVf (l.drop 8) with
        | none => exact hend (exec_migin_bad h hr hk he (by rw [hg]; rfl))
        | some r =>
          obtain ⟨g, lost⟩ := r
          dsimp only
          by_cases hlarge : ∃ f ∈ g.frames, 26 < nth f.1 2
          · rw [if_pos hlarge]
            refine hend (exec_migin_bad h hr hk he ?_)
            obtain ⟨f, hf, h26⟩ := hlarge
            rw [hg, Option.filter_some, if_neg]
            simp only [List.all_eq_true, decide_eq_true_eq, not_forall]
            exact ⟨f, hf, by omega⟩
          · rw [if_neg hlarge]
            have hfit : (readVf (l.drop 8)).filter (fun r => r.1.frames.all fun f => decide (nth f.1 2 ≤ 26)) = some (g, lost) := by
              rw [hg, Option.filter_some, if_pos]
              simp only [List.all_eq_true, decide_eq_true_eq]
              exact fun f hf => Nat.le_of_not_lt fun h26 => hlarge ⟨f, hf, h26⟩
            rw [hend (exec_migin_arrives h hr hk he hfit)]
            have hface := u.arriveVf_face c.vf g lost
            exact ⟨⟨_, rfl⟩, congrArg (·.1) hface, congrArg (·.2.1) hface, congrArg (·.2.2) hface⟩

end Sys2Proof.Machine
end

section
/-! # O7: a word issued with no resident coach in focus may change S2BASE (R108, R348, R349)

TLBI has the coaches of the VF carry their buffered writes, each in focus for the while (`State.within`), and
the focus then returns to the coach that issued the word by its number. A coach that is not resident keeps no
place among the others: where the word was issued with such a coach in focus, the coach that was drained stays
in focus, and the end of the word puts the writes of S2BASE that stand at its offset into force. The statement
asks for a resident coach with a number of its own in its last part only. -/

namespace Sys2Proof.Machine

/-- A coach that is not resident, in S mode, with nothing written at its offset. -/
def absentInS : Coach := { coachNone with traps := { coachNone.traps with mode := .s } }

/-- The only resident coach: a write is left in its buffer, and its offset has written 4096 to S2BASE of VF 0. -/
def residentWithS2 : Coach :=
  { coachNone with
    ident := { coachNone.ident with id := 5 }
    issue := { coachNone.issue with phase := .ready, newS2 := [(0, 4096)] }
    wbuf := [{ id := 1, addr := 0, bytes := [1], atCore := false }] }

/-- A translation of page 0 of VF 0, held in the TLB of die 0. -/
def entryOfPage0 : TlbEntry where
  unit := .die 0
  vf := 0
  asid := 0
  page := 0
  bits := 15
  pbits := 15
  leaf := 0
  frame := 0
  s2w := true
  s2x := false
  s2d := true

/-- The device with the absent coach in focus. -/
def absentIssuer : State := { State.reset with co := absentInS, coaches := [residentWithS2], tlb := [entryOfPage0] }

/-- TLBI of one page, issued there, sets S2BASE of VF 0 from 0 to 4096. -/
theorem absentIssuer_tlbi_s2base :
    ∃ t : State, exec (.tlbi false 0 0) absentIssuer = .next t ∧ (t.vf 0).s2base = 4096 ∧
      (absentIssuer.vf 0).s2base = 0 := ⟨_, rfl, rfl, rfl⟩

/-- Refutes O7: in `absentIssuer` the coach in focus is in S mode with no write of S2BASE at its offset, and the
TLBI it issues changes S2BASE of VF 0. -/
theorem not_privilegeHolds : ¬ Obligations.PrivilegeHolds := by
  unfold Obligations.PrivilegeHolds
  intro h
  obtain ⟨t, ht, hnew, hold⟩ := absentIssuer_tlbi_s2base
  obtain ⟨-, vfs, -⟩ := h (.tlbi false 0 0) absentIssuer t rfl (by decide) rfl ht
  obtain ⟨-, -, -, -, -, -, -, -, -, hkept, -⟩ := vfs 0
  rw [hnew, hold] at hkept
  exact absurd hkept (by decide)

end Sys2Proof.Machine
end

section
/-! # O4: decoding and encoding agree (R91, R101 to R105)

`encode` appends the fields of a row and `decode` takes them out again. One way: a field taken from an appended word
is the field put in, and the fixed bits are tested part by part (`append_and_eq`). The other way: a word is the
append of its fields (`append_eq_iff`), and a fixed field is the one that the row's test asks for (`fixed_field`).
The rows are gone through by their majors. -/

namespace Sys2Proof

/-! ## The word of a well-formed instruction decodes to it -/

/-- A mask over an appended word is a mask over each part. -/
theorem append_and_eq {k n M P : Nat} {x : BitVec k} {y : BitVec n}
    (hx : x &&& BitVec.ofNat k (M / 2 ^ n) = BitVec.ofNat k (P / 2 ^ n))
    (hy : y &&& BitVec.ofNat n M = BitVec.ofNat n P) :
    (x ++ y) &&& BitVec.ofNat (k + n) M = BitVec.ofNat (k + n) P := by
  apply BitVec.eq_of_getLsbD_eq
  intro i hi
  have hX := congrArg (BitVec.getLsbD · (i - n)) hx
  have hY := congrArg (BitVec.getLsbD · i) hy
  simp only [BitVec.getLsbD_and, BitVec.getLsbD_append, BitVec.getLsbD_ofNat, Nat.testBit_div_two_pow] at hX hY ⊢
  by_cases h : i < n
  · simpa [h, hi] using hY
  · have e : n + (i - n) = i := by omega
    have e' : i - n < k := by omega
    simpa [h, hi, e, e', Nat.sub_add_cancel (Nat.le_of_not_lt h)] using hX

theorem need_of {w mask pat : Word} {i j : Instr} (hf : w &&& mask = pat) (hj : j = i) (hwf : i.wf = true) :
    need w mask pat j = .ok i := by
  subst hj; simp [need, hf, hwf]

theorem mark_beq (m : Bool) : (mark m == 1#1) = m := by cases m <;> rfl

theorem extractLsb'_append_append {p q n k : Nat} {x : BitVec p} {c : BitVec q} {s : BitVec n} (hk : k ≤ q) :
    (x ++ c ++ s).extractLsb' 0 (k + n) = c.extractLsb' 0 k ++ s := by
  apply BitVec.eq_of_getLsbD_eq
  intro i hi
  simp only [BitVec.getLsbD_extractLsb', BitVec.getLsbD_append, hi, decide_true, Bool.true_and, Nat.zero_add]
  split
  · rfl
  · rw [if_pos (by omega), decide_eq_true (by omega), Bool.true_and]

theorem decode_encode_psw {w m a} (hwf : (Instr.psw m a).wf = true) (h : encode (.psw m a) = some w) :
    decode w = .ok (.psw m a) := by
  cases h
  have ha : a ≠ 63#6 := of_decide_eq_true hwf
  simp (disch := decide) only [decode, decodeCtl, ha, reduceIte, major, minor, marked, mark_beq,
    BitVec.extractLsb'_append_eq_of_le, BitVec.extractLsb'_append_eq_of_add_le, Nat.reduceSub, BitVec.extractLsb'_eq_self,
    BitVec.reduceExtractLsb', BitVec.toNat_ofNat, Nat.reducePow, Nat.reduceMod]
  refine need_of ?_ rfl hwf
  repeat' apply append_and_eq
  all_goals simp only [Nat.reducePow, Nat.reduceDiv, BitVec.reduceOfNat, BitVec.and_zero, BitVec.reduceAnd]

theorem decode_encode_cmp {w m d a b c} (hwf : (Instr.cmp m d a b c).wf = true)
    (h : encode (.cmp m d a b c) = some w) : decode w = .ok (.cmp m d a b c) := by
  cases h
  have hc : ∀ c : BitVec 3, (0#4).extractLsb' 0 4 ++ c < 8#7 := by decide
  have hm : minor (mark m ++ 0x15#6 ++ 0x0#1 ++ d ++ a ++ b ++ 0x0#4 ++ c) < 8#7 := by
    rw [minor, extractLsb'_append_append (k := 4) (n := 3) (by decide)]
    exact hc c
  simp (disch := decide) only [decode, hm, reduceIte, major, marked, mark_beq,
    BitVec.extractLsb'_append_eq_of_le, BitVec.extractLsb'_append_eq_of_add_le, Nat.reduceSub, BitVec.extractLsb'_eq_self,
    BitVec.toNat_ofNat, Nat.reducePow, Nat.reduceMod]
  refine need_of ?_ rfl hwf
  repeat' apply append_and_eq
  all_goals simp only [Nat.reducePow, Nat.reduceDiv, BitVec.reduceOfNat, BitVec.and_zero, BitVec.reduceAnd]

theorem decode_encode_gcmp {w m d a b c} (hwf : (Instr.gcmp m d a b c).wf = true)
    (h : encode (.gcmp m d a b c) = some w) : decode w = .ok (.gcmp m d a b c) := by
  cases h
  have hc : ∀ c : BitVec 4, c ≤ 9#4 → (0#3).extractLsb' 0 3 ++ c < 10#7 := by decide
  have hm : minor (mark m ++ 0x1E#6 ++ 0x0#2 ++ d ++ a ++ b ++ 0x0#3 ++ c) < 10#7 := by
    rw [minor, extractLsb'_append_append (k := 3) (n := 4) (by decide)]
    exact hc c (of_decide_eq_true hwf)
  simp (disch := decide) only [decode, hm, reduceIte, major, marked, mark_beq,
    BitVec.extractLsb'_append_eq_of_le, BitVec.extractLsb'_append_eq_of_add_le, Nat.reduceSub, BitVec.extractLsb'_eq_self,
    BitVec.toNat_ofNat, Nat.reducePow, Nat.reduceMod]
  refine need_of ?_ rfl hwf
  repeat' apply append_and_eq
  all_goals simp only [Nat.reducePow, Nat.reduceDiv, BitVec.reduceOfNat, BitVec.and_zero, BitVec.reduceAnd]

theorem minor_scope {x : BitVec 1} {y : BitVec 6} {c : BitVec 22} {s : BitVec 3} : minor (x ++ y ++ c ++ s) = c.extractLsb' 0 4 ++ s :=
  extractLsb'_append_append (by decide)

theorem scope_cases {s : BitVec 3} (h : s ≤ 5#3) : s = 0#3 ∨ s = 1#3 ∨ s = 2#3 ∨ s = 3#3 ∨ s = 4#3 ∨ s = 5#3 := by
  revert s; decide
/-- PHASE, PUBL and REFR: the scope stands in the minor's low bits. -/
theorem decode_encode_scope {w m s i} (h : i = .phase m s ∨ i = .publ m s ∨ i = .refr m s) (hwf : i.wf = true)
    (hw : encode i = some w) : decode w = .ok i := by
  have hs : s ≤ 5#3 := by obtain rfl | rfl | rfl := h <;> exact of_decide_eq_true hwf
  obtain rfl | rfl | rfl | rfl | rfl | rfl := scope_cases hs
  all_goals obtain rfl | rfl | rfl := h
  all_goals cases hw
  all_goals simp (disch := decide) only [decode, decodeSync, reduceIte, major, marked, mark_beq, minor_scope,
    BitVec.extractLsb'_append_eq_of_le, BitVec.extractLsb'_append_eq_of_add_le, Nat.reduceSub, BitVec.extractLsb'_eq_self,
    BitVec.reduceExtractLsb', BitVec.reduceAppend, BitVec.reduceLT,
    BitVec.toNat_ofNat, Nat.reducePow, Nat.reduceMod]
  all_goals
    refine need_of ?_ rfl hwf
    repeat' apply append_and_eq
    all_goals simp only [Nat.reducePow, Nat.reduceDiv, BitVec.reduceOfNat, BitVec.and_zero, BitVec.reduceAnd]

/-- BAR, BARA and BARW: the scope stands in the minor's low bits and is not 0. -/
theorem decode_encode_barrier {w m s i} (h : i = .bar m s ∨ i = .bara m s ∨ i = .barw m s) (hwf : i.wf = true)
    (hw : encode i = some w) : decode w = .ok i := by
  have hs : s ≠ 0#3 ∧ s ≤ 5#3 := by obtain rfl | rfl | rfl := h <;> exact of_decide_eq_true hwf
  have hn : ¬ (s = 0#3 ∨ 5#3 < s) := not_or.mpr ⟨hs.1, BitVec.not_lt.mpr hs.2⟩
  obtain rfl | rfl | rfl := h
  all_goals cases hw
  all_goals simp (disch := decide) only [decode, decodeBar, hn, reduceIte, major, marked, mark_beq,
    BitVec.extractLsb'_append_eq_of_le, BitVec.extractLsb'_append_eq_of_add_le, Nat.reduceSub, BitVec.extractLsb'_eq_self,
    BitVec.reduceExtractLsb', BitVec.toNat_ofNat, Nat.reducePow, Nat.reduceMod]
  all_goals
    refine need_of ?_ rfl hwf
    repeat' apply append_and_eq
    all_goals simp only [Nat.reducePow, Nat.reduceDiv, BitVec.reduceOfNat, BitVec.and_zero, BitVec.reduceAnd]

/-- The words of the majors 0x00 to 0x07. -/
theorem decode_encode_major_00_to_07 {i w} (hwf : i.wf = true) (h : encode i = some w)
    (hlo : 0x00#6 ≤ major w) (hhi : major w ≤ 0x07#6) : decode w = .ok i := by
  cases i
  all_goals cases h
  all_goals simp (disch := decide) only [major, BitVec.extractLsb'_append_eq_of_le,
    BitVec.extractLsb'_append_eq_of_add_le, Nat.reduceSub, BitVec.extractLsb'_eq_self, BitVec.reduceLE] at hlo hhi
  case psw => exact decode_encode_psw hwf rfl
  all_goals simp (disch := decide) only [decode, decodeCtl, reduceIte, major, minor, marked, mark_beq,
    BitVec.extractLsb'_append_eq_of_le, BitVec.extractLsb'_append_eq_of_add_le, Nat.reduceSub, BitVec.extractLsb'_eq_self,
    BitVec.reduceExtractLsb', BitVec.toNat_ofNat, Nat.reducePow, Nat.reduceMod]
  all_goals
    refine need_of ?_ rfl hwf
    repeat' apply append_and_eq
    all_goals simp only [Nat.reducePow, Nat.reduceDiv, BitVec.reduceOfNat, BitVec.and_zero, BitVec.reduceAnd]

/-- The words of the majors 0x08 to 0x0F. -/
theorem decode_encode_major_08_to_0F {i w} (hwf : i.wf = true) (h : encode i = some w)
    (hlo : 0x08#6 ≤ major w) (hhi : major w ≤ 0x0F#6) : decode w = .ok i := by
  cases i
  all_goals cases h
  all_goals simp (disch := decide) only [major, BitVec.extractLsb'_append_eq_of_le,
    BitVec.extractLsb'_append_eq_of_add_le, Nat.reduceSub, BitVec.extractLsb'_eq_self, BitVec.reduceLE] at hlo hhi
  all_goals simp (disch := decide) only [decode, decodeLalu, major, minor, marked, mark_beq,
    BitVec.extractLsb'_append_eq_of_le, BitVec.extractLsb'_append_eq_of_add_le, Nat.reduceSub, BitVec.extractLsb'_eq_self,
    BitVec.reduceExtractLsb', BitVec.toNat_ofNat, Nat.reducePow, Nat.reduceMod]
  all_goals
    refine need_of ?_ rfl hwf
    repeat' apply append_and_eq
    all_goals simp only [Nat.reducePow, Nat.reduceDiv, BitVec.reduceOfNat, BitVec.and_zero, BitVec.reduceAnd]

/-- The words of the majors 0x10 to 0x15. -/
theorem decode_encode_major_10_to_15 {i w} (hwf : i.wf = true) (h : encode i = some w)
    (hlo : 0x10#6 ≤ major w) (hhi : major w ≤ 0x15#6) : decode w = .ok i := by
  cases i
  all_goals cases h
  all_goals simp (disch := decide) only [major, BitVec.extractLsb'_append_eq_of_le,
    BitVec.extractLsb'_append_eq_of_add_le, Nat.reduceSub, BitVec.extractLsb'_eq_self, BitVec.reduceLE] at hlo hhi
  case cmp => exact decode_encode_cmp hwf rfl
  all_goals simp (disch := decide) only [decode, decodeMad, decodeFsfu, decodeLxf, decodePrd, reduceIte, major, minor, marked, mark_beq,
    BitVec.extractLsb'_append_eq_of_le, BitVec.extractLsb'_append_eq_of_add_le, Nat.reduceSub, BitVec.extractLsb'_eq_self,
    BitVec.reduceExtractLsb', BitVec.toNat_ofNat, Nat.reducePow, Nat.reduceMod]
  all_goals
    refine need_of ?_ rfl hwf
    repeat' apply append_and_eq
    all_goals simp only [Nat.reducePow, Nat.reduceDiv, BitVec.reduceOfNat, BitVec.and_zero, BitVec.reduceAnd]

/-- The words of the majors 0x16 to 0x1F. -/
theorem decode_encode_major_16_to_1F {i w} (hwf : i.wf = true) (h : encode i = some w)
    (hlo : 0x16#6 ≤ major w) (hhi : major w ≤ 0x1F#6) : decode w = .ok i := by
  cases i
  all_goals cases h
  all_goals simp (disch := decide) only [major, BitVec.extractLsb'_append_eq_of_le,
    BitVec.extractLsb'_append_eq_of_add_le, Nat.reduceSub, BitVec.extractLsb'_eq_self, BitVec.reduceLE] at hlo hhi
  case gcmp => exact decode_encode_gcmp hwf rfl
  all_goals simp (disch := decide) only [decode, decodeGalu, major, minor, marked, mark_beq,
    BitVec.extractLsb'_append_eq_of_le, BitVec.extractLsb'_append_eq_of_add_le, Nat.reduceSub, BitVec.extractLsb'_eq_self,
    BitVec.reduceExtractLsb', BitVec.toNat_ofNat, Nat.reducePow, Nat.reduceMod]
  all_goals
    refine need_of ?_ rfl hwf
    repeat' apply append_and_eq
    all_goals simp only [Nat.reducePow, Nat.reduceDiv, BitVec.reduceOfNat, BitVec.and_zero, BitVec.reduceAnd]

/-- The words of the majors 0x20 to 0x28. -/
theorem decode_encode_major_20_to_28 {i w} (hwf : i.wf = true) (h : encode i = some w)
    (hlo : 0x20#6 ≤ major w) (hhi : major w ≤ 0x28#6) : decode w = .ok i := by
  cases i
  all_goals cases h
  all_goals simp (disch := decide) only [major, BitVec.extractLsb'_append_eq_of_le,
    BitVec.extractLsb'_append_eq_of_add_le, Nat.reduceSub, BitVec.extractLsb'_eq_self, BitVec.reduceLE] at hlo hhi
  all_goals simp (disch := decide) only [decode, decodeSmem, decodeAtom, decodeFxc, decodePage, decodeDray, reduceIte, major, minor, marked, mark_beq,
    BitVec.extractLsb'_append_eq_of_le, BitVec.extractLsb'_append_eq_of_add_le, Nat.reduceSub, BitVec.extractLsb'_eq_self,
    BitVec.reduceExtractLsb', BitVec.toNat_ofNat, Nat.reducePow, Nat.reduceMod]
  all_goals
    refine need_of ?_ rfl hwf
    repeat' apply append_and_eq
    all_goals simp only [Nat.reducePow, Nat.reduceDiv, BitVec.reduceOfNat, BitVec.and_zero, BitVec.reduceAnd]

/-- The words of the majors 0x2C and 0x30. -/
theorem decode_encode_major_29_to_33 {i w} (hwf : i.wf = true) (h : encode i = some w)
    (hlo : 0x29#6 ≤ major w) (hhi : major w ≤ 0x33#6) : decode w = .ok i := by
  cases i
  all_goals cases h
  all_goals simp (disch := decide) only [major, BitVec.extractLsb'_append_eq_of_le,
    BitVec.extractLsb'_append_eq_of_add_le, Nat.reduceSub, BitVec.extractLsb'_eq_self, BitVec.reduceLE] at hlo hhi
  all_goals simp (disch := decide) only [decode, decodeMatx, decodeView, major, minor, marked, mark_beq,
    BitVec.extractLsb'_append_eq_of_le, BitVec.extractLsb'_append_eq_of_add_le, Nat.reduceSub, BitVec.extractLsb'_eq_self,
    BitVec.reduceExtractLsb', BitVec.toNat_ofNat, Nat.reducePow, Nat.reduceMod]
  all_goals
    refine need_of ?_ rfl hwf
    repeat' apply append_and_eq
    all_goals simp only [Nat.reducePow, Nat.reduceDiv, BitVec.reduceOfNat, BitVec.and_zero, BitVec.reduceAnd]

/-- The words of the majors 0x34 to 0x3D. -/
theorem decode_encode_major_34_to_3F {i w} (hwf : i.wf = true) (h : encode i = some w)
    (hlo : 0x34#6 ≤ major w) (hhi : major w ≤ 0x3F#6) : decode w = .ok i := by
  cases i
  all_goals cases h
  all_goals simp (disch := decide) only [major, BitVec.extractLsb'_append_eq_of_le,
    BitVec.extractLsb'_append_eq_of_add_le, Nat.reduceSub, BitVec.extractLsb'_eq_self, BitVec.reduceLE] at hlo hhi
  case phase => exact decode_encode_scope (.inl rfl) hwf rfl
  case publ => exact decode_encode_scope (.inr (.inl rfl)) hwf rfl
  case refr => exact decode_encode_scope (.inr (.inr rfl)) hwf rfl
  case bar => exact decode_encode_barrier (.inl rfl) hwf rfl
  case bara => exact decode_encode_barrier (.inr (.inl rfl)) hwf rfl
  case barw => exact decode_encode_barrier (.inr (.inr rfl)) hwf rfl
  all_goals simp (disch := decide) only [decode, decodeSync, decodeTask, decodeSys, decodeSreg, major, minor, marked, mark_beq,
    BitVec.extractLsb'_append_eq_of_le, BitVec.extractLsb'_append_eq_of_add_le, Nat.reduceSub, BitVec.extractLsb'_eq_self,
    BitVec.reduceExtractLsb', BitVec.toNat_ofNat, Nat.reducePow, Nat.reduceMod]
  all_goals
    refine need_of ?_ rfl hwf
    repeat' apply append_and_eq
    all_goals simp only [Nat.reducePow, Nat.reduceDiv, BitVec.reduceOfNat, BitVec.and_zero, BitVec.reduceAnd]

/-- Every major stands in one of the ranges above. -/
theorem major_ranges : ∀ c : BitVec 6, (0x00#6 ≤ c ∧ c ≤ 0x07#6) ∨ (0x08#6 ≤ c ∧ c ≤ 0x0F#6) ∨
    (0x10#6 ≤ c ∧ c ≤ 0x15#6) ∨ (0x16#6 ≤ c ∧ c ≤ 0x1F#6) ∨ (0x20#6 ≤ c ∧ c ≤ 0x28#6) ∨
    (0x29#6 ≤ c ∧ c ≤ 0x33#6) ∨ (0x34#6 ≤ c ∧ c ≤ 0x3F#6) := by decide

/-- The word of a well-formed instruction decodes to it. -/
theorem decode_encode {i w} (hwf : i.wf = true) (h : encode i = some w) : decode w = .ok i := by
  obtain hm | hm | hm | hm | hm | hm | hm := major_ranges (major w)
  · exact decode_encode_major_00_to_07 hwf h hm.1 hm.2
  · exact decode_encode_major_08_to_0F hwf h hm.1 hm.2
  · exact decode_encode_major_10_to_15 hwf h hm.1 hm.2
  · exact decode_encode_major_16_to_1F hwf h hm.1 hm.2
  · exact decode_encode_major_20_to_28 hwf h hm.1 hm.2
  · exact decode_encode_major_29_to_33 hwf h hm.1 hm.2
  · exact decode_encode_major_34_to_3F hwf h hm.1 hm.2

/-! ## A word that decodes is the word of the instruction it decodes to -/

theorem mark_marked (w : Word) : mark (marked w) = w.extractLsb' 31 1 := by
  unfold mark marked
  generalize w.extractLsb' 31 1 = b
  revert b; decide

theorem need_ok {w mask pat : Word} {i j : Instr} :
    need w mask pat i = .ok j ↔ w &&& mask = pat ∧ i.wf = true ∧ i = j := by
  unfold need
  (repeat' split) <;> simp_all

theorem fixed_field {w mask pat : Word} (h : w &&& mask = pat) {lo k : Nat}
    (hm : mask.extractLsb' lo k = BitVec.allOnes k) : w.extractLsb' lo k = pat.extractLsb' lo k := by
  rw [← h, BitVec.extractLsb'_and, hm, BitVec.and_allOnes]

theorem extract_extract {n len len' start start': Nat} {x : BitVec n} (h : start' + len' ≤ len):
  (x.extractLsb' start len).extractLsb' start' len' = x.extractLsb' (start + start') len' := by
  apply BitVec.eq_of_getLsbD_eq
  intro i hi
  simp [Nat.add_assoc, hi]; omega

theorem append_eq_iff {k n : Nat} {x : BitVec k} {y : BitVec n} {w : BitVec (k + n)} :
    @Eq (no_index (BitVec (k + n))) (x ++ y) w ↔ x = w.extractLsb' n k ∧ y = w.extractLsb' 0 n := by
  constructor
  · rintro rfl
    exact ⟨BitVec.extractLsb'_append_eq_left.symm, BitVec.extractLsb'_append_eq_right.symm⟩
  · rintro ⟨rfl, rfl⟩
    exact BitVec.extractLsb'_append_extractLsb'

theorem row_ok {w v mask pat : Word} {i j : Instr} (h : need w mask pat i = .ok j) (hv : encode i = some v) (hw : w &&& mask = pat → v = w) : 
   j.wf = true ∧ encode j = some w := by
  obtain ⟨h1, h2, rfl⟩ := need_ok.mp h
  exact ⟨h2, hv.trans (congrArg some (hw h1))⟩

theorem encode_decodeCtl {w i} (h : decodeCtl w = .ok i) : i.wf = true ∧ encode i = some w := by
  unfold decodeCtl at h
  (repeat' split at h)
  all_goals try contradiction
  all_goals
    refine row_ok h rfl fun hf => ?_
    simp (disch := decide) only [append_eq_iff, extract_extract, fixed_field hf, mark_marked]
    decide

theorem encode_decodeLalu {w i} (h : decodeLalu w = .ok i) : i.wf = true ∧ encode i = some w := by
  unfold decodeLalu at h
  split at h
  all_goals try contradiction
  all_goals
    refine row_ok h rfl fun hf => ?_
    simp (disch := decide) only [append_eq_iff, extract_extract, fixed_field hf, mark_marked]
    decide

theorem encode_decodeMad {w i} (h : decodeMad w = .ok i) : i.wf = true ∧ encode i = some w := by
  unfold decodeMad at h
  split at h
  all_goals
    refine row_ok h rfl fun hf => ?_
    simp (disch := decide) only [append_eq_iff, extract_extract, fixed_field hf, mark_marked]
    decide

theorem encode_decodeFsfu {w i} (h : decodeFsfu w = .ok i) : i.wf = true ∧ encode i = some w := by
  unfold decodeFsfu at h
  split at h
  all_goals try contradiction
  all_goals
    refine row_ok h rfl fun hf => ?_
    simp (disch := decide) only [append_eq_iff, extract_extract, fixed_field hf, mark_marked]
    decide

theorem encode_decodeLxf {w i} (h : decodeLxf w = .ok i) : i.wf = true ∧ encode i = some w := by
  unfold decodeLxf at h
  split at h
  all_goals try contradiction
  all_goals
    refine row_ok h rfl fun hf => ?_
    simp (disch := decide) only [append_eq_iff, extract_extract, fixed_field hf, mark_marked]
    decide

theorem encode_decodePrd {w i} (h : decodePrd w = .ok i) : i.wf = true ∧ encode i = some w := by
  unfold decodePrd at h
  split at h
  all_goals try contradiction
  all_goals
    refine row_ok h rfl fun hf => ?_
    simp (disch := decide) only [append_eq_iff, extract_extract, fixed_field hf, mark_marked]
    decide

theorem encode_decodeGalu {w i} (h : decodeGalu w = .ok i) : i.wf = true ∧ encode i = some w := by
  unfold decodeGalu at h
  split at h
  all_goals try contradiction
  all_goals
    refine row_ok h rfl fun hf => ?_
    simp (disch := decide) only [append_eq_iff, extract_extract, fixed_field hf, mark_marked]
    decide

theorem encode_decodeSmem {w i} (h : decodeSmem w = .ok i) : i.wf = true ∧ encode i = some w := by
  unfold decodeSmem at h
  split at h
  all_goals try contradiction
  all_goals
    refine row_ok h rfl fun hf => ?_
    simp (disch := decide) only [append_eq_iff, extract_extract, fixed_field hf, mark_marked]
    decide

theorem encode_decodeAtom {w i} (h : decodeAtom w = .ok i) : i.wf = true ∧ encode i = some w := by
  unfold decodeAtom at h
  split at h
  all_goals
    refine row_ok h rfl fun hf => ?_
    simp (disch := decide) only [append_eq_iff, extract_extract, fixed_field hf, mark_marked]
    decide

theorem encode_decodeFxc {w i} (h : decodeFxc w = .ok i) : i.wf = true ∧ encode i = some w := by
  unfold decodeFxc at h
  split at h
  all_goals try contradiction
  all_goals
    refine row_ok h rfl fun hf => ?_
    simp (disch := decide) only [append_eq_iff, extract_extract, fixed_field hf, mark_marked]
    decide

theorem encode_decodePage {w i} (h : decodePage w = .ok i) : i.wf = true ∧ encode i = some w := by
  unfold decodePage at h
  split at h
  all_goals try contradiction
  all_goals
    refine row_ok h rfl fun hf => ?_
    simp (disch := decide) only [append_eq_iff, extract_extract, fixed_field hf, mark_marked]
    decide

theorem encode_decodeDray {w i} (h : decodeDray w = .ok i) : i.wf = true ∧ encode i = some w := by
  unfold decodeDray at h
  split at h
  all_goals try contradiction
  all_goals
    refine row_ok h rfl fun hf => ?_
    simp (disch := decide) only [append_eq_iff, extract_extract, fixed_field hf, mark_marked]
    decide

theorem encode_decodeMatx {w i} (h : decodeMatx w = .ok i) : i.wf = true ∧ encode i = some w := by
  unfold decodeMatx at h
  split at h
  all_goals try contradiction
  all_goals
    refine row_ok h rfl fun hf => ?_
    simp (disch := decide) only [append_eq_iff, extract_extract, fixed_field hf, mark_marked]
    decide

theorem encode_decodeView {w i} (h : decodeView w = .ok i) : i.wf = true ∧ encode i = some w := by
  unfold decodeView at h
  split at h
  all_goals try contradiction
  all_goals
    refine row_ok h rfl fun hf => ?_
    simp (disch := decide) only [append_eq_iff, extract_extract, fixed_field hf, mark_marked]
    decide

theorem encode_decodeSync {w i} (h : decodeSync w = .ok i) : i.wf = true ∧ encode i = some w := by
  unfold decodeSync at h
  (repeat' split at h)
  all_goals try contradiction
  all_goals
    refine row_ok h rfl fun hf => ?_
    simp (disch := decide) only [append_eq_iff, extract_extract, fixed_field hf, mark_marked]
    decide

theorem encode_decodeBar {w i} (h : decodeBar w = .ok i) : i.wf = true ∧ encode i = some w := by
  unfold decodeBar at h
  (repeat' split at h)
  all_goals try contradiction
  all_goals
    refine row_ok h rfl fun hf => ?_
    simp (disch := decide) only [append_eq_iff, extract_extract, fixed_field hf, mark_marked]
    decide

theorem encode_decodeTask {w i} (h : decodeTask w = .ok i) : i.wf = true ∧ encode i = some w := by
  unfold decodeTask at h
  split at h
  all_goals try contradiction
  all_goals
    refine row_ok h rfl fun hf => ?_
    simp (disch := decide) only [append_eq_iff, extract_extract, fixed_field hf, mark_marked]
    decide

theorem encode_decodeSys {w i} (h : decodeSys w = .ok i) : i.wf = true ∧ encode i = some w := by
  unfold decodeSys at h
  split at h
  all_goals try contradiction
  all_goals
    refine row_ok h rfl fun hf => ?_
    simp (disch := decide) only [append_eq_iff, extract_extract, fixed_field hf, mark_marked]
    decide

theorem encode_decodeSreg {w i} (h : decodeSreg w = .ok i) : i.wf = true ∧ encode i = some w := by
  unfold decodeSreg at h
  split at h
  all_goals try contradiction
  all_goals
    refine row_ok h rfl fun hf => ?_
    simp (disch := decide) only [append_eq_iff, extract_extract, fixed_field hf, mark_marked]
    decide

/-- A word that decodes is the word of the well-formed instruction it decodes to. -/
theorem encode_decode {w i} (h : decode w = .ok i) : i.wf = true ∧ encode i = some w := by
  unfold decode at h
  split at h
  case h_1 => exact encode_decodeCtl h
  case h_9 => exact encode_decodeLalu h
  case h_17 => exact encode_decodeMad h
  case h_18 => exact encode_decodeFsfu h
  case h_20 => exact encode_decodeLxf h
  case h_21 => exact encode_decodePrd h
  case h_25 => exact encode_decodeGalu h
  case h_37 => exact encode_decodeSmem h
  case h_38 => exact encode_decodeAtom h
  case h_39 => exact encode_decodeFxc h
  case h_40 => exact encode_decodePage h
  case h_41 => exact encode_decodeDray h
  case h_42 => exact encode_decodeMatx h
  case h_43 => exact encode_decodeView h
  case h_44 => exact encode_decodeSync h
  case h_45 => exact encode_decodeBar h
  case h_46 => exact encode_decodeTask h
  case h_47 => exact encode_decodeSys h
  case h_48 => exact encode_decodeSreg h
  case h_49 => contradiction
  case' h_22 | h_31 => split at h <;> [skip; contradiction]
  all_goals
    refine row_ok h rfl fun hf => ?_
    simp (disch := decide) only [append_eq_iff, extract_extract, fixed_field hf, mark_marked]
    decide

/-- Settles O4, row by row, each way. -/
theorem roundTrip : Obligations.RoundTrip := by
  unfold Obligations.RoundTrip
  exact ⟨fun _ _ => decode_encode, fun _ _ => encode_decode⟩

end Sys2Proof
end

section
/-! # O3, O6: the printed words, and the state after reset -/

namespace Sys2Proof.Machine

/-- Settles O3: each of the ten words is decoded. -/
theorem decodeWords : Obligations.DecodeWords := by
  unfold Obligations.DecodeWords
  decide

/-- After reset every virtual function, core and quad stands at its reset value: the tables list none (log 3). -/
theorem State.vf_reset (n : Nat) : State.reset.vf n = vfReset n := rfl

/-- A vector of one value reads as it everywhere. -/
theorem vget_replicate {α : Type} {n : Nat} [NeZero n] (x : α) (i : Nat) : vget (Vector.replicate n x) i = x := by
  simp [vget, Vector.get]

/-- Settles O6: the fields of the reset state, the virtual functions' for each number. -/
theorem resetHolds : Obligations.ResetHolds := by
  unfold Obligations.ResetHolds
  refine ⟨rfl, fun _ _ => vget_replicate _ _, rfl, rfl, rfl, fun _ _ => vget_replicate _ _, rfl, rfl, rfl, ?_,
    fun _ => ⟨rfl, rfl, rfl, rfl⟩, fun _ => ⟨rfl, rfl⟩, fun _ _ => vget_replicate _ _, rfl, rfl, fun _ => rfl⟩
  intro n hn _
  have hne : n ≠ 0 := Nat.ne_of_gt hn
  simp [State.vf_reset, vfReset, hne]

end Sys2Proof.Machine
end

section
/-! # O2: no instruction and no step of the device ends in a fault or a refusal

The outcome of every arm is that of a word (`word`) or a next state written out; four arms choose between two. -/

namespace Sys2Proof.Machine

/-- The arms that choose between outcomes choose between next states. -/
theorem execIllegalEncoding_next (w : Word) (s : State) : ∃ t, execIllegalEncoding w s = .next t := by
  unfold execIllegalEncoding
  split <;> exact ⟨_, rfl⟩

theorem execMwait_next (m : Bool) (s : State) : ∃ t, execMwait m s = .next t := by
  unfold execMwait
  split <;> exact ⟨_, rfl⟩

theorem execRunLimit_next (s : State) : ∃ t, execRunLimit s = .next t := by
  unfold execRunLimit
  split <;> exact ⟨_, rfl⟩

theorem execParkEnd_next (s : State) : ∃ t, execParkEnd s = .next t := by
  unfold execParkEnd
  split <;> exact ⟨_, rfl⟩

/-- Every instruction and every step of the device has an effect. -/
theorem exec_next (i : Instr) (s : State) : ∃ t, exec i s = .next t := by
  cases i
  case illegalEncoding w => exact execIllegalEncoding_next w s
  case mwait m => exact execMwait_next m s
  case runLimit => exact execRunLimit_next s
  case parkEnd => exact execParkEnd_next s
  all_goals exact ⟨_, rfl⟩

theorem step_next (s : State) : ∃ t, step s = .next t := by
  unfold step
  split
  case h_1 i rest _ =>
    dsimp only
    split
    · exact ⟨_, rfl⟩
    · exact exec_next i _
  case h_2 | h_3 => exact ⟨_, rfl⟩
  case h_4 =>
    split
    · exact exec_next _ _
    · exact ⟨_, rfl⟩

theorem safeRun (n : Nat) (s : State) : SafeRun n s := by
  induction n generalizing s with
  | zero => trivial
  | succ n ih =>
    obtain ⟨t, ht⟩ := step_next s
    exact ⟨t, ht, ih t⟩

/-- Settles O2: every arm has a next state, so every step has, and a run of any length goes on. -/
theorem runsAreSafe : Obligations.RunsAreSafe := by
  unfold Obligations.RunsAreSafe
  exact ⟨exec_next, safeRun⟩

end Sys2Proof.Machine
end

section
/-! # O1: a step is exec of the instruction its fetched words decode to (R94, R100, R105, R330) -/

namespace Sys2Proof.Machine
variable {s u : State}

/-! ## What a tick moves (logs 1, 4, 69, 81) -/

theorem State.tick_eq (s : State) : s.tick = { s with
    fresh := s.fresh + 1, cores := s.tick.cores, views := s.tick.views
    dev := { s.dev with time := s.tick.dev.time, journal := s.tick.dev.journal } } := by
  unfold State.tick State.keepJournal
  split <;> dsimp only <;> split <;> rfl

theorem State.tick_co (s : State) : s.tick.co = s.co := by rw [State.tick_eq]
theorem State.tick_quads (s : State) : s.tick.quads = s.quads := by rw [State.tick_eq]
theorem State.tick_quad (s : State) (n : Nat) : s.tick.quad n = s.quad n := congrArg (tget quadReset · n) s.tick_quads

theorem State.tick_views (s : State) : s.tick.views = s.views.map s.readsAhead := by
  unfold State.tick
  dsimp only
  split <;> rfl

theorem tget_map_keyed {α : Type} {d : α} {f : Nat → α → α} {k : Nat} (hd : f k d = d) (l : List (Nat × α)) :
    tget d (l.map fun p => (p.1, f p.1 p.2)) k = f k (tget d l k) := by
  induction l with
  | nil => exact hd.symm
  | cons p l ih =>
    rw [List.map_cons, tget, tget, ih]
    split
    · rename_i h
      rw [h]
    · rfl

/-- A core's cache fetches ahead; the focused core's cycles pass while its quad's clock is stable. -/
theorem State.tick_core (s : State) (n : Nat) :
    s.tick.core n = if n = s.co.ident.core ∧ (s.quad (s.co.ident.core / 4)).changing = false then
        { s.prefetched n (s.core n) with
          cycle := (s.prefetched n (s.core n)).cycle + BitVec.ofNat 64 (Config.cycles (s.fresh + 1)) }
      else s.prefetched n (s.core n) := by
  have hmap (n : Nat) : tget coreReset (s.cores.map fun p => (p.1, s.prefetched p.1 p.2)) n = s.prefetched n (s.core n) :=
    tget_map_keyed (f := s.prefetched) (s.prefetched_of_cold n coreReset rfl) s.cores
  have hco : s.keepJournal.co = s.co := by unfold State.keepJournal; split <;> rfl
  have hquads : s.keepJournal.quads = s.quads := by unfold State.keepJournal; split <;> rfl
  unfold State.tick
  simp only [State.quad, hco, hquads]
  split
  · rename_i h
    simp only [h, Bool.true_eq_false, and_false, if_false]
    exact hmap n
  · rename_i h
    rw [State.core_modCore]
    simp only [State.core, hmap, Bool.eq_false_of_not_eq_true h, and_true]
    split
    · rename_i hn
      rw [hn]
    · rfl

theorem State.tick_journal (h : s.dev.leader = none) : s.tick.dev.journal = s.dev.journal := by
  have hk : s.keepJournal = s := by unfold State.keepJournal; rw [h]
  unfold State.tick
  rw [hk]
  dsimp only
  split <;> rfl

theorem State.prefetched_eq (s : State) (n : Nat) (k : Core) : s.prefetched n k =
   if k.warm = true then { k with icache := (s.prefetched n k).icache } else k := by
  unfold State.prefetched
  split
  · rename_i h
    rw [Core.takeCode, h]
  · rfl

theorem State.mem_prefetched {n : Nat} {k : Core} {e : Nat × Nat × Word × Nat} (h : e ∈ (s.prefetched n k).icache) :
   e ∈ k.icache ∨ (e.2.2.1 = s.homeWord e.2.1 ∧ e.2.2.2 = s.fresh ∧ s.poisoned e.2.1 4 = false) := by
  unfold State.prefetched at h
  split at h
  · rw [Core.takeCode_icache] at h
    obtain h | h := List.mem_append.mp (List.mem_of_mem_take h)
    · obtain ⟨p, hp, rfl⟩ := List.mem_map.mp h
      exact .inr ⟨rfl, rfl, by simpa using (List.mem_filter.mp hp).2⟩
    · exact .inl h
  · exact .inl h

/-- A view request's reads before its traversal ends are appended to what it has seen. -/
theorem State.readsAhead_eq (s : State) (v : ViewReq) : ∃ l : List Nat,
    s.readsAhead v = { v with seen := v.seen ++ l.map fun g =>
      (granule g, if s.poisoned (granule g) 4 then none else some (s.homeWord (granule g))) } ∧
    (v.traversed = true ∨ (s.quad v.quad).changing = true → s.readsAhead v = v) := by
  unfold State.readsAhead
  split
  · rename_i h
    exact ⟨[], by simp, fun _ => rfl⟩
  · rename_i h
    exact ⟨_, rfl, fun h' => absurd h' h⟩

/-! ## The words of an offset (R100) -/

/-- The occupied planes are listed once each. -/
theorem Coach.occ_nodup (c : Coach) : c.occ.Nodup := by
  unfold Coach.occ
  dsimp only
  split
  · decide
  · exact List.Nodup.filter _ (by decide)

theorem fetchAll_planes {ps : List (BitVec 2)} {s u : State} {l : List (BitVec 2 × Word)}
    (h : State.fetchAll ps s = (u, .ok l)) : l.map (·.1) = ps := by
  induction ps generalizing s l with
  | nil => cases h; rfl
  | cons p ps ih =>
    unfold State.fetchAll at h
    split at h
    · cases h
    · split at h
      · cases h
      · rename_i hrest
        cases h
        rw [List.map_cons, ih hrest]

theorem fetchOffset_nodup {l : List (BitVec 2 × Word)} (h : s.fetchOffset = (u, .ok l)) : (l.map (·.1)).Nodup := by
  unfold State.fetchOffset at h
  split at h
  · cases h
  · rw [fetchAll_planes h]
    exact s.co.occ_nodup

/-- Words put in their planes' places stand there, where no plane takes two. -/
theorem vget_putWords {l : List (BitVec 2 × Word)} (hl : (l.map (·.1)).Nodup) (v : Vector Word 4) (q : BitVec 2 × Word)
    (hq : q ∈ l) : vget (l.foldl (fun v p => vset v p.1.toNat p.2) v) q.1.toNat = q.2 := by
  have hkeep (l : List (BitVec 2 × Word)) (v : Vector Word 4) (p : BitVec 2) (h : p ∉ l.map (·.1)) :
      vget (l.foldl (fun v p => vset v p.1.toNat p.2) v) p.toNat = vget v p.toNat := by
    induction l generalizing v with
    | nil => rfl
    | cons r l ih =>
      rw [List.map_cons, List.mem_cons, not_or] at h
      rw [List.foldl_cons, ih _ h.2, vget_vset, if_neg]
      rw [Nat.mod_eq_of_lt p.isLt, Nat.mod_eq_of_lt r.1.isLt]
      exact fun e => h.1 (BitVec.eq_of_toNat_eq e)
  induction l generalizing v with
  | nil => cases hq
  | cons r l ih =>
    rw [List.map_cons, List.nodup_cons] at hl
    rw [List.foldl_cons]
    obtain rfl | hq := List.mem_cons.mp hq
    · rw [hkeep l _ _ hl.1, vget_vset, if_pos rfl]
    · exact ih hl.2 _ hq

theorem Coach.wordDue_eq (c : Coach) : c.wordDue = { c with issue := { c.issue with bad := c.wordDue.issue.bad } } := by
  unfold Coach.wordDue
  dsimp only
  split <;> rfl

theorem Coach.wordDue_bad (c : Coach) (h : c.regs.bad = []) : c.wordDue.issue.bad = [] := by
  unfold Coach.wordDue
  dsimp only
  rw [if_pos h]

/-! ## What a step runs -/

/-- With no operation of the array in its core's queue, the coach's word is due. -/
theorem State.due_eq {i : Instr} (hi : s.co.current = i) (hm : ∀ m, i = .mwait m → (s.core s.co.ident.core).queue = []) :
    s.due = i := by
  unfold State.due
  rw [hi]
  dsimp only
  split
  · rename_i m
    rw [hm m rfl, List.any_nil, if_neg Bool.false_ne_true]
  · rfl

theorem step_auto (h : s.schedule = []) {i : Instr} (ha : s.tick.auto = (some i, u)) : step s = exec i u := by
  rw [step, h]
  dsimp only
  rw [ha]

theorem auto_open (h : s.co.issue.phase = .issuing) (ho : s.co.issue.open_ = true)
    (hc : (s.quad (s.co.ident.core / 4)).changing = false) : s.auto = (some s.due, s) := by
  unfold State.auto
  rw [hc, h, ho]
  rfl

theorem auto_start {l : List (BitVec 2 × Word)} (h : s.co.issue.phase = .issuing) (ho : s.co.issue.open_ = false)
    (hn : s.co.issue.count < 24) (hc : (s.quad (s.co.ident.core / 4)).changing = false)
    (hf : s.fetchOffset = (u, .ok l)) (hl : misaligned l = false) :
    s.auto = (some (u.modCo fun c => c.openWith l).due, u.modCo fun c => c.openWith l) := by
  have hopen : s.openOffset = (u.modCo fun c => c.openWith l, true) := by
    unfold State.openOffset
    rw [hf]
    dsimp only
    rw [hl]
    rfl
  unfold State.auto
  rw [hc, h, ho, hopen, if_neg (Nat.not_le.mpr hn)]
  dsimp only
  rw [if_neg (fun e => Bool.false_ne_true e.1), if_neg Bool.false_ne_true]
  have hw : (u.modCo fun c => c.openWith l).co.issue.open_ = true := by
    rw [State.modCo, Coach.openWith, Coach.wordDue_eq]
  rw [hw, if_pos rfl]

theorem fetchWord_miss {p : BitVec 2} {t : State} {home : Nat} {leaf : Dword} {bits : Nat}
    (ht : s.translate s.ctx .fetch (s.co.wordAddr p) = (t, .found home leaf bits))
    (hi : (t.core t.co.ident.core).icache = []) (hp : t.poisoned home 4 = false) :
    (s.fetchWord p).2 = .ok (t.homeWord home) := by
  have hcached (va : Nat) : t.cached va home = none := by
    unfold State.cached
    rw [hi]
    rfl
  unfold State.fetchWord
  dsimp only
  rw [ht]
  dsimp only
  rw [hcached, hp]
  rfl

theorem Coach.current_eq {c : Coach} {w : Word} {i : Instr} (hw : vget c.issue.words c.issue.plane.toNat = w)
    (hi : decode w = .ok i ∨ (∃ e, decode w = .error e) ∧ i = .illegalEncoding w) : c.current = i := by
  unfold Coach.current
  dsimp only
  rw [hw]
  obtain hi | ⟨⟨e, he⟩, rfl⟩ := hi
  · rw [hi]
  · rw [he]

theorem Coach.openWith_words (c : Coach) (l : List (BitVec 2 × Word)) :
    (c.openWith l).issue.words = l.foldl (fun v p => vset v p.1.toNat p.2) c.issue.words := by
  rw [Coach.openWith, Coach.wordDue_eq]

theorem Coach.openWith_eq (c : Coach) {l : List (BitVec 2 × Word)} {p : BitVec 2} {w : Word} (hp : l.head? = some (p, w)) :
    c.openWith l = { c with issue := { c.issue with
      open_ := true, plane := p, todo := if once l then [] else (l.map (·.1)).tail, words := (c.openWith l).issue.words
      bad := (c.openWith l).issue.bad, next := c.issue.off + 1 } } := by
  obtain ⟨_, rfl⟩ : ∃ l', l = (p, w) :: l' := List.head?_eq_some_iff.mp hp
  rw [Coach.openWith, Coach.wordDue_eq]
  rfl

theorem step_start {l : List (BitVec 2 × Word)} {p : BitVec 2} {w : Word} {i : Instr} (hs : s.schedule = [])
    (h : s.co.issue.phase = .issuing) (ho : s.co.issue.open_ = false) (hn : s.co.issue.count < 24)
    (hc : (s.quad (s.co.ident.core / 4)).changing = false) (hf : s.tick.fetchOffset = (u, .ok l))
    (hp : l.head? = some (p, w)) (hl : misaligned l = false)
    (hi : decode w = .ok i ∨ (∃ e, decode w = .error e) ∧ i = .illegalEncoding w)
    (hm : ∀ m, i = .mwait m → (u.core u.co.ident.core).queue = []) :
    step s = exec i (u.modCo fun c => c.openWith l) := by
  have hw : vget (u.co.openWith l).issue.words (u.co.openWith l).issue.plane.toNat = w := by
    rw [Coach.openWith_eq _ hp]
    dsimp only
    rw [Coach.openWith_words]
    exact vget_putWords (fetchOffset_nodup hf) _ (p, w) (List.mem_of_mem_head? hp)
  have hid : (u.co.openWith l).ident = u.co.ident := by rw [Coach.openWith_eq _ hp]
  have hdue : (u.modCo fun c => c.openWith l).due = i := State.due_eq (Coach.current_eq hw hi) fun m e => by
    rw [State.modCo, hid]
    exact hm m e
  refine step_auto hs ?_
  rw [auto_start (by rwa [s.tick_co]) (by rwa [s.tick_co]) (by rwa [s.tick_co]) (by rwa [s.tick_co, s.tick_quad]) hf hl, hdue]

theorem step_open {i : Instr} (hs : s.schedule = []) (h : s.co.issue.phase = .issuing) (ho : s.co.issue.open_ = true)
    (hc : (s.quad (s.co.ident.core / 4)).changing = false)
    (hi : decode (vget s.co.issue.words s.co.issue.plane.toNat) = .ok i)
    (hm : ∀ m, i = .mwait m → (s.core s.co.ident.core).queue = []) : step s = exec i s.tick := by
  have hqueue (n : Nat) : (s.tick.core n).queue = (s.core n).queue := by
    rw [State.tick_core, State.prefetched_eq]
    split <;> split <;> rfl
  have hdue : s.tick.due = i := by
    refine State.due_eq (Coach.current_eq rfl (.inl ?_)) fun m e => ?_
    · rwa [s.tick_co]
    · rw [hqueue, s.tick_co, hm m e]
  refine step_auto hs ?_
  rw [auto_open (by rwa [s.tick_co]) (by rwa [s.tick_co]) (by rwa [s.tick_co, s.tick_quad]), hdue]

/-- A tick leaves a core as it was, but for what a warm core's cache takes in and the focused core's cycles. -/
theorem State.tick_core_kept (s : State) (n : Nat) :
    let k : Core := if (s.core n).warm = true then { s.core n with icache := (s.tick.core n).icache } else s.core n
    s.tick.core n = if n = s.co.ident.core then { k with cycle := (s.tick.core n).cycle } else k := by
  rw [State.tick_core, State.prefetched_eq]
  dsimp only
  split
  · rename_i h
    rw [if_pos h.1]
    split <;> rfl
  · split <;> split <;> rfl

/-- Settles O1: what is due is decoded from the word fetched, and a tick moves only the counters, the caches, the
views' reads and the journal. -/
theorem stepRunsDecoded : Obligations.StepRunsDecoded := by
  unfold Obligations.StepRunsDecoded
  refine ⟨?_, ?_, ?_, ?_, ?_, ?_⟩
  · intro s u l p w i hs h ho hn hc hf hp hl hi hm
    refine ⟨_, step_start hs h ho hn hc hf hp hl hi hm, ?_, fun hb => Coach.wordDue_bad _ hb, ?_⟩
    · exact congrArg (fun c => { u with co := c }) (u.co.openWith_eq hp)
    · intro q hq
      exact (congrArg (vget · q.1.toNat) (u.co.openWith_words l)).trans (vget_putWords (fetchOffset_nodup hf) _ q hq)
  · exact fun s i hs h ho hc hi hm => step_open hs h ho hc hi hm
  · intro s t p home leaf bits ht hi hp hh
    refine ⟨_, fetchWord_miss ht hi hp, ?_⟩
    rw [State.homeWord, hh]
  · intro s i rest hs hi
    rw [step, hs]
    dsimp only
    rw [hi, if_neg Bool.false_ne_true]
  · intro s n rest hs
    rw [step, hs]
  · intro s
    have hcycle (n : Nat) : (s.prefetched n (s.core n)).cycle = (s.core n).cycle := by
      rw [State.prefetched_eq]
      split <;> rfl
    refine ⟨s.tick_eq, fun hc => ?_, by rw [s.tick_views, List.length_map], ?_, s.tick_journal, fun n => ⟨?_, fun e he => ?_⟩⟩
    · rw [State.tick_core, hc, if_neg (fun e => Bool.noConfusion e.2), hcycle]
    · intro i v w hv hw
      rw [s.tick_views, List.getElem?_map, hv, Option.map_some, Option.some.injEq] at hw
      exact hw ▸ s.readsAhead_eq v
    · exact s.tick_core_kept n
    · refine s.mem_prefetched (n := n) ?_
      rw [State.tick_core] at he
      split at he <;> exact he
end Sys2Proof.Machine
end

section
/-! # O13, O14: the compares, and typed words under a type they do not accept (R93, R98, R106, R154, R174) -/

namespace Sys2Proof.Machine
variable {s : State}

/-! ## Typed words (R98, R105) -/

theorem State.typed_of_le {i : Instr} {n : Nat} {f : State → State} (h : n ≤ s.co.type.toNat) :
    s.typed i n f = s.trapPlane (causeIll subType i.word) := if_pos h

theorem State.typed_of_lt {i : Instr} {n : Nat} {f : State → State} (h : s.co.type.toNat < n) : s.typed i n f = f s :=
  if_neg (Nat.not_le.mpr h)

theorem Records.of_trapPlane {r : State} {k : Cause} (h : r = s.trapPlane k) : Records s r s.co.planeLanes k :=
  h ▸ s.trapPlane_spec k

theorem State.special_traps {i : Instr} {d a : BitVec 6} {f : BitVec 2 → Nat → Nat → Nat × Flags}
    (h : s.co.type.toNat < 6 ∨ 9 ≤ s.co.type.toNat) : s.special i d a f = s.trapPlane (causeIll subType i.word) := by
  unfold State.special
  obtain h | h := h
  · rw [if_pos h]
  · rw [if_neg (by omega), State.typed_of_le h]

/-- Settles O14: each of the words asks for its types before it has an effect. -/
theorem typeTraps : Obligations.TypeTraps := by
  unfold Obligations.TypeTraps
  refine ⟨?_, ?_, ?_, ?_, ?_, ?_, ?_, ?_⟩
  · simp only [List.forall_mem_cons, List.not_mem_nil, false_implies, implies_true, and_true]
    refine ⟨?_, ?_, ?_, ?_, ?_, ?_, ?_, ?_⟩ <;> (intro m d a b s h; exact ⟨_, rfl, .of_trapPlane (State.typed_of_le h)⟩)
  · simp only [List.forall_mem_cons, List.not_mem_nil, false_implies, implies_true, and_true]
    refine ⟨?_, ?_, ?_, ?_, ?_, ?_, ?_, ?_, ?_⟩ <;> (intro m d a s h; exact ⟨_, rfl, .of_trapPlane (State.special_traps h)⟩)
  · simp only [List.forall_mem_cons, List.not_mem_nil, false_implies, implies_true, and_true]
    refine ⟨?_, ?_⟩ <;> (intro m d a s h; exact ⟨_, rfl, .of_trapPlane (State.typed_of_le h)⟩)
  · simp only [List.forall_mem_cons, List.not_mem_nil, false_implies, implies_true, and_true]
    refine ⟨?_, ?_⟩ <;> (intro m d a b c s h; exact ⟨_, rfl, .of_trapPlane (State.typed_of_le h)⟩)
  · intro m d a i s h
    exact ⟨_, rfl, .of_trapPlane (State.typed_of_le h)⟩
  · intro m d a b s h
    refine ⟨_, rfl, .of_trapPlane ?_⟩
    obtain h | h := h
    · exact if_pos h
    · exact (if_neg (by omega)).trans (State.typed_of_le h)
  · intro m d a b c s h
    refine ⟨_, rfl, .of_trapPlane ?_⟩
    dsimp only
    split
    · rfl
    · exact State.typed_of_le (h.resolve_left ‹_›)
  · intro m d a c i s h
    refine ⟨_, rfl, .of_trapPlane ?_⟩
    dsimp only
    split
    · rfl
    · exact State.typed_of_le (h.resolve_left ‹_›)

/-! ## Conditions (R154, R174) -/

theorem cond_cases : ∀ c : BitVec 3, c = 0 ∨ c = 1 ∨ c = 2 ∨ c = 3 ∨ c = 4 ∨ c = 5 ∨ c = 6 ∨ c = 7 := by decide

theorem intCond_eq (c : BitVec 3) (x y : Int) : intCond c x y =
    if c = 0 then decide (x = y) else if c = 1 then decide (x ≠ y) else if c = 2 then decide (x < y)
    else if c = 3 then decide (x ≤ y) else if c = 4 then decide (y < x) else decide (y ≤ x) := by
  obtain rfl | rfl | rfl | rfl | rfl | rfl | rfl | rfl := cond_cases c
  case inr.inl => exact (decide_not).symm
  all_goals rfl

theorem fcmp_fst (n : Nat) (c : BitVec 3) (x y : Nat) :
    let un := (unpack n x).isNan || (unpack n y).isNan
    let o := fcmpVal (unpack n x) (unpack n y)
    (fcmp n c x y).1 = (if c = 0 then !un && o == .eq else if c = 1 then un || o != .eq else if c = 2 then !un && o == .lt
      else if c = 3 then !un && o != .gt else if c = 4 then !un && o == .gt else if c = 5 then !un && o != .lt
      else if c = 6 then !un else un) := by
  obtain rfl | rfl | rfl | rfl | rfl | rfl | rfl | rfl := cond_cases c <;> rfl

theorem fcmp_snd (n : Nat) (c : BitVec 3) (x y : Nat) :
    (fcmp n c x y).2 = if 2 ≤ c.toNat ∧ c.toNat < 6 then
      (if ((unpack n x).isNan || (unpack n y).isNan) = true then flagNV else 0)
      else sigFlag (unpack n x) ||| sigFlag (unpack n y) := by
  have hb (u : Bool) : (bif u then flagNV else 0) = if u = true then flagNV else 0 := by cases u <;> rfl
  rw [← hb]
  obtain rfl | rfl | rfl | rfl | rfl | rfl | rfl | rfl := cond_cases c <;> rfl

/-! ## What a compare writes -/

/-- A predicate written with no flag raised is written alone. -/
theorem WritesKF.noFlags {r : State} {d : BitVec 5} {x : LaneMask} (h : WritesKF s r d x fun _ => 0) : WritesK s r d x := by
  obtain ⟨hr, hk, hf⟩ := h
  have hflags : r.co.special.fflags = s.co.special.fflags := by
    refine BitVec.eq_of_getLsbD_eq fun b _ => ?_
    rw [hf b]
    simp
  refine ⟨hr.trans ?_, hk⟩
  rw [hflags]

/-- A write to k0 is discarded (R93). -/
theorem WritesK.k0 (s : State) (x : LaneMask) : WritesK s s 0 x := ⟨rfl, fun j l => by simp⟩

theorem WritesK.congr {r : State} {d : BitVec 5} {f g : Nat → Bool} (h : WritesK s r d (laneMask f)) (e : ∀ l, f l = g l) :
    WritesK s r d (laneMask g) := funext e ▸ h

/-- The lane of a CMP, with its flags: what `execCmp` writes where the type and the condition agree. -/
def Coach.cmpLane (k : Coach) (c : BitVec 3) (a b : BitVec 6) (l : Nat) : Bool × BitVec 5 :=
  if k.type.toNat < 6 then (intCond c (intIn k.type (k.vreg a.toNat l)) (intIn k.type (k.vreg b.toNat l)), 0)
  else if k.type = 6 then fcmp 23 c (k.vreg a.toNat l).toNat (k.vreg b.toNat l).toNat
  else fcmp 7 c ((k.vreg a.toNat l).toNat % 65536) ((k.vreg b.toNat l).toNat % 65536)

theorem exec_cmp {m d a b c} (h : c.toNat < 6 ∨ 6 ≤ s.co.type.toNat) (ht : s.co.type.toNat < 8) :
    exec (.cmp m d a b c) s =
      .next ((if d = 0 then s else s.lanePredF d fun k l => k.cmpLane c a b l).finishWord m) := by
  rw [exec, execCmp, word]
  dsimp only
  rw [if_neg (by omega), State.typed_of_lt ht]
  rfl

theorem exec_cmpi {m d a c i} (h : c.toNat < 6) (ht : s.co.type.toNat < 6) :
    exec (.cmpi m d a c i) s =
      .next ((s.lanePred d fun k l => intCond c (intIn k.type (k.vreg a.toNat l)) i.toInt).finishWord m) := by
  rw [exec, execCmpi, word]
  dsimp only
  rw [if_neg (by omega), State.typed_of_lt ht]

theorem Coach.cmpLane_int {k : Coach} {c a b l} (ht : k.type.toNat < 6) : k.cmpLane c a b l =
    (intCond c (intIn k.type (k.vreg a.toNat l)) (intIn k.type (k.vreg b.toNat l)), 0) := if_pos ht

theorem Coach.cmpLane_f32 {k : Coach} {c a b l} (ht : k.type = 6) : k.cmpLane c a b l =
    fcmp 23 c (k.vreg a.toNat l).toNat (k.vreg b.toNat l).toNat := by
  rw [Coach.cmpLane, ht]
  rfl

theorem Coach.cmpLane_bf16 {k : Coach} {c a b l} (ht : k.type = 7) : k.cmpLane c a b l =
    fcmp 7 c ((k.vreg a.toNat l).toNat % 65536) ((k.vreg b.toNat l).toNat % 65536) := by
  rw [Coach.cmpLane, ht]
  rfl

/-- Settles O13: the lane of a compare under each type, written without flags under an integer type. -/
theorem compareResults : Obligations.CompareResults := by
  unfold Obligations.CompareResults
  refine ⟨?_, ?_, ?_, ?_⟩
  · intro m d a b c s hc ht
    refine ⟨_, exec_cmp (.inl hc) (by omega), ?_⟩
    by_cases hd : d = 0
    · rw [if_pos hd, hd]
      exact WritesK.k0 s _
    · rw [if_neg hd]
      have h := s.lanePredF_spec d fun k l => k.cmpLane c a b l
      simp only [Coach.cmpLane_int ht] at h
      exact h.noFlags.congr fun l => intCond_eq c _ _
  · intro m d a c i s hc ht
    exact ⟨_, exec_cmpi hc ht, (s.lanePred_spec d _).congr fun l => intCond_eq c _ _⟩
  · exact fun m a b c s ht hc => exec_cmp hc ht
  · intro m d a b c s hd ht
    have hlt : s.co.type.toNat < 8 ∧ 6 ≤ s.co.type.toNat := by obtain ht | ht := ht <;> rw [ht] <;> decide
    refine ⟨_, exec_cmp (.inr hlt.2) hlt.1, fun l => s.co.cmpLane c a b l, ?_, fun l => ?_⟩
    · rw [if_neg hd]
      exact s.lanePredF_spec d fun k l => k.cmpLane c a b l
    · dsimp only
      obtain ht | ht := ht
      · rw [Coach.cmpLane_f32 ht, ht]
        exact ⟨fcmp_fst .., fcmp_snd ..⟩
      · rw [Coach.cmpLane_bf16 ht, ht]
        exact ⟨fcmp_fst .., fcmp_snd ..⟩

end Sys2Proof.Machine
end

section
/-! # O24: MODE, EXM, PLANE and the identity words (R97, R125 to R129, R131; log 39) -/

namespace Sys2Proof.Machine
variable {s : State}

/-! ## Modes (R125, R126) -/

/-- A mode is set in the issuing plane alone. -/
theorem Coach.setMode_modes (c : Coach) (x : Word) (q : Nat) (hq : q < 4) :
    vget (c.setMode x).masks.modes q = if q = c.issue.plane.toNat then x else vget c.masks.modes q := by
  rw [Coach.setMode, vget_vset, Nat.mod_eq_of_lt hq, Nat.mod_eq_of_lt c.issue.plane.isLt]

theorem modeBad_eq (x : Dword) : modeBad x =
    if x.toNat / 2 ^ 25 ≠ 0 ∨ x.toNat % 64 ≠ 0 then some subField
    else if 9 ≤ x.toNat / 2 ^ 15 % 16 then some subType else none := by
  have hx := x.isLt
  have hhi : x.extractLsb' 25 39 ≠ 0 ↔ x.toNat / 2 ^ 25 ≠ 0 := by
    rw [ne_eq, ← BitVec.toNat_inj, BitVec.extractLsb'_toNat, Nat.shiftRight_eq_div_pow, Nat.mod_eq_of_lt (by omega)]
    rfl
  have hlo : x.extractLsb' 0 6 ≠ 0 ↔ x.toNat % 64 ≠ 0 := by
    rw [ne_eq, ← BitVec.toNat_inj, BitVec.extractLsb'_toNat, Nat.shiftRight_zero]
    rfl
  have htype : (x.extractLsb' 15 4).toNat = x.toNat / 2 ^ 15 % 16 := by
    rw [BitVec.extractLsb'_toNat, Nat.shiftRight_eq_div_pow]
  unfold modeBad
  simp only [hhi, hlo, htype]

theorem extract_low {n : Nat} (x : BitVec n) (k : Nat) : x.extractLsb' 0 k = x.truncate k := by
  apply BitVec.eq_of_getLsbD_eq
  intro i hi
  simp [hi]

/-! ## Planes (R128, R129) -/

/-- Lanes moved to the planes that f names stand there, the others where they stood. -/
theorem vget_moveLanes (f : Nat → BitVec 2) (l : List Nat) (hl : ∀ k ∈ l, k < 32) (v : Vector (BitVec 2) 32) (k : Nat)
    (hk : k < 32) : vget (l.foldl (fun v n => vset v n (f n)) v) k = if k ∈ l then f k else vget v k := by
  induction l generalizing v with
  | nil => rfl
  | cons n l ih =>
    have hn : n < 32 := hl n List.mem_cons_self
    rw [List.foldl_cons, ih fun j hj => hl j (List.mem_cons_of_mem n hj)]
    simp only [vget_vset, Nat.mod_eq_of_lt hk, Nat.mod_eq_of_lt hn, List.mem_cons]
    by_cases hkn : k = n
    · simp [hkn]
    · simp [hkn]

/-- The cause that a list of lanes, each with its own, gives a lane. -/
theorem find_ownCauses (l : List Nat) (g : Nat → Cause) (n : Nat) :
    ((l.map fun k => (k, g k)).find? fun p => p.1 == n).map (·.2) = if n ∈ l then some (g n) else none := by
  induction l with
  | nil => rfl
  | cons k l ih =>
    rw [List.map_cons, List.find?_cons]
    by_cases hk : k = n
    · simp [hk]
    · simp only [beq_eq_false_iff_ne.mpr hk, ih, List.mem_cons, Ne.symm hk, false_or]

/-- The EXM lanes that a word which switches planes moves or traps: those that read no erroneous register (log 39). -/
theorem mem_switchLanes (c : Coach) (l : Nat) :
    l ∈ (lanesOf c.masks.exm).filter (fun l => c.issue.bad.all fun q => q.1 != l) ↔
      c.masks.exm.getLsbD l = true ∧ ∀ q ∈ c.issue.bad, q.1 ≠ l := by
  simp [mem_lanesOf]

theorem State.switch_eq (s : State) (f : Coach → Nat → Word) :
    s.switch f = { s with co := { s.co with
      masks := { s.co.masks with plane := (s.switch f).co.masks.plane }
      issue := { s.co.issue with traps := (s.switch f).co.issue.traps } } } := rfl

/-- PSW and PSWI: a lane whose plane exists moves, another records PRANGE. -/
theorem State.switch_lane (s : State) (f : Coach → Nat → Word) (l : Nat) (hl : l < 32) :
    let n := s.co.segs.seg.plm1.toNat + 1
    let on := s.co.masks.exm.getLsbD l = true ∧ ∀ q ∈ s.co.issue.bad, q.1 ≠ l
    (s.switch f).co.planeOf l = (if on ∧ (f s.co l).toNat < n then (f s.co l).truncate 2 else s.co.planeOf l) ∧
    (s.switch f).co.causeOf l =
      (s.co.causeOf l).or (if on ∧ n ≤ (f s.co l).toNat then some (causeWord cPrange (f s.co l)) else none) := by
  have hlt : ∀ k ∈ ((lanesOf s.co.masks.exm).filter fun l => s.co.issue.bad.all fun q => q.1 != l).filter
      (fun l => (f s.co l).toNat < s.co.segs.seg.plm1.toNat + 1), k < 32 := fun k hk =>
    BitVec.lt_of_getLsbD ((mem_switchLanes s.co k).mp (List.mem_of_mem_filter hk)).1
  constructor
  · refine (vget_moveLanes (fun l => (f s.co l).extractLsb' 0 2) _ hlt _ l hl).trans ?_
    simp only [List.mem_filter, ← mem_switchLanes, decide_eq_true_eq, extract_low]
    rfl
  · refine (Coach.causeOf_raise _ _ l).trans (congrArg _ ?_)
    rw [find_ownCauses]
    simp only [List.mem_filter, ← mem_switchLanes, decide_eq_true_eq]

/-- The planes of a list, one bit each. -/
theorem getLsbD_planeBits (l : List (BitVec 2)) (x : Word) (q : Nat) :
    (l.foldl (fun a q => a ||| (1#32 <<< q.toNat)) x).getLsbD q = (x.getLsbD q || l.any fun y => y.toNat == q) := by
  induction l generalizing x with
  | nil => simp
  | cons p l ih =>
    have hp := p.isLt
    have hbit : (1#32 <<< p.toNat).getLsbD q = (p.toNat == q) := by
      rw [BitVec.getLsbD_shiftLeft, BitVec.getLsbD_one, Bool.eq_iff_iff]
      simp
      omega
    rw [List.foldl_cons, ih, BitVec.getLsbD_or, hbit, List.any_cons, Bool.or_assoc]

/-- The identity words of a coach whose haul is known (R131). -/
theorem State.idsValue_eq (s : State) {h : Haul} (hh : s.haul? s.co.ident.haul = some h) {k : Nat} (hk : k < 8) :
    let i := s.co.ident
    s.idsValue k = BitVec.ofNat 64 ([i.cidx, i.rake, h.launchNo.toNat, i.core, i.core / 4, i.core / 64, i.level,
      i.slot + 32 * i.port].getD k 0) := by
  unfold State.idsValue
  dsimp only
  rw [hh]
  match k, hk with
  | 0, _ | 1, _ | 2, _ | 3, _ | 4, _ | 5, _ | 6, _ | 7, _ => rfl

/-- Settles O24: what each word does to the modes, the lanes in execution and their planes, and what it reads. -/
theorem modeAndMaskResults : Obligations.ModeAndMaskResults := by
  unfold Obligations.ModeAndMaskResults
  refine ⟨⟨?_, ?_, ?_⟩, ?_, ?_, ?_, ?_, ?_, ?_, ?_⟩
  · intro m g n t r sa p e s
    refine ⟨_, rfl, ?_⟩
    dsimp only
    split
    · exact s.trapPlane_spec _
    · exact ⟨rfl, s.co.setMode_modes _⟩
  · intro m a s
    refine ⟨_, rfl, ?_⟩
    dsimp only
    rw [modeBad_eq]
    split
    · exact s.trapPlane_spec _
    · split
      · exact s.trapPlane_spec _
      · exact ⟨rfl, fun q hq => extract_low _ _ ▸ s.co.setMode_modes _ q hq⟩
  · exact fun m d s => ⟨_, rfl, s.group_spec d _⟩
  · exact fun m a s => ⟨_, rfl, by rw [← extract_low]; rfl⟩
  · exact fun m d s => ⟨_, rfl, s.group_spec d _⟩
  · exact fun m a s => ⟨_, rfl, by rw [← extract_low]; rfl⟩
  · rintro i m s x (⟨a, rfl, rfl⟩ | ⟨p, rfl, rfl⟩)
    · exact ⟨_, rfl, s.switch_eq _, fun l hl => s.switch_lane (fun c l => c.vreg a.toNat l) l hl⟩
    · exact ⟨_, rfl, s.switch_eq _, fun l hl => s.switch_lane (fun _ _ => zext32 p) l hl⟩
  · intro m d p s
    refine ⟨_, _, rfl, s.group_spec d _, fun l hl => ?_, fun q hq => ?_⟩
    · dsimp only
      rw [BitVec.getLsbD_append, if_pos hl]
      by_cases hp : s.co.segs.seg.plm1.toNat < p.toNat
      · simp [hp]
      · rw [if_neg hp, Coach.inPlane, getLsbD_laneMask]
        simp [hl, Nat.le_of_not_lt hp]
        rfl
    · dsimp only
      rw [BitVec.getLsbD_append, if_neg (by omega), Nat.add_sub_cancel_left, getLsbD_planeBits]
      exact congrArg (· || _) BitVec.getLsbD_zero
  · intro m d k s hk
    refine ⟨_, rfl, .of_trapPlane ?_⟩
    exact if_pos hk
  · intro m d k s h hk hh
    refine ⟨_, rfl, ?_⟩
    dsimp only
    rw [if_neg (Nat.not_le.mpr hk), ← s.idsValue_eq hh hk]
    exact s.group_spec d _

end Sys2Proof.Machine
end

section
/-! # O44: what follows a word (R94, R100, R112, R117, R119, R332, R349, R381; logs 24, 64)

The end of an offset is written out once, with nothing recorded (`State.pastOffset`) and with a cause recorded
(`State.trapped`); what a park does with no result outstanding follows from it. -/

namespace Sys2Proof.Machine
variable {s : State} {m : Bool}

/-! ## The offset's writes of the table bases come into force (R349) -/

/-- The virtual functions once writes of S2BASE have come into force, in their order. -/
def withS2bases (vfs : List (Nat × Vf)) (l : List (Nat × Dword)) : List (Nat × Vf) :=
  l.foldl (fun v p => tset v p.1 { tget (vfReset p.1) v p.1 with s2base := p.2 }) vfs

theorem State.foldl_setS2base (l : List (Nat × Dword)) (s : State) :
    l.foldl (fun s p => s.modVf p.1 fun v => { v with s2base := p.2 }) s = { s with vfs := withS2bases s.vfs l } := by
  induction l generalizing s with
  | nil => rfl
  | cons p l ih =>
    rw [List.foldl_cons, ih]
    rfl

/-- The special registers once the writes of the offset have come into force. -/
def Coach.committed (c : Coach) : Special :=
  { c.special with asid := c.issue.newAsid.getD c.special.asid, ptbase := c.issue.newRoot.getD c.special.ptbase }

theorem State.commitBases_eq (s : State) : s.commitBases = { s with
    vfs := withS2bases s.vfs s.co.issue.newS2
    co := { s.co with special := s.co.committed, issue := { s.co.issue with newAsid := none, newRoot := none, newS2 := [] } } } := by
  rw [State.commitBases]
  dsimp only
  rw [State.foldl_setS2base]
  rfl

/-! ## The last word of an offset -/

theorem State.finishWord_halted (h : s.co.issue.phase = .halted) : s.finishWord m = s := if_pos h

theorem State.finishWord_next {p : BitVec 2} {ps : List (BitVec 2)} (h : s.co.issue.phase ≠ .halted)
    (ht : s.co.issue.todo = p :: ps) : s.finishWord m = { s with co :=
      ({ s.co with issue := { s.co.issue with
          traps := (s.co.raise s.co.issue.bad).issue.traps, marked := s.co.issue.marked || m, bad := [], plane := p
          todo := ps } } : Coach).wordDue } := by
  rw [State.finishWord, if_neg h]
  dsimp only [State.modCo, Coach.raise]
  rw [ht]

/-- The coach past an offset at which nothing was recorded: it stands at NEXT. -/
def State.pastOffset (m : Bool) (s : State) : State :=
  { s with
    vfs := withS2bases s.vfs s.co.issue.newS2
    co := { s.co with
      special := s.co.committed
      issue := { s.co.issue with
        marked := s.co.issue.marked || m, open_ := false, count := s.co.issue.count + 1, off := s.co.issue.next, rex := none
        newAsid := none, newRoot := none, newS2 := [] } } }

/-- The coach at the end of an offset at which a cause was recorded. -/
def State.trapped (m : Bool) (s : State) : State :=
  { s with
    vfs := withS2bases s.vfs s.co.issue.newS2
    co := { s.co with
      special := s.co.committed
      issue := { s.co.issue with
        traps := (s.co.raise s.co.issue.bad).issue.traps, bad := []
        marked := s.co.issue.marked || m, open_ := false, count := s.co.issue.count + 1
        newAsid := none, newRoot := none, newS2 := [] } } }

theorem State.finishWord_last (h : s.co.issue.phase ≠ .halted) (ht : s.co.issue.todo = []) :
    s.finishWord m = if (s.trapped m).co.issue.traps ≠ [] ∨ (s.trapped m).co.issue.bare ≠ none then (s.trapped m).park
      else
        let t := (s.trapped m).modCo fun c => { c with issue := { c.issue with off := s.co.issue.next, rex := none } }
        if s.co.issue.wait = .tret then t.park
        else if (s.co.issue.marked || m) ∨ s.co.issue.ends then t.endOfRun else t := by
  rw [State.finishWord, if_neg h]
  dsimp only
  split
  · rename_i htodo
    exact absurd (ht.symm.trans htodo) (by simp)
  · rw [State.endOffset, State.commitBases_eq]
    rfl

theorem State.finishWord_clear (h : s.co.issue.phase ≠ .halted) (ht : s.co.issue.todo = []) (hx : s.co.issue.traps = [])
    (hb : s.co.issue.bare = none) (he : s.co.issue.bad = []) (hw : s.co.issue.wait ≠ .tret) :
    s.finishWord m = if (s.co.issue.marked || m || s.co.issue.ends) = true then (s.pastOffset m).endOfRun
      else s.pastOffset m := by
  have hraise : (s.co.raise s.co.issue.bad).issue.traps = s.co.issue.traps := by rw [he]; rfl
  have hpast : (s.trapped m).modCo (fun c => { c with issue := { c.issue with off := s.co.issue.next, rex := none } }) =
      s.pastOffset m :=
    congrArg₂ (fun a b => { s.pastOffset m with co := { (s.pastOffset m).co with issue := {
      (s.pastOffset m).co.issue with traps := a, bad := b } } }) hraise he.symm
  rw [State.finishWord_last h ht, if_neg]
  · dsimp only
    rw [hpast, if_neg hw]
    simp only [Bool.or_eq_true]
  · simp [State.trapped, hraise, hx, hb]

theorem Coach.raise_traps_ne (c : Coach) (l : List (Nat × Cause)) (h : c.issue.traps ≠ [] ∨ l ≠ []) :
    (c.raise l).issue.traps ≠ [] := by
  have hkeep (l : List (Nat × Cause)) : ∀ ts, ts ≠ [] → l.foldl (fun ts p =>
      if ts.any (fun q => q.1 == p.1) then ts else ts ++ [p]) ts ≠ [] := by
    induction l with
    | nil => exact fun ts h => h
    | cons p l ih =>
      intro ts h
      refine ih _ ?_
      dsimp only
      split <;> simp [h]
  cases l with
  | nil => exact h.resolve_right fun h => h rfl
  | cons p l =>
    refine hkeep l _ ?_
    dsimp only
    split
    · rename_i hany
      rintro hnil
      rw [hnil] at hany
      cases hany
    · simp

/-- A cause recorded, or an error in a register that a lane read, stands at the end of the offset. -/
theorem State.trapped_causes (hx : s.co.issue.traps ≠ [] ∨ s.co.issue.bare ≠ none ∨ s.co.issue.bad ≠ []) :
    (s.trapped m).co.issue.traps ≠ [] ∨ (s.trapped m).co.issue.bare ≠ none := by
  obtain hx | hx | hx := hx
  · exact .inl (s.co.raise_traps_ne _ (.inl hx))
  · exact .inr hx
  · exact .inl (s.co.raise_traps_ne _ (.inr hx))

/-! ## A park with no result outstanding (R112, R117, R332) -/

theorem State.landAll_nothing (h : s.co.issue.deferred = []) : s.landAll = s := by
  have hi : ({ s.co.issue with deferred := [] } : Issue) = s.co.issue := by rw [← h]
  rw [State.landAll, h]
  dsimp only [List.foldl_nil, State.modCo]
  rw [hi]

theorem State.moveGroups_nothing (hs : s.co.issue.spill = []) (hr : s.co.issue.refill = []) : s.moveGroups = s := by
  have hi : ({ s.co.issue with spill := [], refill := [] } : Issue) = s.co.issue :=
    congrArg₂ (fun a b => { s.co.issue with spill := a, refill := b }) hs.symm hr.symm
  rw [State.moveGroups, hs, hr]
  dsimp only [List.foldl_nil, State.modCo]
  rw [hi]

theorem State.park_nothing (hd : s.co.issue.deferred = []) (hs : s.co.issue.spill = []) (hr : s.co.issue.refill = []) :
    s.park = s.afterResults := by
  rw [State.park, hd, if_neg (by simp)]
  dsimp only
  rw [if_pos rfl, State.landAll_nothing hd, State.moveGroups_nothing hs hr]

theorem State.park_traps (hd : s.co.issue.deferred = []) (hs : s.co.issue.spill = []) (hr : s.co.issue.refill = [])
    (hx : s.co.issue.traps ≠ [] ∨ s.co.issue.bare ≠ none) : s.park = s.enterTrap := by
  rw [State.park_nothing hd hs hr, State.afterResults, if_pos hx]

/-- A run that ends with nothing outstanding and no wait: the coach is ready for its next. -/
theorem State.endOfRun_ready (hd : s.co.issue.deferred = []) (hs : s.co.issue.spill = []) (hr : s.co.issue.refill = [])
    (hx : s.co.issue.traps = []) (hb : s.co.issue.bare = none) (hw : s.co.issue.wait = .none) (he : s.co.traps.ecc = [])
    (heb : s.co.traps.eccBare = none) : s.endOfRun = s.modCo fun c =>
      { c with issue := { c.issue.fresh s.fresh with yielded := c.issue.yielded, rex := c.issue.rex } } := by
  rw [State.endOfRun, if_pos hd, State.park_nothing hd hs hr, State.afterResults, if_neg (by simp [hx, hb]), hw]
  dsimp only
  rw [State.endWait, if_neg (by simp [Coach.hasErr, he, heb])]

theorem State.endOfRun_parks (hd : s.co.issue.deferred ≠ []) :
    s.endOfRun = s.modCo fun c => { c with issue := { c.issue with phase := .parked } } := if_neg hd

/-! ## Taking a trap (R332, R334, R337, R342) -/

theorem State.halt_phase (s : State) (k : Cause) : (s.halt k).co.issue.phase = .halted := (s.halt_spec k).2.2

/-- A trap taken enters a handler, in S or H mode at its offset 0, or halts the coach. -/
theorem State.takeTrap_enters (s : State) : s.takeTrap.co.issue.phase = .halted ∨
    s.takeTrap.co.issue.phase = .ready ∧ s.takeTrap.co.issue.off = 0 ∧ s.takeTrap.co.traps.mode ≠ .u := by
  unfold State.takeTrap
  dsimp only
  split
  · exact .inl (s.halt_phase _)
  · split
    · split
      · exact .inl (s.halt_phase _)
      · exact .inr ⟨rfl, rfl, Mode.noConfusion⟩
    · split <;> exact .inr ⟨rfl, rfl, Mode.noConfusion⟩

/-! ## The statement's three parts -/

theorem finishWord_next_spec {p : BitVec 2} {ps : List (BitVec 2)} (h : s.co.issue.phase ≠ .halted)
    (ht : s.co.issue.todo = p :: ps) : let t := s.finishWord m
    t = { s with co := { s.co with issue := { s.co.issue with
      marked := s.co.issue.marked || m, plane := p, todo := ps, traps := t.co.issue.traps, bad := t.co.issue.bad } } } ∧
    (∀ l, t.co.causeOf l = (s.co.causeOf l).or ((s.co.issue.bad.find? fun q => q.1 == l).map (·.2))) ∧
    (s.co.regs.bad = [] → t.co.issue.bad = []) := by
  dsimp only
  rw [State.finishWord_next h ht]
  refine ⟨?_, fun l => ?_, fun hb => ?_⟩
  · dsimp only
    rw [Coach.wordDue_eq]
  · rw [← Coach.causeOf_raise, Coach.wordDue_eq]
    rfl
  · exact Coach.wordDue_bad _ hb

theorem finishWord_clear_spec (h : s.co.issue.phase ≠ .halted) (ht : s.co.issue.todo = []) (hx : s.co.issue.traps = [])
    (hb : s.co.issue.bare = none) (he : s.co.issue.bad = []) (hw : s.co.issue.wait ≠ .tret) :
    let t := s.finishWord m
    let i := s.co.issue
    let ends := i.marked || m || i.ends
    (ends = false ∨ i.deferred ≠ [] → t.co.issue = { i with
      marked := i.marked || m, open_ := false, count := i.count + 1, off := i.next, rex := none, newAsid := none
      newRoot := none, newS2 := [], phase := if ends then .parked else i.phase }) ∧
    (ends = true → i.deferred = [] → i.spill = [] → i.refill = [] → i.wait = .none → s.co.traps.ecc = [] →
      s.co.traps.eccBare = none →
      t.co.issue.phase = .ready ∧ t.co.issue.off = i.next ∧ t.co.issue.count = 0 ∧ t.co.issue.since = s.fresh) ∧
    (ends = false ∨ i.deferred ≠ [] ∨ (i.spill = [] ∧ i.refill = [] ∧ i.wait = .none ∧ s.co.traps.ecc = [] ∧
        s.co.traps.eccBare = none) →
      t = { s with vfs := t.vfs, co := { s.co with issue := t.co.issue, special := { s.co.special with
        asid := i.newAsid.getD s.co.special.asid, ptbase := i.newRoot.getD s.co.special.ptbase } } } ∧
      (i.newS2 = [] → t.vfs = s.vfs)) := by
  have hvfs : s.co.issue.newS2 = [] → withS2bases s.vfs s.co.issue.newS2 = s.vfs := fun h => by rw [h]; rfl
  dsimp only
  rw [State.finishWord_clear h ht hx hb he hw]
  cases hends : s.co.issue.marked || m || s.co.issue.ends with
  | false =>
    rw [if_neg Bool.false_ne_true]
    exact ⟨fun _ => rfl, fun h => absurd h Bool.false_ne_true, fun _ => ⟨rfl, hvfs⟩⟩
  | true =>
    rw [if_pos rfl]
    by_cases hd : s.co.issue.deferred = []
    · refine ⟨fun h => ?_, fun _ _ hs hr hw he heb => ?_, fun h => ?_⟩
      · exact absurd hd (h.resolve_left Bool.true_eq_false.mp)
      · rw [State.endOfRun_ready (s := s.pastOffset m) hd hs hr hx hb hw he heb]
        exact ⟨rfl, rfl, rfl, rfl⟩
      · obtain ⟨hs, hr, hw, he, heb⟩ := (h.resolve_left Bool.true_eq_false.mp).resolve_left fun h => h hd
        rw [State.endOfRun_ready (s := s.pastOffset m) hd hs hr hx hb hw he heb]
        exact ⟨rfl, hvfs⟩
    · rw [State.endOfRun_parks (s := s.pastOffset m) hd]
      exact ⟨fun _ => rfl, fun _ h => absurd h hd, fun _ => ⟨rfl, hvfs⟩⟩

theorem finishWord_traps (h : s.co.issue.phase ≠ .halted) (ht : s.co.issue.todo = [])
    (hx : s.co.issue.traps ≠ [] ∨ s.co.issue.bare ≠ none ∨ s.co.issue.bad ≠ []) (hd : s.co.issue.deferred = [])
    (hs : s.co.issue.spill = []) (hr : s.co.issue.refill = []) : s.finishWord m = (s.trapped m).enterTrap := by
  rw [State.finishWord_last h ht, if_pos (State.trapped_causes hx)]
  exact State.park_traps (s := s.trapped m) hd hs hr (State.trapped_causes hx)

/-- Settles O44: the next plane's word, the end of an offset with nothing recorded, and the trap of one with a cause. -/
theorem wordsEnd : Obligations.WordsEnd := by
  unfold Obligations.WordsEnd
  refine ⟨fun r m => ⟨State.finishWord_halted, fun h => ⟨fun p ps ht => finishWord_next_spec h ht,
    fun ht hx hb he hw => finishWord_clear_spec h ht hx hb he hw⟩⟩, ?_⟩
  intro r m h ht hx hd hs hr
  rw [finishWord_traps h ht hx hd hs hr, State.enterTrap]
  have hquad : (r.trapped m).quad ((r.trapped m).co.ident.core / 4) = r.quad (r.co.ident.core / 4) := rfl
  rw [hquad]
  refine ⟨fun hc => ?_, fun hc => ?_⟩
  · rw [hc, if_neg Bool.false_ne_true]
    exact ⟨State.takeTrap_mem _, State.takeTrap_enters _⟩
  · rw [hc, if_pos rfl]
    exact ⟨rfl, rfl⟩

end Sys2Proof.Machine
end

section
/-! # O40: calls and traps enter their handlers (R103, R330, R332, R333, R335 to R337, R345, R346; log 24) -/

namespace Sys2Proof.Machine
variable {s : State} {m : Bool} {code : BitVec 8} {val : Nat → Word} {goal : Mode} {vec : Dword}

/-! ## Recording calls (R103, R345, R346) -/

/-- Each lane of a mask records its own cause. -/
theorem State.trapLanes_spec (s : State) (x : LaneMask) (k : Nat → Cause) :
    RecordsEach s (s.trapLanes ((lanesOf x).map fun l => (l, k l))) x k := by
  refine ⟨rfl, fun l => (Coach.causeOf_raise _ _ l).trans (congrArg _ ?_)⟩
  rw [find_ownCauses]
  simp only [mem_lanesOf]

/-- The lanes of a list of lanes form the mask they come from. -/
theorem maskOf_lanesOf (x : LaneMask) : maskOf (lanesOf x) = x := by
  have hfold (l : List Nat) : ∀ (y : LaneMask) (i : Nat), i < 32 →
      (l.foldl (fun m n => m ||| laneBit n) y).getLsbD i = (y.getLsbD i || l.contains i) := by
    induction l with
    | nil => simp
    | cons n l ih =>
      intro y i hi
      rw [List.foldl_cons, ih _ i hi, BitVec.getLsbD_or, List.contains_cons, Bool.or_assoc]
      congr 2
      rw [laneBit, BitVec.getLsbD_shiftLeft, BitVec.getLsbD_one, Bool.eq_iff_iff]
      simp
      omega
  refine BitVec.eq_of_getLsbD_eq fun i hi => ?_
  rw [maskOf, hfold _ _ i hi, Bool.eq_iff_iff]
  simp [mem_lanesOf]

/-! ## Entering a handler (R330, R335 to R337) -/

/-- The coach that takes a trap: its causes recorded, its frame pushed. -/
def Coach.pushed (c : Coach) : Coach :=
  let r := c.recordCauses c.causes c.firstCause
  { r with traps := { r.traps with frames := c.frame c.resume.1 c.resume.2 :: c.traps.frames } }

theorem State.takeTrap_toS (ht : s.target = 1) (hf : s.co.traps.frames.length < 4) : s.takeTrap =
    { s with co := s.co.pushed.enter s.fresh s.co.trapMask .s s.co.special.svec } := by
  unfold State.takeTrap
  dsimp only
  rw [ht, if_neg (by decide), if_neg (Nat.not_le.mpr hf), if_pos rfl]
  rfl

/-- The coach that takes a trap into H: HCAUSE names it. -/
def Coach.pushedToH (c : Coach) : Coach :=
  { c.pushed with special := { c.special with hcause := hcauseOf c.traps.mode 0 c.firstCause.code } }

theorem State.takeTrap_toH (ht : s.target ≠ 1) (hh : s.target ≠ 3) (hf : s.co.traps.frames.length < 4) : s.takeTrap =
    { s with co := s.co.pushedToH.enter s.fresh s.co.trapMask .h s.dev.hvec } := by
  unfold State.takeTrap
  dsimp only
  rw [if_neg hh, if_neg (Nat.not_le.mpr hf), if_neg ht]
  rfl

theorem Seg.limit_eq (g : Seg) : g.stride / 4 = 2 ^ (g.lst.toNat + 6) := by
  rw [Seg.stride, Nat.pow_add, Nat.pow_add]
  omega

/-- Values put in the lanes of a list leave another lane as it was. -/
theorem vget_putLanes_other {l : List (Nat × Cause)} (hl : ∀ p ∈ l, p.1 < 32) (g : Cause → Word) (v : LaneVec) {n : Nat}
    (hn : n < 32) (h : ∀ k, (n, k) ∉ l) : vget (l.foldl (fun v p => vset v p.1 (g p.2)) v) n = vget v n := by
  induction l generalizing v with
  | nil => rfl
  | cons p l ih =>
    rw [List.foldl_cons, ih (fun q hq => hl q (List.mem_cons_of_mem p hq)) _ fun k hk => h k (List.mem_cons_of_mem p hk),
      vget_vset, if_neg]
    rw [Nat.mod_eq_of_lt hn, Nat.mod_eq_of_lt (hl p List.mem_cons_self)]
    rintro rfl
    exact h p.2 List.mem_cons_self

/-- A value put in the lanes of a list, each listed once, stands in its lane. -/
theorem vget_putLanes {l : List (Nat × Cause)} (hl : ∀ p ∈ l, p.1 < 32) (hn : (l.map (·.1)).Nodup) (g : Cause → Word)
    (v : LaneVec) {n : Nat} {k : Cause} (h : (n, k) ∈ l) : vget (l.foldl (fun v p => vset v p.1 (g p.2)) v) n = g k := by
  induction l generalizing v with
  | nil => cases h
  | cons p l ih =>
    have hl' : ∀ q ∈ l, q.1 < 32 := fun q hq => hl q (List.mem_cons_of_mem p hq)
    rw [List.map_cons, List.nodup_cons] at hn
    rw [List.foldl_cons]
    obtain rfl | h := List.mem_cons.mp h
    · rw [vget_putLanes_other hl' g _ (hl (n, k) List.mem_cons_self) fun j hj => hn.1 (List.mem_map.mpr ⟨(n, j), hj, rfl⟩), vget_vset,
        if_pos rfl]
    · exact ih hl' hn.2 _ h

theorem Coach.recordCauses_ltcause (c : Coach) {l : List (Nat × Cause)} (hl : l ≠ []) (k : Cause) :
    (c.recordCauses l k).traps.ltcause = l.foldl (fun v p => vset v p.1 p.2.word) c.traps.ltcause := by
  rw [Coach.recordCauses, if_neg hl]

theorem Coach.recordCauses_ltval (c : Coach) {l : List (Nat × Cause)} (hl : l ≠ []) (k : Cause) :
    (c.recordCauses l k).traps.ltval = l.foldl (fun v p => vset v p.1 p.2.val) c.traps.ltval := by
  rw [Coach.recordCauses, if_neg hl]

theorem Coach.causes_noEcc (c : Coach) (h : c.traps.ecc = []) : c.causes = c.issue.traps := by
  rw [Coach.causes, h, List.foldl_nil]

/-- The offset of a trap is re-executed, where no cause of it is a call. -/
theorem Coach.resume_trap (c : Coach) (he : c.traps.ecc = []) (hx : c.issue.traps ≠ [])
    (hc : ∀ p ∈ c.issue.traps, isCall p.2.code = false) : c.resume = (BitVec.ofInt 32 c.issue.off, true) := by
  have hall : (c.issue.traps.all fun p => isCall p.2.code) = false := by
    obtain ⟨p, hp⟩ := List.exists_mem_of_ne_nil _ hx
    rw [List.all_eq_false]
    exact ⟨p, hp, by simp [hc p hp]⟩
  rw [Coach.resume, if_neg (fun h => hx h.1), c.causes_noEcc he, hall, Bool.false_and, if_neg Bool.false_ne_true]

/-- A call resumes after its offset (R333). -/
theorem Coach.resume_call (c : Coach) (he : c.traps.ecc = []) (hb : c.issue.bare = none) (hx : c.issue.traps ≠ [])
    (hc : ∀ p ∈ c.issue.traps, isCall p.2.code = true) : c.resume = (BitVec.ofInt 32 (c.issue.off + 1), false) := by
  rw [Coach.resume, if_neg (fun h => hx h.1), c.causes_noEcc he, List.all_eq_true.mpr hc, hb]
  rfl

/-- The entry into a handler of the traps of an offset. -/
theorem takeTrap_spec_traps (s : State) (g : Nat) (ht : s.target = g) (hg : g ≠ 3) (hf : s.co.traps.frames.length < 4)
    (he : s.co.traps.ecc = []) (hc : ∀ p ∈ s.co.issue.traps, isCall p.2.code = false) (hx : s.co.issue.traps ≠ []) :
    let t := s.takeTrap
    t.mem = s.mem ∧ t.co.regs = s.co.regs ∧ t.co.masks.exm = s.co.trapMask ∧
    (∃ f, t.co.traps.frames = f :: s.co.traps.frames ∧ f.saveExm = s.co.masks.exm ∧ f.tmask = s.co.trapMask ∧
      f.saveOff = BitVec.ofInt 32 s.co.issue.off ∧ f.rx = true ∧ f.mode = s.co.traps.mode ∧
      f.saveSeg = s.co.segs.seg.word ∧ f.planes = s.co.masks.plane ∧ f.modes = s.co.masks.modes) ∧
    t.co.segs.lim = 2 ^ (t.co.segs.seg.lst.toNat + 6) ∧
    (g = 1 → t.co.traps.mode = .s ∧ t.co.segs.seg = Seg.ofWord s.co.special.svec ∧ t.co.special = s.co.special) ∧
    (g = 2 → t.co.traps.mode = .h ∧ t.co.segs.seg = Seg.ofWord s.dev.hvec ∧
      t.co.special = { s.co.special with hcause := hcauseOf s.co.traps.mode 0 s.co.firstCause.code }) ∧
    t.co.traps.ltcause = s.co.issue.traps.foldl (fun v p => vset v p.1 p.2.word) s.co.traps.ltcause ∧
    t.co.traps.ltval = s.co.issue.traps.foldl (fun v p => vset v p.1 p.2.val) s.co.traps.ltval := by
  have hcauses := s.co.causes_noEcc he
  have hframe : ∃ f, s.co.pushed.traps.frames = f :: s.co.traps.frames ∧ f.saveExm = s.co.masks.exm ∧
      f.tmask = s.co.trapMask ∧ f.saveOff = BitVec.ofInt 32 s.co.issue.off ∧ f.rx = true ∧ f.mode = s.co.traps.mode ∧
      f.saveSeg = s.co.segs.seg.word ∧ f.planes = s.co.masks.plane ∧ f.modes = s.co.masks.modes := by
    have hresume := s.co.resume_trap he hx hc
    exact ⟨_, rfl, rfl, rfl, congrArg (·.1) hresume, congrArg (·.2) hresume, rfl, rfl, rfl, rfl⟩
  have hltcause : s.co.pushed.traps.ltcause = s.co.issue.traps.foldl (fun v p => vset v p.1 p.2.word) s.co.traps.ltcause := by
    rw [← hcauses] at hx ⊢
    exact s.co.recordCauses_ltcause hx _
  have hltval : s.co.pushed.traps.ltval = s.co.issue.traps.foldl (fun v p => vset v p.1 p.2.val) s.co.traps.ltval := by
    rw [← hcauses] at hx ⊢
    exact s.co.recordCauses_ltval hx _
  dsimp only
  by_cases h1 : g = 1
  · rw [State.takeTrap_toS (ht.trans h1) hf]
    exact ⟨rfl, rfl, rfl, hframe, Seg.limit_eq _, fun _ => ⟨rfl, rfl, rfl⟩, fun h2 => absurd (h1.symm.trans h2) (by decide),
      hltcause, hltval⟩
  · rw [State.takeTrap_toH (ht ▸ h1) (ht ▸ hg) hf]
    exact ⟨rfl, rfl, rfl, hframe, Seg.limit_eq _, fun h => absurd h h1, fun _ => ⟨rfl, rfl, rfl⟩, hltcause, hltval⟩

/-! ## A call at the last word of an offset (R332, R333, R345, R346) -/

/-- Causes of lanes that hold none, each lane's own once, are recorded as they are. -/
theorem Coach.raise_fresh {c : Coach} {l : List (Nat × Cause)} (hc : c.issue.traps = []) (hn : (l.map (·.1)).Nodup) :
    (c.raise l).issue.traps = l := by
  have happend (l : List (Nat × Cause)) : ∀ ts : List (Nat × Cause), ((ts ++ l).map (·.1)).Nodup →
      l.foldl (fun ts p => if ts.any (fun q => q.1 == p.1) then ts else ts ++ [p]) ts = ts ++ l := by
    induction l with
    | nil => exact fun ts _ => (List.append_nil ts).symm
    | cons p l ih =>
      intro ts h
      have hnew : ts.any (fun q => q.1 == p.1) = false := by
        rw [List.map_append, List.nodup_append] at h
        rw [List.any_eq_false]
        intro q hq e
        exact h.2.2 q.1 (List.mem_map_of_mem hq) p.1 (List.mem_map_of_mem List.mem_cons_self) (beq_iff_eq.mp e)
      rw [List.foldl_cons, hnew, if_neg Bool.false_ne_true, ih _ (by rwa [List.append_assoc]), List.append_assoc]
      rfl
  rw [Coach.raise, hc]
  exact happend l [] hn

theorem foldl_max_const (r : Nat) (hr : 1 ≤ r) (l : List Nat) (hl : l ≠ []) (h : ∀ x ∈ l, x = r) : l.foldl max 1 = r := by
  have hstay (l : List Nat) (h : ∀ x ∈ l, x = r) : l.foldl max r = r := by
    induction l with
    | nil => rfl
    | cons x l ih =>
      rw [List.foldl_cons, h x List.mem_cons_self, Nat.max_self]
      exact ih fun y hy => h y (List.mem_cons_of_mem x hy)
  cases l with
  | nil => exact absurd rfl hl
  | cons x l =>
    rw [List.foldl_cons, h x List.mem_cons_self, Nat.max_eq_right hr]
    exact hstay l fun y hy => h y (List.mem_cons_of_mem x hy)

/-- Causes that all go to one target go there (R334). -/
theorem Coach.route_eq {c : Coach} {r : Nat} (hr : 1 ≤ r) (hc : c.causes ≠ [])
    (h : ∀ p ∈ c.causes, routeOf c.traps.mode p.2.code = r) : c.route = r := by
  rw [Coach.route, if_neg hc]
  refine foldl_max_const r hr _ (by simpa using hc) fun x hx => ?_
  obtain ⟨p, hp, rfl⟩ := List.mem_map.mp hx
  exact h p hp

theorem State.target_s (h : s.co.route = 1) (hv : s.co.special.svec.getLsbD 63 = true) : s.target = 1 := by
  simp [State.target, h, hv]

theorem State.target_h (h : s.co.route = 2) (hv : s.dev.hvec.getLsbD 63 = true) : s.target = 2 := by
  simp [State.target, h, hv]

/-- The causes that a call records: one for each calling lane. -/
def Coach.calls (c : Coach) (code : BitVec 8) (val : Nat → Word) : List (Nat × Cause) :=
  (lanesOf c.active).map fun l => (l, causeWord code (val l))

theorem Coach.calls_lanes (c : Coach) (code : BitVec 8) (val : Nat → Word) :
    (c.calls code val).map (·.1) = lanesOf c.active := by
  simp [Coach.calls, Function.comp_def]

theorem Coach.mem_calls {c : Coach} {code : BitVec 8} {val : Nat → Word} {p : Nat × Cause} :
    p ∈ c.calls code val ↔ c.active.getLsbD p.1 = true ∧ p.2 = causeWord code (val p.1) := by
  rw [Coach.calls, List.mem_map]
  constructor
  · rintro ⟨l, hl, rfl⟩
    exact ⟨(mem_lanesOf _ _).mp hl, rfl⟩
  · rintro ⟨hl, hk⟩
    exact ⟨p.1, (mem_lanesOf _ _).mpr hl, Prod.ext rfl hk.symm⟩

theorem lanesOf_nodup (x : LaneMask) : (lanesOf x).Nodup := List.Nodup.filter _ List.nodup_range

theorem Coach.calls_ne {c : Coach} (h : c.active ≠ 0) (code : BitVec 8) (val : Nat → Word) : c.calls code val ≠ [] := by
  intro e
  refine h ?_
  rw [← maskOf_lanesOf c.active, ← c.calls_lanes code val, e]
  rfl

theorem causeWord_word (k : BitVec 8) (v : Word) : (causeWord k v).word = k.zeroExtend 32 := by
  refine BitVec.eq_of_getLsbD_eq fun i hi => ?_
  simp only [Cause.word, causeWord, BitVec.getLsbD_append, BitVec.getLsbD_setWidth, hi, decide_true, Bool.true_and]
  split
  · rfl
  · rename_i h
    rw [BitVec.getLsbD_of_ge k i (Nat.le_of_not_lt h)]
    simp

/-- What the calls put in the lanes: the calling lanes take it, the others stay. -/
theorem vget_putCalls (g : Cause → Word) (v : LaneVec) {l : Nat} (hl : l < 32) :
    vget ((s.co.calls code val).foldl (fun v p => vset v p.1 (g p.2)) v) l =
      if s.co.active.getLsbD l then g (causeWord code (val l)) else vget v l := by
  have hlanes : ∀ p ∈ s.co.calls code val, p.1 < 32 := fun p hp => BitVec.lt_of_getLsbD (Coach.mem_calls.mp hp).1
  split
  · rename_i ha
    exact vget_putLanes hlanes (s.co.calls_lanes code val ▸ lanesOf_nodup _) g v (Coach.mem_calls.mpr ⟨ha, rfl⟩)
  · rename_i ha
    exact vget_putLanes_other hlanes g v hl fun k hk => ha (Coach.mem_calls.mp hk).1

theorem Coach.committed_none {c : Coach} (ha : c.issue.newAsid = none) (hr : c.issue.newRoot = none) :
    c.committed = c.special := by
  rw [Coach.committed, ha, hr]
  rfl

/-- Where the last word of an offset is a call, the trap of the calling lanes is taken in its step. -/
theorem finishWord_call (hlast : s.lastWord) (ha : s.co.active ≠ 0) (code : BitVec 8) (val : Nat → Word) :
    ∃ u : State, (s.trapLanes (s.co.calls code val)).finishWord m = u.takeTrap ∧
      u = { s with vfs := u.vfs, co := { s.co with issue := u.co.issue } } ∧
      u.co.issue.traps = s.co.calls code val ∧ u.co.issue.bare = none ∧ u.co.issue.off = s.co.issue.off := by
  obtain ⟨htodo, htraps, hbare, hdef, hspill, hrefill, hasid, hroot, -, -, -, hbad, hphase, hclock⟩ := hlast
  have hcalls : (s.trapLanes (s.co.calls code val)).co.issue.traps = s.co.calls code val :=
    Coach.raise_fresh htraps (s.co.calls_lanes code val ▸ lanesOf_nodup _)
  have hclear : (s.trapLanes (s.co.calls code val)).co.issue.bad = [] := hbad
  have hraise : ((s.trapLanes (s.co.calls code val)).trapped m).co.issue.traps = s.co.calls code val := by
    rw [State.trapped, hclear]
    exact hcalls
  have hspecial : (s.trapLanes (s.co.calls code val)).co.committed = s.co.special :=
    Coach.committed_none (c := (s.trapLanes (s.co.calls code val)).co) hasid hroot
  refine ⟨(s.trapLanes (s.co.calls code val)).trapped m, ?_, ?_, hraise, hbare, rfl⟩
  · rw [finishWord_traps (s := s.trapLanes (s.co.calls code val)) hphase htodo (.inl ?_) hdef hspill hrefill, State.enterTrap,
      if_neg]
    · exact fun h => Bool.false_ne_true (hclock.symm.trans h)
    · rw [hcalls]
      exact Coach.calls_ne ha code val
  · rw [State.trapped, hspecial]
    rfl

/-- The entry into a handler of a call that the last word of an offset makes. -/
theorem call_enters {i : Instr} (hi : exec i s = .next ((s.trapLanes (s.co.calls code val)).finishWord m))
    (hlast : s.lastWord) (ha : s.co.active ≠ 0) (hf : s.co.traps.frames.length < 4) (hcall : isCall code = true)
    (hgoal : (goal = .s ∧ vec = s.co.special.svec ∧ routeOf s.co.traps.mode code = 1) ∨
      (goal = .h ∧ vec = s.dev.hvec ∧ routeOf s.co.traps.mode code = 2)) (hv : vec.getLsbD 63 = true) :
    ∃ t : State, exec i s = .next t ∧ t.co.traps.mode = goal ∧ t.co.masks.exm = s.co.active ∧
      t.co.masks.live = s.co.masks.live ∧
      (∃ f, t.co.traps.frames = f :: s.co.traps.frames ∧ f.saveExm = s.co.masks.exm ∧ f.tmask = s.co.active ∧
        f.saveOff = BitVec.ofInt 32 (s.co.issue.off + 1) ∧ f.rx = false ∧ f.mode = s.co.traps.mode ∧
        f.saveSeg = s.co.segs.seg.word ∧ f.planes = s.co.masks.plane ∧ f.modes = s.co.masks.modes) ∧
      (∀ l, l < 32 → t.co.planeOf l = 0) ∧ (∀ p, p < 4 → vget t.co.masks.modes p = modeReset) ∧
      t.co.segs.seg = Seg.ofWord vec ∧ t.co.segs.lim = 2 ^ ((Seg.ofWord vec).lst.toNat + 6) ∧ t.co.issue.off = 0 ∧
      t.co.issue.phase = .ready ∧
      (∀ l, l < 32 → vget t.co.traps.ltcause l =
          (if s.co.active.getLsbD l then code.zeroExtend 32 else vget s.co.traps.ltcause l) ∧
        vget t.co.traps.ltval l = if s.co.active.getLsbD l then val l else vget s.co.traps.ltval l) ∧
      t.mem = s.mem ∧ t.co.regs = s.co.regs ∧ t.co.wbuf = s.co.wbuf := by
  obtain ⟨u, hu, hs, htraps, hbare, hoff⟩ := finishWord_call (m := m) hlast ha code val
  obtain ⟨-, -, -, -, -, -, -, -, -, hecc, -, -, -, -⟩ := hlast
  have hkept : u.co.traps = s.co.traps := congrArg (·.co.traps) hs
  have hspecial : u.co.special = s.co.special := congrArg (·.co.special) hs
  have hcauses : u.co.causes = s.co.calls code val := (u.co.causes_noEcc (hkept ▸ hecc)).trans htraps
  have hne := Coach.calls_ne ha code val
  have hmask : u.co.trapMask = s.co.active := by rw [Coach.trapMask, hcauses, Coach.calls_lanes, maskOf_lanesOf]
  have hroute (r : Nat) (h1 : 1 ≤ r) (hr : routeOf s.co.traps.mode code = r) : u.co.route = r := by
    refine Coach.route_eq h1 (hcauses ▸ hne) fun p hp => ?_
    rw [hkept, (Coach.mem_calls.mp (hcauses ▸ hp)).2]
    exact hr
  have hresume : u.co.resume = (BitVec.ofInt 32 (s.co.issue.off + 1), false) := by
    rw [← hoff]
    refine u.co.resume_call (hkept ▸ hecc) hbare (htraps ▸ hne) fun p hp => ?_
    rw [(Coach.mem_calls.mp (htraps ▸ hp)).2]
    exact hcall
  obtain ⟨c, htake, hcTraps, hcMasks, hcRegs, hcWbuf⟩ : ∃ c : Coach,
      u.takeTrap = { u with co := c.enter u.fresh s.co.active goal vec } ∧ c.traps = u.co.pushed.traps ∧
        c.masks = s.co.masks ∧ c.regs = s.co.regs ∧ c.wbuf = s.co.wbuf := by
    obtain ⟨rfl, rfl, hr⟩ | ⟨rfl, rfl, hr⟩ := hgoal
    · refine ⟨u.co.pushed, ?_, rfl, congrArg (·.co.masks) hs, congrArg (·.co.regs) hs, congrArg (·.co.wbuf) hs⟩
      rw [State.takeTrap_toS (State.target_s (hroute 1 (by decide) hr) (hspecial ▸ hv)) (hkept ▸ hf), hmask, hspecial]
    · have hdev : u.dev = s.dev := congrArg (·.dev) hs
      have htarget := State.target_h (hroute 2 (by decide) hr) (hdev ▸ hv)
      refine ⟨u.co.pushedToH, ?_, rfl, congrArg (·.co.masks) hs, congrArg (·.co.regs) hs, congrArg (·.co.wbuf) hs⟩
      rw [State.takeTrap_toH (htarget ▸ by decide) (htarget ▸ by decide) (hkept ▸ hf), hmask, hdev]
  refine ⟨u.takeTrap, hi.trans (congrArg _ hu), ?_⟩
  rw [htake]
  refine ⟨rfl, rfl, congrArg (·.live) hcMasks, ?_, ?_, ?_, rfl, Seg.limit_eq _, rfl, rfl, ?_, congrArg (·.mem) hs, hcRegs, hcWbuf⟩
  · exact ⟨u.co.frame u.co.resume.1 u.co.resume.2,
      (congrArg (·.frames) hcTraps).trans (congrArg (_ :: ·) (congrArg (·.frames) hkept)), congrArg (·.co.masks.exm) hs,
      hmask, congrArg (·.1) hresume, congrArg (·.2) hresume, congrArg (·.mode) hkept,
      congrArg (·.co.segs.seg.word) hs, congrArg (·.co.masks.plane) hs, congrArg (·.co.masks.modes) hs⟩
  · exact fun l _ => vget_replicate _ _
  · exact fun p _ => vget_replicate _ _
  · have hltcause : u.co.pushed.traps.ltcause =
        (s.co.calls code val).foldl (fun v p => vset v p.1 p.2.word) s.co.traps.ltcause := by
      rw [← hcauses, ← hkept]
      exact u.co.recordCauses_ltcause (hcauses ▸ hne) _
    have hltval : u.co.pushed.traps.ltval =
        (s.co.calls code val).foldl (fun v p => vset v p.1 p.2.val) s.co.traps.ltval := by
      rw [← hcauses, ← hkept]
      exact u.co.recordCauses_ltval (hcauses ▸ hne) _
    have hcause : (c.enter u.fresh s.co.active goal vec).traps.ltcause = _ := (congrArg (·.ltcause) hcTraps).trans hltcause
    have hval : (c.enter u.fresh s.co.active goal vec).traps.ltval = _ := (congrArg (·.ltval) hcTraps).trans hltval
    rw [hcause, hval]
    exact fun l hl => ⟨causeWord_word code (val l) ▸ vget_putCalls Cause.word _ hl, vget_putCalls Cause.val _ hl⟩

/-- SYSC and BKPT go to S from U and S (R334). -/
theorem routeOf_toS {mode : Mode} (hk : code = cSysc ∨ code = cBkpt) (hm : mode ≠ .h) : routeOf mode code = 1 := by
  unfold routeOf
  rw [if_pos hk, if_neg hm]

/-- Settles O40: what the calls record, the entry of a trap, and the entry of a call at the last word. -/
theorem callsEnterHandlers : Obligations.CallsEnterHandlers := by
  unfold Obligations.CallsEnterHandlers
  refine ⟨⟨?_, ?_, ?_, ?_⟩, ?_, ?_⟩
  · exact fun m a s => ⟨_, rfl, s.trapLanes_spec _ _⟩
  · exact fun m n s => ⟨_, rfl, s.trapLanes_spec _ fun _ => _⟩
  · intro m a s hm
    refine ⟨_, rfl, ?_⟩
    dsimp only
    rw [if_neg hm]
    exact s.trapLanes_spec _ fun l => causeWord cHvc (s.co.vreg a.toNat l)
  · exact fun m a s hm => ⟨_, rfl, .of_trapPlane (if_pos hm)⟩
  · intro s g ht hg hf he _ hc hx _
    obtain ⟨hmem, hregs, hexm, hframe, hlim, h1, h2, hltcause, hltval⟩ := takeTrap_spec_traps s g ht hg hf he hc hx
    refine ⟨hmem, hregs, hexm, hframe, hlim, h1, h2, fun hl hn l hl32 => ?_⟩
    rw [hltcause, hltval]
    exact ⟨fun k hk => ⟨vget_putLanes hl hn Cause.word _ hk, vget_putLanes hl hn Cause.val _ hk⟩,
      fun hk => ⟨vget_putLanes_other hl Cause.word _ hl32 hk, vget_putLanes_other hl Cause.val _ hl32 hk⟩⟩
  · rintro i m a n s code val vec goal hlast ha hf
      (⟨rfl, rfl, rfl, rfl, rfl, hm⟩ | ⟨rfl, rfl, rfl, rfl, rfl, hm⟩ | ⟨rfl, rfl, rfl, rfl, rfl, hm⟩) hv
    · exact call_enters rfl hlast ha hf (by decide) (.inl ⟨rfl, rfl, routeOf_toS (by decide) hm⟩) hv
    · exact call_enters rfl hlast ha hf (by decide) (.inl ⟨rfl, rfl, routeOf_toS (by decide) hm⟩) hv
    · refine call_enters (m := m) ?_ hlast ha hf (by decide) (.inr ⟨rfl, rfl, rfl⟩) hv
      rw [exec, execHvc, wordS, word, if_neg (by simp [hm])]
      rfl

end Sys2Proof.Machine
end

section
/-! # O43: SRR, SRRL, SRW and SRWL (R107 to R109, R127, R260, R331, R339, R349, R356, R363; log 66) -/

namespace Sys2Proof.Machine
variable {s : State} {m : Bool} {w : Word} {x : Dword}

/-! ## Fields of a dword -/

theorem extract_high_ne_zero {k n : Nat} (h : k + n = 64) (x : Dword) : x.extractLsb' k n ≠ 0 ↔ 2 ^ k ≤ x.toNat := by
  have hx : x.toNat / 2 ^ k < 2 ^ n := by
    rw [Nat.div_lt_iff_lt_mul (by positivity), ← Nat.pow_add, Nat.add_comm, h]
    exact x.isLt
  rw [ne_eq, ← BitVec.toNat_inj, BitVec.extractLsb'_toNat, Nat.shiftRight_eq_div_pow, Nat.mod_eq_of_lt hx]
  simp

theorem extract_low_ne_zero {n : Nat} (x : Dword) : x.extractLsb' 0 n ≠ 0 ↔ x.toNat % 2 ^ n ≠ 0 := by
  rw [ne_eq, ← BitVec.toNat_inj, BitVec.extractLsb'_toNat, Nat.shiftRight_zero]
  simp

theorem extract_bits_ne_zero {j k : Nat} (x : Dword) : x.extractLsb' j k ≠ 0 ↔ x.toNat / 2 ^ j % 2 ^ k ≠ 0 := by
  rw [ne_eq, ← BitVec.toNat_inj, BitVec.extractLsb'_toNat, Nat.shiftRight_eq_div_pow]
  rfl

theorem toNat_append_add {k n : Nat} (x : BitVec k) (y : BitVec n) : (x ++ y).toNat = x.toNat * 2 ^ n + y.toNat := by
  rw [BitVec.toNat_append, ← Nat.shiftLeft_add_eq_or_of_lt y.isLt, Nat.shiftLeft_eq]

theorem and_tableBase (x : Dword) : x &&& 0x000FFFFFFFFFF000#64 = 0#12 ++ x.extractLsb' 12 40 ++ 0#12 := by
  have hmask : ∀ i : Fin 64, (0x000FFFFFFFFFF000#64).getLsbD i = (decide (12 ≤ i.val) && decide (i.val < 52)) := by decide
  refine BitVec.eq_of_getLsbD_eq fun i hi => ?_
  rw [BitVec.getLsbD_and, hmask ⟨i, hi⟩]
  simp only [BitVec.getLsbD_append, BitVec.getLsbD_extractLsb', BitVec.getLsbD_zero]
  by_cases h1 : i < 12
  · simp [h1, Nat.not_le.mpr h1]
  · by_cases h2 : i < 52
    · have e : i - 12 < 40 := by omega
      simp [h1, h2, e, Nat.le_of_not_lt h1, Nat.add_sub_of_le (Nat.le_of_not_lt h1)]
    · have e : ¬ i - 12 < 40 := by omega
      simp [h1, h2, e]

theorem and_hcause (x : Dword) : x &&& 0x3FFFF#64 = 0#46 ++ x.extractLsb' 0 18 := by
  have hmask : ∀ i : Fin 64, (0x3FFFF#64).getLsbD i = decide (i.val < 18) := by decide
  refine BitVec.eq_of_getLsbD_eq fun i hi => ?_
  rw [BitVec.getLsbD_and, hmask ⟨i, hi⟩]
  simp only [BitVec.getLsbD_append, BitVec.getLsbD_extractLsb', BitVec.getLsbD_zero]
  by_cases h1 : i < 18 <;> simp [h1]

/-! ## Reading (R107, R109, R339, R349, R356) -/

theorem zext64_toNat {n : Nat} (x : BitVec n) : zext64 x = BitVec.ofNat 64 x.toNat := by
  refine BitVec.eq_of_toNat_eq ?_
  simp [zext64]

theorem Vf.ctl_eq (v : Vf) : v.ctl =
    BitVec.ofNat 64 (v.en.toNat + 2 * v.shr.toNat + 8 * v.flrb.toNat + 16 * v.lock.toNat + 4096 * v.dpasid.toNat) := by
  have := v.dpasid.isLt
  have := Bool.toNat_lt v.en
  have := Bool.toNat_lt v.shr
  have := Bool.toNat_lt v.flrb
  have := Bool.toNat_lt v.lock
  refine BitVec.eq_of_toNat_eq ?_
  simp only [Vf.ctl, toNat_append_add, BitVec.toNat_ofBool, BitVec.toNat_ofNat]
  omega

theorem resumeWord_eq (rx : Bool) (code : BitVec 2) (off : BitVec 32) : 0#29 ++ code ++ BitVec.ofBool rx ++ off =
    BitVec.ofNat 64 (off.toNat + (if rx then 2 ^ 32 else 0) + code.toNat * 2 ^ 33) := by
  have := off.isLt
  have := code.isLt
  refine BitVec.eq_of_toNat_eq ?_
  simp only [toNat_append_add, BitVec.toNat_ofBool, BitVec.toNat_ofNat]
  cases rx <;> simp <;> omega

/-- The frame registers read zero without a frame. -/
theorem State.sreg_noFrame (h : s.co.traps.frames = []) {n : Nat} (h1 : 0x23 ≤ n) (h2 : n ≤ 0x2A) : s.sreg n = 0 := by
  have hreg : s.sreg n = s.co.frameReg n := by
    obtain rfl | rfl | rfl | rfl | rfl | rfl | rfl | rfl : n = 0x23 ∨ n = 0x24 ∨ n = 0x25 ∨ n = 0x26 ∨ n = 0x27 ∨ n = 0x28 ∨
      n = 0x29 ∨ n = 0x2A := by omega
    all_goals rfl
  rw [hreg, Coach.frameReg, h]

/-- The frame registers read the newest frame. -/
theorem State.sreg_frame {f : Frame} {rest : List Frame} (h : s.co.traps.frames = f :: rest) :
    s.sreg 0x23 = f.tmask.zeroExtend 64 ∧ s.sreg 0x24 = f.saveExm.zeroExtend 64 ∧
      s.sreg 0x25 = BitVec.ofNat 64 (f.saveOff.toNat + (if f.rx then 2 ^ 32 else 0) + f.mode.code.toNat * 2 ^ 33) ∧
      s.sreg 0x26 = f.saveSeg &&& 0xFF0FFFFFFFFFFFFF#64 ∧
      ∀ p, p < 4 → s.sreg (0x27 + p) = (vget f.modes p).zeroExtend 64 := by
  have hreg (n : Nat) : s.co.frameReg n =
      ({ s.co with traps := { s.co.traps with frames := f :: rest } } : Coach).frameReg n :=
    congrArg (fun l => ({ s.co with traps := { s.co.traps with frames := l } } : Coach).frameReg n) h
  refine ⟨hreg 0x23, hreg 0x24, (hreg 0x25).trans (resumeWord_eq ..), hreg 0x26, fun p hp => ?_⟩
  obtain rfl | rfl | rfl | rfl : p = 0 ∨ p = 1 ∨ p = 2 ∨ p = 3 := by omega
  · exact hreg 0x27
  · exact hreg 0x28
  · exact hreg 0x29
  · exact hreg 0x2A

/-- S2BASE reads what the offset has written to it last, else the VF's. -/
theorem State.sreg_s2base (s : State) : s.sreg 0x39 =
    ((s.co.issue.newS2.reverse.find? fun p => p.1 == s.dev.vfsel).map (·.2)).getD (s.vf s.dev.vfsel).s2base := rfl

theorem State.sreg_s2base_unwritten (h : ∀ p ∈ s.co.issue.newS2, p.1 ≠ s.dev.vfsel) :
    s.sreg 0x39 = (s.vf s.dev.vfsel).s2base := by
  have hnone : s.co.issue.newS2.reverse.find? (fun p => p.1 == s.dev.vfsel) = none := by
    rw [List.find?_eq_none]
    exact fun p hp => by simpa using h p (List.mem_reverse.mp hp)
  rw [State.sreg_s2base, hnone]
  rfl

theorem State.sreg_s2base_written {l : List (Nat × Dword)} (h : s.co.issue.newS2 = l ++ [(s.dev.vfsel, x)]) :
    s.sreg 0x39 = x := by
  rw [State.sreg_s2base, h, List.reverse_concat, List.find?_cons, beq_self_eq_true]
  rfl

/-- The lane special registers. -/
theorem Coach.laneReg_eq (c : Coach) (i : BitVec 6) (l : Nat) : c.laneReg i.toNat l =
    if i = 0 then vget c.traps.ltcause l else if i = 1 then vget c.traps.ltval l
    else if i = 2 then (c.planeOf l).zeroExtend 32 else BitVec.ofNat 32 l := by
  have hval (k : Nat) (hk : k < 64) : i.toNat = k ↔ i = BitVec.ofNat 6 k := by
    rw [← BitVec.toNat_inj, BitVec.toNat_ofNat, Nat.mod_eq_of_lt hk]
  unfold Coach.laneReg
  split
  · rename_i h
    rw [(hval 0 (by decide)).mp h]
    rfl
  · rename_i h
    rw [(hval 1 (by decide)).mp h]
    rfl
  · rename_i h
    rw [(hval 2 (by decide)).mp h]
    rfl
  · rename_i h0 h1 h2
    have hne {j : BitVec 6} (h : i.toNat ≠ j.toNat) : i ≠ j := fun hij => h (congrArg _ hij)
    rw [if_neg (hne (j := 0) h0), if_neg (hne (j := 1) h1), if_neg (hne (j := 2) h2)]

/-! ## Writing (R108, R349; log 66) -/

/-- What SRW does with a value: the listed register takes it, from the mode that may write it. -/
def State.writeSreg (s : State) (n : Nat) (x : Dword) (w : Word) : State :=
  match sregWrite n with
  | none => s.trapPlane (causeIll subSreg w)
  | some k => if s.co.traps.mode.rank < k then s.trapPlane (causeWord cPriv w) else s.setSreg n x w

theorem exec_srw (m : Bool) (i b : BitVec 6) (s : State) : exec (.srw m i b) s =
    .next ((s.writeSreg i.toNat (s.co.greg b) (Instr.srw m i b).word).finishWord m) := rfl

variable {n k : Nat}

theorem State.writeSreg_unlisted (h : sregWrite n = none) : s.writeSreg n x w = s.trapPlane (causeIll subSreg w) := by
  rw [State.writeSreg, h]

theorem State.writeSreg_priv (h : sregWrite n = some k) (hk : s.co.traps.mode.rank < k) :
    s.writeSreg n x w = s.trapPlane (causeWord cPriv w) := by
  rw [State.writeSreg, h]
  exact if_pos hk

theorem State.writeSreg_set (h : sregWrite n = some k) (hk : k ≤ s.co.traps.mode.rank) :
    s.writeSreg n x w = s.setSreg n x w := by
  rw [State.writeSreg, h]
  exact if_neg (Nat.not_lt.mpr hk)

theorem sregWrite_none (h0 : n ∉ [0x00, 0x03, 0x06, 0x07, 0x09, 0x21]) (h1 : ¬ (0x23 ≤ n ∧ n ≤ 0x2C))
    (h2 : ¬ (0x30 ≤ n ∧ n ≤ 0x3B ∧ n ≠ 0x3A)) : sregWrite n = none := by
  simp only [List.mem_cons, List.not_mem_nil, or_false, not_or] at h0
  unfold sregWrite
  rw [if_neg (by simp; omega), if_neg (by omega)]
  split
  · rfl
  · rw [if_neg (by omega)]

theorem sregWrite_s (h : n = 0x03 ∨ n = 0x21 ∨ (0x23 ≤ n ∧ n ≤ 0x2C)) : sregWrite n = some 1 := by
  unfold sregWrite
  rw [if_neg (by simp; omega), if_pos h]

theorem sregWrite_h (h : 0x30 ≤ n ∧ n ≤ 0x3B ∧ n ≠ 0x3A) : sregWrite n = some 2 := by
  unfold sregWrite
  rw [if_neg (by simp; omega), if_neg (by omega), if_neg h.2.2, if_pos ⟨h.1, h.2.1⟩]

/-! ### The registers of the device's VFs (R356, R360, R363) -/

theorem SetsVf.modVf (s : State) (n : Nat) (f : Vf → Vf) : SetsVf s (s.modVf n f) n (f (s.vf n)) :=
  ⟨rfl, s.vf_modVf n f⟩

theorem State.toError_unlocked (h : (s.vf n).lock = false) : s.toError n = s := by
  rw [State.toError, h, if_neg Bool.false_ne_true]

theorem State.toError_error (h : (s.vf n).lock = true) : ((s.toError n).vf n).error = true := by
  rw [State.toError, if_pos h, State.vf_modVf, if_pos rfl]

/-- The reset of a VF that is moved to ERROR keeps every other VF and the connection matrix. -/
theorem State.toError_others (s : State) {j : Nat} (h : j ≠ n) :
    (s.toError n).vf j = s.vf j ∧ (s.toError n).dev.cmxrow = s.dev.cmxrow := by
  have hstop : (s.stopHaulsOf n).vfs = s.vfs ∧ (s.stopHaulsOf n).dev = s.dev := by
    refine Prod.mk.inj (foldl_frame (g := fun s => (s.vfs, s.dev)) ?_ _ s)
    exact fun _ _ => rfl
  have hstart : (s.startReset n).vf j = s.vf j ∧ (s.startReset n).dev = s.dev := by
    refine ⟨?_, hstop.2⟩
    rw [State.startReset, State.vf_modVf, if_neg h, State.vf, hstop.1, ← State.vf]
  have hreset : (s.resetVf n).vf j = s.vf j ∧ (s.resetVf n).dev.cmxrow = s.dev.cmxrow := by
    rw [State.resetVf_eq]
    by_cases hc : (s.startReset n).canFinish n
    · refine ⟨?_, ?_⟩
      · rw [State.vf, State.finishReset_vfs hc, ← State.vf, State.vf_modVf, if_neg h, hstart.1]
      · rw [State.finishReset_dev hc, hstart.2]
    · rw [State.finishReset_waits hc]
      exact ⟨hstart.1, congrArg (·.cmxrow) hstart.2⟩
  unfold State.toError
  split
  · refine ⟨?_, hreset.2⟩
    rw [State.vf_modVf, if_neg h, hreset.1]
  · exact ⟨rfl, rfl⟩

/-- A register takes x, as t has it, and a change of a locked VF's register moves the interface to ERROR (R363). -/
theorem written_or_error {y : Nat} {old : Dword} {r t : State} (hl : (t.vf y).lock = (s.vf y).lock)
    (hr : r = if old = x then t else t.toError y) :
    ((s.vf y).lock = false ∨ old = x → r = t) ∧ ((s.vf y).lock = true → old ≠ x → (r.vf y).error = true) := by
  rw [hr]
  by_cases ho : old = x
  · rw [if_pos ho]
    exact ⟨fun _ => rfl, fun _ h => absurd ho h⟩
  · rw [if_neg ho]
    exact ⟨fun h => State.toError_unlocked (hl.trans (h.resolve_right ho)), fun h _ => State.toError_error (hl.trans h)⟩

theorem sets_or_error {y : Nat} {old : Dword} {r : State} (f : Vf → Vf) (hl : (f (s.vf y)).lock = (s.vf y).lock)
    (hr : r = if old = x then s.modVf y f else (s.modVf y f).toError y) :
    ((s.vf y).lock = false ∨ old = x → SetsVf s r y (f (s.vf y))) ∧
      ((s.vf y).lock = true → old ≠ x → (r.vf y).error = true) := by
  have hvf : ((s.modVf y f).vf y).lock = (s.vf y).lock := by rw [State.vf_modVf, if_pos rfl, hl]
  obtain ⟨hset, herror⟩ := written_or_error hvf hr
  exact ⟨fun h => hset h ▸ SetsVf.modVf s y f, herror⟩

/-- VFs moved to ERROR one by one keep the connection matrix, and every VF that is not among them. -/
theorem State.toErrors_others (l : List Nat) (s : State) :
    (∀ j, j ∉ l → (l.foldl State.toError s).vf j = s.vf j) ∧ (l.foldl State.toError s).dev.cmxrow = s.dev.cmxrow := by
  induction l generalizing s with
  | nil => exact ⟨fun _ _ => rfl, rfl⟩
  | cons n l ih =>
    rw [List.foldl_cons]
    obtain ⟨hvf, hrow⟩ := ih (s.toError n)
    refine ⟨fun j hj => ?_, hrow.trans (s.toError_others (j := n + 1) (by omega)).2⟩
    rw [List.mem_cons, not_or] at hj
    rw [hvf j hj.2, (s.toError_others hj.1).1]

theorem State.toErrors_unlocked {l : List Nat} (h : ∀ n ∈ l, (s.vf n).lock = false) : l.foldl State.toError s = s := by
  induction l with
  | nil => rfl
  | cons n l ih =>
    rw [List.foldl_cons, State.toError_unlocked (h n List.mem_cons_self)]
    exact ih fun k hk => h k (List.mem_cons_of_mem n hk)

theorem State.toErrors_error {l : List Nat} (hn : l.Nodup) (s : State) (hm : n ∈ l) (h : (s.vf n).lock = true) :
    ((l.foldl State.toError s).vf n).error = true := by
  induction l generalizing s with
  | nil => cases hm
  | cons k l ih =>
    rw [List.nodup_cons] at hn
    rw [List.foldl_cons]
    by_cases hk : n = k
    · subst hk
      rw [(State.toErrors_others l _).1 n hn.1]
      exact State.toError_error h
    · refine ih hn.2 _ (List.mem_of_ne_of_mem hk hm) ?_
      rw [(s.toError_others hk).1, h]

/-- CMXROW: the row takes x, and a change of a quad's row moves the locked VFs that list the quad to ERROR. -/
theorem cmxrow_written (s : State) (x : Dword) (w : Word) : let p := s.dev.cmxsel
    let r := s.setSreg 0x38 x w
    let listed (k : Nat) : Prop := p < 64 ∧ (s.vf k).lock = true ∧ (s.vf k).quads.getLsbD p = true
    (vget s.dev.cmxrow p = x ∨ (∀ k, k < 32 → ¬ listed k) → r = { s with dev := { s.dev with cmxrow := r.dev.cmxrow } }) ∧
    (vget s.dev.cmxrow p ≠ x → ∀ k, k < 32 → listed k → (r.vf k).error = true) ∧
    ∀ q, q < 72 → vget r.dev.cmxrow q = if q = p % 72 then x else vget s.dev.cmxrow q := by
  dsimp only
  have hset : s.setSreg 0x38 x w = if vget s.dev.cmxrow s.dev.cmxsel = x ∨ 64 ≤ s.dev.cmxsel then
      s.modDev fun d => { d with cmxrow := vset d.cmxrow s.dev.cmxsel x }
    else ((List.range 32).filter fun k => (s.vf k).quads.getLsbD s.dev.cmxsel).foldl State.toError
      (s.modDev fun d => { d with cmxrow := vset d.cmxrow s.dev.cmxsel x }) := rfl
  have hrow (q : Nat) (hq : q < 72) : vget (vset s.dev.cmxrow s.dev.cmxsel x) q =
      if q = s.dev.cmxsel % 72 then x else vget s.dev.cmxrow q := by
    rw [vget_vset, Nat.mod_eq_of_lt hq]
  rw [hset]
  by_cases hc : vget s.dev.cmxrow s.dev.cmxsel = x ∨ 64 ≤ s.dev.cmxsel
  · rw [if_pos hc]
    exact ⟨fun _ => rfl, fun hne k _ hl => absurd hl.1 (Nat.not_lt.mpr (hc.resolve_left hne)), hrow⟩
  · rw [if_neg hc]
    rw [not_or, Nat.not_le] at hc
    refine ⟨fun h => ?_, fun _ k hk hl => ?_, fun q hq => ?_⟩
    · have hnone := h.resolve_left hc.1
      rw [State.toErrors_unlocked fun k hk => ?_]
      · rfl
      · rw [List.mem_filter, List.mem_range] at hk
        by_contra hlock
        exact hnone k hk.1 ⟨hc.2, Bool.eq_true_of_not_eq_false hlock, hk.2⟩
    · refine State.toErrors_error (List.Nodup.filter _ List.nodup_range) _ ?_ hl.2.1
      rw [List.mem_filter, List.mem_range]
      exact ⟨hk, hl.2.2⟩
    · rw [(State.toErrors_others _ _).2]
      exact hrow q hq

/-! ### What a write does, register by register -/

/-- A write that is refused under P records its trap; one that is not does what C says. -/
theorem records_or {r t : State} {k : Cause} {P Q C : Prop} [Decidable P] [Decidable Q]
    (hr : r = if P then s.trapPlane k else t) (hPQ : P ↔ Q) (hC : r = t → C) :
    if Q then Records s r s.co.planeLanes k else C := by
  by_cases hP : P
  · rw [if_pos (hPQ.mp hP)]
    exact .of_trapPlane (hr.trans (if_pos hP))
  · rw [if_neg (mt hPQ.mpr hP)]
    exact hC (hr.trans (if_neg hP))

/-- SRW of GANG acts as GANG does (R260). -/
theorem State.setGang_cases (s : State) (x : Dword) : let r := s.setGang x
    if s.gangOk x = false then Records s r s.co.masks.exm (causeWord cGangx (x.truncate 32))
    else if s.ownsToken = true then Records s r s.co.masks.exm (causeWord cTokx (x.truncate 32))
    else (s.core s.co.ident.core).latch = [] →
      r = { s with co := { s.co with special := { s.co.special with gang := x } } } := by
  dsimp only
  unfold State.setGang
  rw [extract_low]
  cases hg : s.gangOk x
  · exact s.trapAll_spec _
  cases ht : s.ownsToken
  · intro hl
    simp [hl]
    rfl
  · exact s.trapAll_spec _

/-- The frame registers are written by their own rule. -/
theorem State.writeSreg_frameReg (hn : 0x23 ≤ n ∧ n ≤ 0x2A) (hk : 1 ≤ s.co.traps.mode.rank) :
    s.writeSreg n x w = s.setFrameReg n x w := by
  rw [State.writeSreg_set (sregWrite_s (by omega)) hk]
  obtain rfl | rfl | rfl | rfl | rfl | rfl | rfl | rfl : n = 0x23 ∨ n = 0x24 ∨ n = 0x25 ∨ n = 0x26 ∨ n = 0x27 ∨
    n = 0x28 ∨ n = 0x29 ∨ n = 0x2A := by omega
  all_goals rfl

theorem State.writeSreg_noFrame (hn : 0x23 ≤ n ∧ n ≤ 0x2A) (hk : 1 ≤ s.co.traps.mode.rank) (hf : s.co.traps.frames = []) :
    s.writeSreg n x w = s :=
  (State.writeSreg_frameReg hn hk).trans (if_pos hf)

/-- A frame register takes the value into the newest frame (R339). -/
theorem State.writeSreg_frame {f : Frame} {rest : List Frame} (hf : s.co.traps.frames = f :: rest)
    (hk : 1 ≤ s.co.traps.mode.rank) : let r := s.writeSreg n x w
    let takes (g : Frame) : Prop := r = { s with co := { s.co with traps := { s.co.traps with frames := g :: rest } } }
    (n = 0x23 → takes { f with tmask := x.truncate 32 }) ∧ (n = 0x24 → takes { f with saveExm := x.truncate 32 }) ∧
    (n = 0x25 → takes { f with saveOff := x.truncate 32, rx := x.getLsbD 32 }) ∧
    (n = 0x26 → if segBad x then Records s r s.co.planeLanes (causeIll subField w) else takes { f with saveSeg := x }) ∧
    ∀ p, p < 4 → n = 0x27 + p → match modeBad x with
      | some sub => Records s r s.co.planeLanes (causeIll sub w)
      | none => takes { f with modes := vset f.modes p (x.truncate 32) } := by
  have hne : s.co.traps.frames ≠ [] := by simp [hf]
  have hmod (g : Frame → Frame) : (s.modCo fun c => c.modFrame g) =
      { s with co := { s.co with traps := { s.co.traps with frames := g f :: rest } } } := by
    rw [State.modCo, Coach.modFrame, hf]
  dsimp only
  refine ⟨?_, ?_, ?_, ?_, ?_⟩
  · rintro rfl
    rw [State.writeSreg_frameReg (by decide) hk, State.setFrameReg, if_neg hne, ← extract_low]
    exact hmod _
  · rintro rfl
    rw [State.writeSreg_frameReg (by decide) hk, State.setFrameReg, if_neg hne, ← extract_low]
    exact hmod _
  · rintro rfl
    rw [State.writeSreg_frameReg (by decide) hk, State.setFrameReg, if_neg hne, ← extract_low]
    exact hmod _
  · rintro rfl
    rw [State.writeSreg_frameReg (by decide) hk, State.setFrameReg, if_neg hne]
    exact records_or rfl Iff.rfl fun h => h.trans (hmod _)
  · intro p hp hn
    have hbody : s.writeSreg n x w = match modeBad x with
        | some sub => s.trapPlane (causeIll sub w)
        | none => s.modCo fun c => c.modFrame fun f => { f with modes := vset f.modes p (x.extractLsb' 0 32) } := by
      subst hn
      rw [State.writeSreg_frameReg (by omega) hk]
      obtain rfl | rfl | rfl | rfl : p = 0 ∨ p = 1 ∨ p = 2 ∨ p = 3 := by omega
      all_goals exact if_neg hne
    rw [hbody]
    split
    · exact s.trapPlane_spec _
    · rw [← extract_low]
      exact hmod _

/-- The registers of the VF that VFSEL selects, and those of the connection matrix (R356, R360, R363, R368). -/
theorem State.writeSreg_device (s : State) (x : Dword) (w : Word) (hk : 2 ≤ s.co.traps.mode.rank) :
    let r := s.writeSreg n x w
    let bad : Prop := Records s r s.co.planeLanes (causeIll subField w)
    let y := s.dev.vfsel
    let v := s.vf y
    let sets (old : Dword) (k : Vf) : Prop :=
      (v.lock = false ∨ old = x → SetsVf s r y k) ∧ (v.lock = true → old ≠ x → (r.vf y).error = true)
    (n = 0x31 → if 31 < x.toNat then bad else r = { s with dev := { s.dev with vfsel := x.toNat } }) ∧
    (n = 0x32 → sets v.quads { v with quads := x }) ∧ (n = 0x33 → sets v.memp { v with memp := x }) ∧
    (n = 0x34 → sets v.queues { v with queues := x }) ∧
    (n = 0x35 → if 2 ^ 16 ≤ x.toNat then bad else SetsVf s r y { v with slice := x.truncate 16 }) ∧
    (n = 0x36 → if 2 ^ 32 ≤ x.toNat ∨ x.toNat / 32 % 128 ≠ 0 ∨ (x.getLsbD 0 = true ∧ s.enBad y (x.getLsbD 1) = true)
      then bad
      else ∃ u : State, SetsVf s u y { v with en := x.getLsbD 0, shr := x.getLsbD 1, dpasid := x.extractLsb' 12 20 } ∧
        (x.getLsbD 2 = false → r = u) ∧ (x.getLsbD 2 = true → y < 32 → exec (.functionLevelReset y) u = .next r)) ∧
    (n = 0x37 → if 71 < x.toNat then bad else r = { s with dev := { s.dev with cmxsel := x.toNat } }) ∧
    (n = 0x39 → if 2 ^ 52 ≤ x.toNat ∨ x.toNat % 2 ^ 12 ≠ 0 then bad else
      (v.lock = false ∨ v.s2base = x →
        r = { s with co := { s.co with issue := { s.co.issue with newS2 := s.co.issue.newS2 ++ [(y, x)] } } }) ∧
      (v.lock = true → v.s2base ≠ x → (r.vf y).error = true)) := by
  dsimp only
  refine ⟨?_, ?_, ?_, ?_, ?_, ?_, ?_, ?_⟩
  · rintro rfl
    exact records_or (State.writeSreg_set rfl hk) Iff.rfl id
  · rintro rfl
    exact sets_or_error (fun v => { v with quads := x }) rfl (State.writeSreg_set rfl hk)
  · rintro rfl
    exact sets_or_error (fun v => { v with memp := x }) rfl (State.writeSreg_set rfl hk)
  · rintro rfl
    exact sets_or_error (fun v => { v with queues := x }) rfl (State.writeSreg_set rfl hk)
  · rintro rfl
    refine records_or (State.writeSreg_set rfl hk) (extract_high_ne_zero rfl x) fun hr => ?_
    rw [hr, ← extract_low]
    exact SetsVf.modVf ..
  · rintro rfl
    refine records_or ((State.writeSreg_set rfl hk).trans (ite_or ..).symm) (or_assoc.trans (or_congr (extract_high_ne_zero rfl x)
      (or_congr (extract_bits_ne_zero (j := 5) (k := 7) x) Iff.rfl))) fun hr => ⟨_, SetsVf.modVf s s.dev.vfsel fun v => { v with
        dpasid := x.extractLsb' 12 20, shr := x.getLsbD 1, en := x.getLsbD 0 }, fun hf => ?_, fun hf hy => ?_⟩
    · exact hr.trans (if_neg (ne_true_of_eq_false hf))
    · rw [hr, if_pos hf]
      exact congrArg Host.Outcome.next (if_pos hy)
  · rintro rfl
    exact records_or (State.writeSreg_set rfl hk) Iff.rfl id
  · rintro rfl
    refine records_or (State.writeSreg_set rfl hk) (or_congr (extract_high_ne_zero rfl x) (extract_low_ne_zero x)) fun hr => ?_
    exact written_or_error rfl hr

/-- SRWL takes the register's values into LTCAUSE or LTVAL in the active lanes. -/
theorem State.writeLaneReg_spec (s : State) (i b : BitVec 6) (hi : ¬ 1 < i.toNat) :
    let r := s.modCo fun c =>
      { c with traps := if i = 0 then { c.traps with ltcause := laneMerge c.active (c.vec b.toNat) c.traps.ltcause }
                        else { c.traps with ltval := laneMerge c.active (c.vec b.toNat) c.traps.ltval } }
    r = { s with co := { s.co with traps := { s.co.traps with
      ltcause := r.co.traps.ltcause, ltval := r.co.traps.ltval } } } ∧
    ∀ l, l < 32 →
      vget r.co.traps.ltcause l = (if i.toNat = 0 ∧ s.co.active.getLsbD l = true then s.co.vreg b.toNat l
        else vget s.co.traps.ltcause l) ∧
      vget r.co.traps.ltval l = if i.toNat = 1 ∧ s.co.active.getLsbD l = true then s.co.vreg b.toNat l
        else vget s.co.traps.ltval l := by
  dsimp only [State.modCo]
  by_cases h0 : i.toNat = 0
  · have hi0 : i = 0 := BitVec.eq_of_toNat_eq h0
    rw [if_pos hi0, h0]
    refine ⟨rfl, fun l hl => ⟨(vget_laneMerge _ _ _ l hl).trans ?_, ?_⟩⟩
    · simp [Coach.vreg]
    · simp
  · have hi0 : i ≠ 0 := fun h => h0 (congrArg BitVec.toNat h)
    have h1 : i.toNat = 1 := by omega
    rw [if_neg hi0, h1]
    refine ⟨rfl, fun l hl => ⟨?_, (vget_laneMerge _ _ _ l hl).trans ?_⟩⟩
    · simp
    · simp [Coach.vreg]

/-! ## O43 -/

/-- Settles O43: what each special register reads, and what a write of it does, in each mode. -/
theorem specialRegisters : Obligations.SpecialRegisters := by
  unfold Obligations.SpecialRegisters
  refine ⟨⟨?_, ?_, ?_⟩, fun m i b s => ⟨⟨_, exec_srw m i b s, ?_⟩, ?_⟩⟩
  · -- SRR
    intro m d i s
    refine ⟨_, rfl, ?_⟩
    -- the rank that the statement spells out is `sregRead`'s
    change match sregRead i.toNat with
      | none => _
      | some k => _
    dsimp only
    cases sregRead i.toNat with
    | none => exact s.trapPlane_spec _
    | some k =>
      refine records_or rfl Iff.rfl fun hr => ?_
      rw [hr]
      exact s.group_spec d _
  · -- the values
    intro s
    refine ⟨?_, State.sreg_s2base_unwritten, fun _ _ => State.sreg_s2base_written, fun h _ => State.sreg_noFrame h,
      fun _ _ => State.sreg_frame⟩
    simp only [List.forall_mem_cons, List.not_mem_nil, false_implies, implies_true, and_true]
    repeat' apply And.intro
    all_goals simp only [State.sreg, segRead, Vf.ctl_eq, zext64_toNat, BitVec.ofNat_toNat, BitVec.setWidth_eq]
  · -- SRRL
    intro m d i s
    refine ⟨_, rfl, ?_⟩
    dsimp only
    split
    · exact s.trapPlane_spec _
    · refine records_or rfl Iff.rfl fun hr => ?_
      rw [hr]
      exact (s.lane_spec d fun c l => c.laneReg i.toNat l).congr fun l _ => s.co.laneReg_eq i l
  · -- SRW
    dsimp only
    generalize i.toNat = n, s.co.greg b = x, (Instr.srw m i b).word = w
    refine ⟨?_, ?_, ?_, ?_, ?_, ?_, ?_, ?_, ?_, ?_, ?_, ?_, ?_, fun f rest hf hk => State.writeSreg_frame hf hk, ?_, ?_⟩
    · exact fun h0 h1 h2 => .of_trapPlane (State.writeSreg_unlisted (sregWrite_none h0 h1 h2))
    · exact fun hn hk => .of_trapPlane (State.writeSreg_priv (sregWrite_s hn) hk)
    · exact fun hn hk => .of_trapPlane (State.writeSreg_priv (sregWrite_h hn) hk)
    · rintro rfl
      rw [State.writeSreg_set rfl (Nat.zero_le _), ← extract_low]
      rfl
    · rintro rfl
      rw [State.writeSreg_set rfl (Nat.zero_le _), ← extract_low]
      rfl
    · rintro rfl
      rw [State.writeSreg_set rfl (Nat.zero_le _), ← extract_low]
      rfl
    · rintro rfl hk
      exact records_or (State.writeSreg_set rfl hk) Iff.rfl id
    · rintro rfl hk
      exact records_or (State.writeSreg_set rfl hk) Iff.rfl id
    · rintro rfl hk
      rw [State.writeSreg_set rfl hk, ← extract_low]
      rfl
    · rintro rfl hk
      exact ⟨_, (and_tableBase x).symm, State.writeSreg_set rfl hk⟩
    · rintro rfl hk
      rw [← extract_low]
      exact records_or (State.writeSreg_set rfl hk) (or_congr (extract_high_ne_zero rfl x) Iff.rfl) id
    · rintro rfl
      rw [State.writeSreg_set rfl (Nat.zero_le _)]
      exact s.setGang_cases x
    · intro hn hk hf
      exact State.writeSreg_noFrame hn hk hf
    · intro hk
      obtain ⟨h31, h32, h33, h34, h35, h36, h37, h39⟩ := s.writeSreg_device (n := n) x w hk
      refine ⟨h31, h32, h33, h34, h35, h36, h37, ?_, h39⟩
      rintro rfl
      rw [State.writeSreg_set rfl hk]
      exact cmxrow_written s x w
    · rintro rfl hk
      rw [State.writeSreg_set rfl hk, and_hcause]
      rfl
  · -- SRWL
    refine ⟨_, rfl, ?_⟩
    dsimp only
    split
    · exact s.trapPlane_spec _
    · rename_i hi
      refine records_or rfl Iff.rfl fun hr => ?_
      rw [hr]
      exact s.writeLaneReg_spec i b hi

end Sys2Proof.Machine
end
